-- ==== Sys2Proof/Word.lean ====
section
/-! DEFINITION. The widths the module stores: a byte of memory. Register fields are numbers below two to their
width, cut by the one operation that writes them (Machine/Regs.lean). -/

namespace Sys2Proof

/-- One byte of memory (R4: byte 0 at the lowest address holds bits [7:0]). -/
abbrev Byte := BitVec 8

end Sys2Proof
end

