-- ==== Sys2Proof/Syntax.lean ====
section
/-! DEFINITION. The commands of the block: one constructor per row of the opcode table, in the table's order. An operand is
what names the unit the step happens in, what a sender gives with it, or a fact of the surroundings that the step meets (a
temperature, a training outcome, the bytes of a host buffer, the symbol errors a read finds). -/

namespace Sys2Proof

/-- The path a register access or a message arrives on (Table 14-9). -/
inductive Port where
  | host (secure : Bool)
  | sideband
  | core (die cc : Nat)
  | peer (link : Nat)
deriving DecidableEq, Repr

/-- The bytes a register access names: how many, and the byte offset of the first. -/
structure AccessBytes where
  size : Nat
  off : Nat
deriving DecidableEq, Repr

/-- What a CXL.cache read of a host buffer brought: its bytes, or an access error (R421). -/
inductive BufData where
  | bytes (b : List Nat)
  | error
deriving DecidableEq, Repr

/-- R507: what the monitors of one rail's die show during a re-plan: the die, its hottest junction, the slack (0.1 %)
measured before the first change and after each, and the slowest array beat measured after it (Mbeat/s). -/
structure Measure where
  die : Nat
  temp : Nat
  slacks : List Nat
  beat : Nat
deriving DecidableEq, Repr

/-- Table 18-3: a rail: the bus, those of a compute die or a stack, that of another logic die, the PHYs', the far devices'. -/
inductive Rail where
  | vbus
  | core (n : Nat)
  | sram (n : Nat)
  | nmc (n : Nat)
  | nmq (n : Nat)
  | logic (die : Nat)
  | serdes
  | lpddr6
deriving DecidableEq, Repr

/-- R493: what a regulator reports: output voltage (mV), current (mA) and temperature (°C). -/
structure RailReport where
  rail : Rail
  mv : Nat
  ma : Nat
  temp : Nat
deriving DecidableEq, Repr

/-- The symbol errors a read finds: a line address and how many of its symbols are in error (R307). -/
abbrev Errs := List (Nat × Nat)

/-- The commands. -/
inductive Instr where
  /-- VIN rises through 39.0 V, with MODRST# asserted or not. -/
  | powerUp (modrst : Bool)
  | vbusInRegulation
  | railsUp
  | hdResetRelease
  /-- The start-up pattern of the PUF array. -/
  | pufReconstruct (pattern : Nat)
  | bootRecordFound
  | bootManifestVerify
  | hdFirmwareLoad
  | firmwareImagesLoad
  | replan (meas : List Measure)
  /-- The stack, the rows it repaired, and whether its test found rows that cannot be repaired. -/
  | nmBringup (stack : Nat) (repaired : Nat) (exhausted : List Nat) (bistFail : Bool)
  | fmOscillatorLock (fm : Nat)
  | lpddr6Init (ch : Nat)
  /-- The channel and the identity its devices report. -/
  | trainingSettingsRead (ch : Nat) (identity : Nat)
  | quickVerification (ch : Nat) (pass : Bool)
  | fullTrainingAttempt (ch : Nat) (pass : Bool) (settings : Nat)
  | farMemoryInit (exhausted : List Nat)
  /-- The idle power of the VDD_CORE rails measured during power-up, 0.1 W. -/
  | resetDone (pIdle : Nat)
  /-- Power-down by a low (true) or a high VIN. -/
  | powerDown (low : Bool)
  | vinLow (vin : Nat)
  | vinHigh (vin : Nat)
  /-- VIN (10 mV), input power (0.1 W), power of the VDD_CORE rails (0.1 W), measured outputs (die, mV). -/
  | inputSample (vin pin pcd : Nat) (outs : List RailReport)
  | capSample (pcap : Nat) (brake : Bool)
  /-- Units held averaged over the millisecond, hottest junction and its die. -/
  | budgetRecompute (g tj tjDie : Nat)
  /-- The 100 µs average of the input power, 0.1 W. -/
  | powerClampEngage (pin : Nat)
  | clampStepDown (pin : Nat)
  /-- The microseconds since the episode engaged. -/
  | clampStepUp (us : Nat)
  | tjHot (die temp : Nat)
  | thermalTrip (die : Nat)
  /-- By the pin (true) or by the watchdog request (false). -/
  | moduleReset (pin : Bool)
  | modrstRelease
  | watchdogExpiry (cp : Nat)
  | hoursTick
  /-- The slack (0.1 %) and the normalised logic delay that each monitor of the die reports, its hottest junction and slowest beat. -/
  | monitorSample (die : Nat) (slack delay : List Nat) (temp beat : Nat)
  | tapGuard (die beat : Nat)
  /-- A stack (0..7) or a far channel (8 + xx), and its hottest die or device. -/
  | refreshTempSample (ctrl temp : Nat)
  | strobeRetrack (ch : Nat) (beyondHalf : Bool)
  | scrubRead (addr symbols : Nat)
  | cowWriteResume (die queue seq : Nat)
  | slotStart (die : Nat)
  | stepStart (die : Nat)
  | issue (die queue : Nat)
  | drainWord (die queue : Nat)
  | endWord (die queue : Nat)
  | descriptorFetch (die queue : Nat)
  | semaphoreWaitMet (die queue : Nat)
  | hallPassGrant
  | engineStart (die queue seq : Nat)
  | descriptorComplete (die queue seq : Nat)
  | completionRecord (die queue : Nat)
  | hallPassRelease (die queue seq : Nat)
  | nop (die queue seq : Nat)
  | dmCopy (die queue seq : Nat) (errs : Errs)
  | arrayPassGroup (die array : Nat)
  | vchain (die vu : Nat)
  | rtTopk (die queue seq : Nat)
  | rtDisp (die queue seq : Nat)
  | rtExloop (die queue seq : Nat)
  | rtComb (die queue seq : Nat)
  | clAllreduce (die queue seq : Nat)
  | clReducescatter (die queue seq : Nat)
  | clAllgather (die queue seq : Nat)
  | clBcast (die queue seq : Nat)
  | clReduce (die queue seq : Nat)
  | clSend (die queue seq : Nat)
  | clRecv (die queue seq : Nat)
  | clBarrier (die queue seq : Nat)
  | semAdd (die sem value : Nat)
  | resume (die queue : Nat)
  | flush (die queue : Nat)
  | qCheadWrite (die queue value : Nat)
  | amaxClr (die slot : Nat)
  | commit (die : Nat)
  | discard (die : Nat)
  | lanternFenceEffect (die : Nat)
  | vregWrite (die vu vreg lane value : Nat)
  | vregWriteEffect (die vu : Nat)
  /-- A write of bytes of a block's instance. -/
  | registerWrite (port : Port) (blk inst : Nat) (bytes : AccessBytes) (value : Nat)
  | passIssue (die array : Nat)
  | loadBeat (die array : Nat) (errs : Errs)
  | arrayBeat (die array : Nat) (errs : Errs)
  | readoutRow (die array : Nat)
  | recomputeAttempt (die queue seq : Nat)
  | fallback (die queue seq : Nat)
  | sampledAgreeCompare (die queue seq tile : Nat)
  | vectorStep (die vu : Nat)
  | tileBufferSlotReady (die vu buf : Nat)
  /-- A count block: from the source's rank and die, its bytes. -/
  | countBlockReceive (die queue seq rank srcDie : Nat) (bytes : List Nat)
  | dispatchCountTimeout (die queue seq rank srcDie : Nat)
  | admittedCountReturn (die queue seq rank ownDie : Nat) (bytes : List Nat)
  | routeRowReceive (die queue seq rank srcDie : Nat) (bytes : List Nat)
  | dispatchRowTimeout (die queue seq : Nat)
  | combineReturnReceive (die queue seq rank ownDie : Nat) (bytes : List Nat)
  | combineReturnTimeout (die queue seq : Nat)
  | enterCheck (die : Nat)
  | moduleTokenSend
  /-- The 256-byte payload of a child's check token, and the child's rank. -/
  | checkTokenReceive (rank : Nat) (bytes : List Nat)
  | verdictReceive (bytes : List Nat)
  | applyDone (die : Nat)
  | checkTimeout
  | planProposal
  | proposalReceive (rank : Nat) (bytes : List Nat)
  | linkPllLock (link : Nat)
  | partnerSignalDetect (link : Nat)
  | equalisationDone (link : Nat)
  /-- The lane pairs that work. -/
  | codewordLock (link : Nat) (pair0 pair1 : Bool)
  | trainingAttemptFail (link : Nat)
  /-- Control messages: the link and the message's 48 bytes. -/
  | ident (link : Nat) (bytes : List Nat)
  | nak (link : Nat) (bytes : List Nat)
  | violation (link : Nat) (bytes : List Nat)
  | echo (link : Nat) (bytes : List Nat)
  | retrainReq (link : Nat) (bytes : List Nat)
  | downNotice (link : Nat) (bytes : List Nat)
  /-- The 256 bytes after FEC, the symbols corrected, and whether the FEC failed. -/
  | flitReceive (link : Nat) (bytes : List Nat) (corrected : Nat) (uncorr : Bool)
  | flitTransmit (link : Nat)
  | replayTimeout (link : Nat)
  | echoSendTick (link : Nat)
  | frameReceive (link tc : Nat)
  | tc0HeldRelease
  | lossOfSignal (link lane : Nat)
  | retrainDone (link : Nat) (pair0 pair1 : Bool)
  | violationWindowEnd (link : Nat)
  /-- A chunk of a collective: the sender's rank, the frame's fields and payload. -/
  | chunkReceive (group coll chunk rank ncontrib : Nat) (bytes : List Nat)
  | combineWaitTimeout (group coll chunk : Nat)
  | distributeReceive (group coll chunk : Nat) (bytes : List Nat)
  | distLost (group coll chunk : Nat)
  | dieIssueTimeout (group coll : Nat)
  | drainStart
  | drainLineCopy
  | drainComplete
  | mirrorData (rank : Nat) (bytes : List Nat)
  | parityDelta (rank : Nat) (bytes : List Nat)
  | parityFull (rank : Nat) (bytes : List Nat)
  | restoreData (rank : Nat) (bytes : List Nat)
  | ack (rank : Nat) (bytes : List Nat)
  | request (rank : Nat) (bytes : List Nat)
  | protectRetransmit (index : Nat)
  | durabilityReportReceive (rank genA genB : Nat)
  | durableAnnounce (gen : Nat)
  | replicaDigestReceive (rank : Nat) (bytes : List Nat)
  | localRestore
  | rollcallReplay
  | rollcallDigestReceive (rank : Nat) (bytes : List Nat)
  | restoreDone
  | restoreAbort
  | claim (port : Port) (chan : Nat)
  | release (port : Port) (chan : Nat)
  /-- A write of MB_CTRL with GO = 1: its value. -/
  | go (port : Port) (chan value : Nat)
  | messageTake
  | ping (chan : Nat)
  | jobSetup (chan : Nat)
  | jobEnd (chan : Nat)
  | stepRun (chan : Nat)
  | jobStop (chan : Nat)
  | lessonLoad (chan : Nat) (buf : BufData)
  | timetableLoad (chan : Nat) (buf : BufData)
  | policy (chan : Nat)
  | genSet (chan : Nat)
  | sealNow (chan : Nat)
  | hold (chan : Nat)
  | restore (chan : Nat)
  | rejoin (chan : Nat)
  | setCoord (chan : Nat)
  | linkSet (chan : Nat)
  | linkState (chan : Nat)
  | groupDefine (chan : Nat) (buf : BufData)
  | groupDelete (chan : Nat)
  | farLayout (chan : Nat)
  | telemetry (chan : Nat)
  | telemetryBuffer (chan : Nat) (fail : Bool)
  | updateStage (chan : Nat) (buf : BufData)
  /-- Whether the flash write and its read-back succeeded. -/
  | updateStaged (flashOk : Bool)
  | updateActivate (chan : Nat)
  | updateStatus (chan : Nat)
  | newFirmwareBoot (ok : Bool)
  | handoverCommit (ok : Bool)
  | dbPendClear (value : Nat)
  | dbMaskWrite (value : Nat)
  | evHeadWrite (value : Nat)
  | eventDelayExpiry
  | flr
  | cxlReset
  | hotReset
  | cxPerstAssert
  | hdmDecoderCommit (base size ways : Nat)
  /-- A host access at a byte offset of the decoder range: the bytes to write, or a read of a length. -/
  | cxlMemAccess (off len : Nat) (write : Option (List Nat)) (errs : Errs)
  /-- The bytes of a private write (a BAR0 offset and data words). -/
  | privateWrite (bytes : List Nat)
  /-- The words a private read asks for. -/
  | privateRead (words : Nat)
  /-- The dynamic address the controller assigns. -/
  | entdaa (addr : Nat)
  | setdasa (static addr : Nat)
  | rstdaa
  | enec (events : Nat)
  | disec (events : Nat)
  | getpid
  | getbcr
  | getdcr
  | getstatus
  | getmwl
  | getmrl
  /-- SPDM requests: the bytes of the message. -/
  | getVersion (bytes : List Nat)
  | getCapabilities (bytes : List Nat)
  | negotiateAlgorithms (bytes : List Nat)
  | getDigests (bytes : List Nat)
  | getCertificate (bytes : List Nat)
  | challenge (bytes : List Nat)
  | getMeasurements (bytes : List Nat)
  | keyExchange (bytes : List Nat)
  | finish (session : Nat) (bytes : List Nat)
  | keyUpdate (session : Nat) (bytes : List Nat)
  | heartbeat (session : Nat) (bytes : List Nat)
  | endSession (session : Nat) (bytes : List Nat)
  | vendorDefinedRequest (bytes : List Nat)
  /-- The collector takes the next record of a die's trace FIFO. -/
  | traceRecordAccept (die : Nat)
  | ringSnapshot (ring : Nat)
  /-- The records of a TRACE frame from the module at packed coordinates. -/
  | traceFrameReceive (src : Nat) (bytes : List Nat)
  | breakpointResume (die core : Nat)
  /-- The stamps of one exchange with each die: (die, A1, B1, B2, A2). -/
  | echoFabricExchange
  | testLogicReset
  | extest
  /-- The cells captured and the cells shifted in (none: no Update-DR). -/
  | samplePreload (preload : Option (List Bool))
  | idcode
  | clamp
  | highz
  | extestPulse
  | extestTrain
  | testStatus
  | dbgAccess
  | bypass
  /-- The 82 bits shifted in. -/
  | debugAccessUpdate (bits : Nat)
  /-- Whether each of the up to three record writes succeeded. -/
  | erasureTaken (writes : List Bool)
  | registerRead (port : Port) (blk inst : Nat) (bytes : AccessBytes)
  | configurationRequest (off : Nat) (write : Option Nat)
  | cxPerstDeassert
  /-- Width in lanes and rate in GT/s. -/
  | cxlLinkTrained (width rate : Nat)
  | ideKeySet (session stream : Nat)
  | stBeatTick
  | barrierTokenReceive (group rank seq : Nat)
  | flashExternalWrite (addr : Nat) (bytes : List Nat)
  | boundaryUpdateDr (bits : List Bool)
deriving DecidableEq, Repr

end Sys2Proof
end

