-- ==== Sys2Proof/Decode.lean ====
section
/-! DEFINITION. The commands that words of the opcode table spell: the table gives no row any bits. -/

namespace Sys2Proof

/-- The command a word spells by the table's bits: none, since no row of the table has bits. Log 1 (DESIGN CHOICE). -/
def decodeTableWord (_nbits _w : Nat) : Option Instr := none

end Sys2Proof
end

