-- ==== Sys2Proof/Machine/Numeric.lean ====
section
/-! DEFINITION. Exact values, the format codes of Table 2-1, decoding, and the one rounding every result passes
through (chapters Tensor number formats and block scales, Conversion, rounding and random bits; R198 for the
vector stages). Every value is exact until the single rounding the rule names. -/

namespace Sys2Proof.Machine

/-- An exact nonnegative magnitude `num / den`; every operation below keeps `den` positive. -/
structure Mag where
  num : Nat
  den : Nat
deriving DecidableEq, Repr

namespace Mag

/-- The magnitude of a whole number. -/
def ofNat (n : Nat) : Mag := ⟨n, 1⟩

/-- `n * 2^e`. -/
def dyadic (n : Nat) (e : Int) : Mag :=
  if 0 ≤ e then ⟨n * 2 ^ e.toNat, 1⟩ else ⟨n, 2 ^ (-e).toNat⟩

def isZero (a : Mag) : Bool := a.num == 0
def le (a b : Mag) : Bool := decide (a.num * b.den ≤ b.num * a.den)
def lt (a b : Mag) : Bool := decide (a.num * b.den < b.num * a.den)
def eq (a b : Mag) : Bool := decide (a.num * b.den = b.num * a.den)
def mul (a b : Mag) : Mag := ⟨a.num * b.num, a.den * b.den⟩
def div (a b : Mag) : Mag := ⟨a.num * b.den, a.den * b.num⟩
def add (a b : Mag) : Mag := if a.den = b.den then ⟨a.num + b.num, a.den⟩ else ⟨a.num * b.den + b.num * a.den, a.den * b.den⟩
/-- `a - b`, for `b ≤ a`. -/
def sub (a b : Mag) : Mag := ⟨a.num * b.den - b.num * a.den, a.den * b.den⟩
def max (a b : Mag) : Mag := if a.le b then b else a
/-- `a * 2^e`. -/
def scale (a : Mag) (e : Int) : Mag := a.mul (dyadic 1 e)

/-- `floor (log2 a)` of a magnitude that is not zero. -/
def log2 (a : Mag) : Int :=
  let d : Int := (Nat.log2 a.num : Int) - (Nat.log2 a.den : Int)
  if (dyadic 1 d).le a then d else d - 1

/-- Two to the power `k / 2^f`, compared with `a`: is `2^(k/2^f) ≤ a`? -/
def pow2Le (k : Int) (f : Nat) (a : Mag) : Bool :=
  let n := 2 ^ f
  (dyadic 1 k).le ⟨a.num ^ n, a.den ^ n⟩

end Mag

/-- A decoded value: NaN, an infinity, or an exact signed magnitude (a zero keeps its sign, R36). -/
inductive Val where
  | nan
  | inf (neg : Bool)
  | fin (neg : Bool) (m : Mag)
deriving DecidableEq, Repr

namespace Val

def zero : Val := .fin false (Mag.ofNat 0)
def ofInt (i : Int) : Val := .fin (decide (i < 0)) (Mag.ofNat i.natAbs)
def isNan : Val → Bool | .nan => true | _ => false
/-- Is a value finite? -/
def isFin : Val → Bool | .fin _ _ => true | _ => false
def isZero : Val → Bool | .fin _ m => m.isZero | _ => false
def negate : Val → Val | .nan => .nan | .inf n => .inf (!n) | .fin n m => .fin (!n) m
def abs : Val → Val | .nan => .nan | .inf _ => .inf false | .fin _ m => .fin false m

/-- Table 2-9: the product of two values. -/
def mul : Val → Val → Val
  | .nan, _ | _, .nan => .nan
  | .inf s, .inf t => .inf (s != t)
  | .inf s, .fin t m => if m.isZero then .nan else .inf (s != t)
  | .fin s m, .inf t => if m.isZero then .nan else .inf (s != t)
  | .fin s a, .fin t b => .fin (s != t) (a.mul b)

/-- The exact sum of two values; IEEE 754's sign of a zero sum under round to nearest (R198). -/
def add : Val → Val → Val
  | .nan, _ | _, .nan => .nan
  | .inf s, .inf t => if s = t then .inf s else .nan
  | .inf s, _ | _, .inf s => .inf s
  | .fin s a, .fin t b =>
    if s = t then .fin s (a.add b)
    else if a.eq b then .fin false (Mag.ofNat 0)
    else if b.lt a then .fin s (a.sub b) else .fin t (b.sub a)

/-- Table 2-9: an exact sum equal to zero is +0. -/
def plusZero (v : Val) : Val := if v.isZero then zero else v

/-- Division of the vector stages (R198): a zero divisor is a pole. -/
def div : Val → Val → Val
  | .nan, _ | _, .nan => .nan
  | .inf _, .inf _ => .nan
  | .inf s, .fin t _ => .inf (s != t)
  | .fin s _, .inf t => .fin (s != t) (Mag.ofNat 0)
  | .fin s a, .fin t b =>
    if b.isZero then (if a.isZero then .nan else .inf (s != t)) else .fin (s != t) (a.div b)

/-- `<` on exact values; false where either is NaN. -/
def lt : Val → Val → Bool
  | .nan, _ | _, .nan => false
  | .inf s, .inf t => s && !t
  | .inf s, .fin _ _ => s
  | .fin _ _, .inf t => !t
  | .fin s a, .fin t b =>
    if a.isZero && b.isZero then false
    else if s && !t then true
    else if !s && t then false
    else if s then b.lt a else a.lt b

/-- Equality of exact values (the two zeros are equal); false where either is NaN. -/
def eqv : Val → Val → Bool
  | .nan, _ | _, .nan => false
  | .inf s, .inf t => s == t
  | .fin s a, .fin t b => (a.isZero && b.isZero) || (s == t && a.eq b)
  | _, _ => false

end Val

/-- The element formats of Table 2-1. -/
inductive Fmt where
  | t2 | i2 | i4 | u4 | f4 | f6a | f6b | i8 | u8 | f8a | f8b | l8 | bf16 | fp16 | fp32 | s8 | i32
  | ub (b : Nat) | ib (b : Nat)
deriving DecidableEq, Repr

namespace Fmt

/-- Table 2-1: the format a code names; `none` for a reserved code (R26). -/
def ofCode (c : Nat) : Option Fmt :=
  match c with
  | 0x00 => some .t2 | 0x01 => some .i2 | 0x02 => some .i4 | 0x03 => some .u4 | 0x04 => some .f4
  | 0x05 => some .f6a | 0x06 => some .f6b | 0x07 => some .i8 | 0x08 => some .u8 | 0x09 => some .f8a
  | 0x0A => some .f8b | 0x0B => some .l8 | 0x0C => some .bf16 | 0x0D => some .fp16 | 0x0E => some .fp32
  | 0x0F => some .s8 | 0x10 => some .i32
  | c => if 0x21 ≤ c ∧ c ≤ 0x2F then some (.ub (c - 0x1F))
         else if 0x31 ≤ c ∧ c ≤ 0x3F then some (.ib (c - 0x2F)) else none

/-- Table 2-1 read backwards. -/
def code : Fmt → Nat
  | .t2 => 0x00 | .i2 => 0x01 | .i4 => 0x02 | .u4 => 0x03 | .f4 => 0x04 | .f6a => 0x05 | .f6b => 0x06
  | .i8 => 0x07 | .u8 => 0x08 | .f8a => 0x09 | .f8b => 0x0A | .l8 => 0x0B | .bf16 => 0x0C | .fp16 => 0x0D
  | .fp32 => 0x0E | .s8 => 0x0F | .i32 => 0x10 | .ub b => b + 0x1F | .ib b => b + 0x2F

/-- Storage width in bits (Tables 2-1 and 2-2, R28). -/
def bits : Fmt → Nat
  | .t2 | .i2 => 2
  | .i4 | .u4 | .f4 => 4
  | .f6a | .f6b => 6
  | .i8 | .u8 | .f8a | .f8b | .l8 | .s8 => 8
  | .bf16 | .fp16 => 16
  | .fp32 | .i32 => 32
  | .ub b | .ib b => if b ≤ 2 then 2 else if b ≤ 4 then 4 else if b ≤ 8 then 8 else 16

/-- R40: may the format carry block scales? -/
def scalable : Fmt → Bool
  | .t2 | .i2 | .i4 | .u4 | .f4 | .f6a | .f6b | .i8 | .u8 | .f8a | .f8b | .l8 => true
  | _ => false

/-- An integer format: its least and greatest value (Table 2-3; T2 with the range of R30). -/
def intRange : Fmt → Option (Int × Int)
  | .t2 => some (-1, 1)
  | .i2 => some (-2, 1)
  | .i4 => some (-8, 7)
  | .u4 => some (0, 15)
  | .i8 => some (-128, 127)
  | .u8 => some (0, 255)
  | .i32 => some (-2147483648, 2147483647)
  | .ib b => some (-(2 ^ (b - 1) : Nat), (2 ^ (b - 1) : Nat) - 1)
  | .ub b => some (0, (2 ^ b : Nat) - 1)
  | _ => none

def isInt (f : Fmt) : Bool := f.intRange.isSome
def isSerial : Fmt → Bool | .ub _ | .ib _ => true | _ => false

/-- R46: the width class of an array operand. -/
def cls : Fmt → Option Nat
  | .t2 | .i2 | .i4 | .u4 | .f4 => some 1
  | .f6a | .f6b | .i8 | .u8 | .f8a | .f8b | .bf16 => some 2
  | .fp16 => some 4
  | _ => none

end Fmt

/-- A floating format: exponent bits, mantissa bits, bias (Table 2-5, R33), and its largest finite code. -/
structure FloatFmt where
  ebits : Nat
  mbits : Nat
  bias : Nat
  maxCode : Nat
  nanCode : Option Nat
  infCode : Option Nat
deriving DecidableEq, Repr

/-- Tables 2-5 and 2-7. -/
def Fmt.float : Fmt → Option FloatFmt
  | .f4 => some ⟨2, 1, 1, 0x7, none, none⟩
  | .f6a => some ⟨3, 2, 3, 0x1F, none, none⟩
  | .f6b => some ⟨2, 3, 1, 0x1F, none, none⟩
  | .f8a => some ⟨4, 3, 7, 0x7E, some 0x7F, none⟩
  | .f8b => some ⟨5, 2, 15, 0x7B, some 0x7E, some 0x7C⟩
  | .bf16 => some ⟨8, 7, 127, 0x7F7F, some 0x7FC0, some 0x7F80⟩
  | .fp16 => some ⟨5, 10, 15, 0x7BFF, some 0x7E00, some 0x7C00⟩
  | .fp32 => some ⟨8, 23, 127, 0x7F7FFFFF, some 0x7FC00000, some 0x7F800000⟩
  | _ => none

namespace FloatFmt

/-- R32: the magnitude of a finite code without its sign bit. -/
def magOf (f : FloatFmt) (c : Nat) : Mag :=
  let e := c / 2 ^ f.mbits
  let m := c % 2 ^ f.mbits
  if e = 0 then Mag.dyadic m (1 - (f.bias : Int) - f.mbits)
  else Mag.dyadic (2 ^ f.mbits + m) ((e : Int) - f.bias - f.mbits)

def signBit (f : FloatFmt) : Nat := 2 ^ (f.ebits + f.mbits)
def maxMag (f : FloatFmt) : Mag := f.magOf f.maxCode

/-- Decode a code, special codes as Table 2-5 gives them (R32, R33). -/
def decode (f : FloatFmt) (code : Nat) : Val :=
  let neg := decide (code / f.signBit % 2 = 1)
  let c := code % f.signBit
  if f.infCode = some c then .inf neg
  else if f.maxCode < c then .nan
  else .fin neg (f.magOf c)

/-- Where a magnitude lies between adjacent codes: the lower code, and the fraction of the step above it. -/
def below (f : FloatFmt) (q : Mag) : Nat × Mag :=
  if q.isZero then (0, Mag.ofNat 0) else
  let emin : Int := 1 - (f.bias : Int)
  let e := if q.log2 < emin then emin else q.log2
  let t := q.scale ((f.mbits : Int) - e)
  let n := t.num / t.den
  (((e - emin).toNat) * 2 ^ f.mbits + n, ⟨t.num % t.den, t.den⟩)

end FloatFmt

/-- Rounding modes of `CVTCTL` (Table 3-1). -/
inductive RMode where
  | rn | rz | sr (r : Nat)
deriving DecidableEq, Repr

/-- Table 3-1, `RMODE`. -/
def RMode.ofCode : Nat → Option RMode
  | 0 => some .rn | 1 => some .rz | 2 => some (.sr 4) | 3 => some (.sr 8) | 4 => some (.sr 12) | 5 => some (.sr 16)
  | _ => none

def RMode.isSr : RMode → Bool | .sr _ => true | _ => false

/-- R66, R67, R54: does the value `lo` plus the fraction `f` of a step go up? `slice` is the element's 16-bit slice
(R68: the top `r` bits of it are drawn). -/
def roundsUp (md : RMode) (slice : Nat) (lo : Nat) (f : Mag) : Bool :=
  if f.isZero then false else
  match md with
  | .rz => false
  | .rn =>
    if f.num * 2 = f.den then lo % 2 == 1 else decide (f.den < f.num * 2)
  | .sr r => decide (2 ^ r ≤ f.num * 2 ^ r / f.den + slice % 65536 / 2 ^ (16 - r))

/-- The signs of an event a conversion raises (Table 2-15). -/
inductive CvtEvent where
  | sat | ovf | unf | nanIn
deriving DecidableEq, Repr

/-- What one element's conversion gives: the code and the events raised. -/
structure CvtOut where
  code : Nat
  events : List CvtEvent
deriving DecidableEq, Repr

/-- `INTSAT` applied to an exact integer (R49, R30; Table 2-11). -/
def intSat (f : Fmt) (mode : Nat) (v : Int) : Int × List CvtEvent :=
  match f.intRange with
  | none => (v, [])
  | some (lo, hi) =>
    if lo ≤ v ∧ v ≤ hi then (v, [])
    else if mode = 1 then
      (match f with
       | .t2 => (let r := v % 3; if r = 2 then -1 else r)
       | _ => let n := hi - lo + 1; let r := v % n; if hi < r then r - n else r, [])
    else (if v < lo then lo else hi, if mode = 2 then [.sat] else [])

/-- The code of an integer in a format: two's complement in the storage width, the container filled with the sign
(R28, R29). -/
def intCode (f : Fmt) (v : Int) : Nat := (v % (2 ^ f.bits : Nat)).toNat

/-- R39: the value of an S8 code as a magnitude (0xFF has none; its uses are the rules of R42). -/
def s8Mag (c : Nat) : Mag :=
  let e := c / 8
  let m := c % 8
  if e = 0 then Mag.dyadic m (-17) else Mag.dyadic (8 + m) ((e : Int) - 18)

/-- The L8 log code of a magnitude, in steps of 1/16 (R38, R66): nearest under RN, smaller magnitude under RZ.
`none` is zero. The magnitude is not above the largest code. -/
def l8Round (md : RMode) (q : Mag) : Option Int :=
  if q.isZero then none else
  -- floor(16 log2 q) and floor(16 log2 q + 1/2), from the exact powers q^16 and q^32
  let lo := (⟨q.num ^ 16, q.den ^ 16⟩ : Mag).log2
  let near := ((⟨q.num ^ 32, q.den ^ 32⟩ : Mag).scale 1).log2 / 2
  let k := match md with | .rz => lo | _ => near
  if k < -63 then none else some (if 63 < k then 63 else k)

/-- Does a finite magnitude lie past the largest finite of a floating or L8 target (R51, R38)? -/
def pastRange (f : Fmt) (q : Mag) : Bool :=
  match f.float with
  | some ff => ff.maxMag.lt q
  | none => match f with
    | .l8 => (⟨2 ^ 63, 1⟩ : Mag).lt ⟨q.num ^ 16, q.den ^ 16⟩
    | _ => false

/-- The sign bit of a floating or L8 code. -/
def signOf (f : Fmt) (neg : Bool) : Nat :=
  if neg then 2 ^ (f.bits - 1) else 0

/-- R51, Table 2-12: a finite value past range. -/
def overflowCode (f : Fmt) (ovf neg : Bool) : CvtOut :=
  match f.float with
  | some ff =>
    if ovf then
      match ff.infCode, ff.nanCode with
      | some i, _ => ⟨signOf f neg + i, [.ovf]⟩
      | none, some n => ⟨n, [.ovf]⟩
      | none, none => ⟨signOf f neg + ff.maxCode, [.sat]⟩
    else ⟨signOf f neg + ff.maxCode, [.sat]⟩
  | none => ⟨signOf f neg + 0x3F, [.sat]⟩

/-- R50 and R52, Table 2-13: a NaN or infinite input. -/
def specialCode (f : Fmt) (ovf : Bool) (v : Val) : CvtOut :=
  match f.intRange, v with
  | some _, .nan => ⟨0, [.nanIn]⟩
  | some (lo, hi), .inf n => ⟨intCode f (if n then lo else hi), [.sat]⟩
  | none, .nan =>
    (match f.float with
     | some ff => ⟨ff.nanCode.getD 0, [.nanIn]⟩
     | none => ⟨0x40, [.nanIn]⟩)
  | none, .inf n =>
    (match f.float with
     | some ff => (match ff.infCode with
        | some i => ⟨signOf f n + i, []⟩
        | none => overflowCode f ovf n)
     | none => overflowCode f ovf n)
  | _, .fin _ _ => ⟨0, []⟩

/-- The code of a zero of a sign in a format (R36, R37). -/
def zeroCode (f : Fmt) (neg : Bool) : Nat :=
  if f.isInt then 0 else match f with
    | .l8 => signOf f neg + 0x40
    | _ => signOf f neg

/-- Steps 6 to 8 of Table 3-2 for an exact finite quotient `q` of sign `neg`. -/
def roundFinite (f : Fmt) (md : RMode) (ovf : Bool) (intsat slice : Nat) (neg : Bool) (q : Mag) : CvtOut :=
  if f.isInt then
    let lo := q.num / q.den
    let n := if roundsUp md slice lo ⟨q.num % q.den, q.den⟩ then lo + 1 else lo
    let (v, ev) := intSat f intsat (if neg then -(n : Int) else n)
    ⟨intCode f v, if n = 0 ∧ ¬ q.isZero then .unf :: ev else ev⟩
  else if pastRange f q then overflowCode f ovf neg
  else match f.float with
    | some ff =>
      let (lo, fr) := ff.below q
      let c := if roundsUp md slice lo fr then lo + 1 else lo
      ⟨signOf f neg + c, if c = 0 ∧ ¬ q.isZero then [.unf] else []⟩
    | none => match l8Round md q with
      | some k => ⟨signOf f neg + (k % 128).toNat, []⟩
      | none => ⟨zeroCode f neg, if q.isZero then [] else [.unf]⟩

/-- Find the largest `n < 2^k` with `p n`, for a `p` that holds on an initial run, by halving. -/
def searchBelow (p : Nat → Bool) : Nat → Nat → Nat
  | 0, base => base
  | k + 1, base => if p (base + 2 ^ k) then searchBelow p k (base + 2 ^ k) else searchBelow p k base

/-- R110: the FP32 value nearest to `2^(lam/256)`. -/
def fp32OfLog (neg : Bool) (lam : Int) : Val :=
  let e := lam / 256
  let f := lam % 256
  let p : Int := if e < -126 then 149 + e else 23
  -- round(2^(p + f/256)): the largest n with 2n - 1 ≤ 2^(p + 1 + f/256)
  let le (n : Nat) : Bool := decide ((2 * n - 1) ^ 256 ≤ 2 ^ (256 * (p + 1) + f).toNat)
  .fin neg (Mag.dyadic (searchBelow le 25 0) (e - p))

/-- R37: the value of an L8 code outside the log domain: zero with its sign, or ±2^L, which is taken to the nearest FP32 value as
R110 takes it where L is no whole number. Log 147 (DEDUCED). -/
def l8Val (code : Nat) : Val :=
  let neg := decide (128 ≤ code % 256)
  let l := code % 128
  if l = 0x40 then .fin neg (Mag.ofNat 0)
  else fp32OfLog neg (16 * (if 64 ≤ l then (l : Int) - 128 else l))

/-- Decode one element code of a format: its value, and whether it is T2's invalid code (R30, R32, R33, R37). Arrays
take L8 codes in the log domain (`logOf`). Log 147 (DEDUCED). -/
def decodeElem (f : Fmt) (code : Nat) : Val × Bool :=
  match f with
  | .t2 => (match code % 4 with
    | 0 => (Val.ofInt 0, false) | 1 => (Val.ofInt 1, false) | 3 => (Val.ofInt (-1), false) | _ => (Val.ofInt 0, true))
  | .s8 => (.fin false (s8Mag code), false)
  | .l8 => (l8Val code, false)
  | .ub b => (Val.ofInt (code % 2 ^ b : Nat), false)
  | .ib b => let c := code % 2 ^ b
    (Val.ofInt (if 2 ^ (b - 1) ≤ c then (c : Int) - (2 ^ b : Nat) else c), false)
  | f => match f.intRange, f.float with
    | some (lo, hi), _ => (Val.ofInt (if hi < (code : Int) then (code : Int) - (hi - lo + 1) else code), false)
    | none, some ff => (ff.decode code, false)
    | none, none => (Val.zero, false)

/-- FP32 as the vector stages read it. -/
def fp32 : FloatFmt := ⟨8, 23, 127, 0x7F7FFFFF, some 0x7FC00000, some 0x7F800000⟩

/-- The value of an FP32 code. -/
def fp32Val (c : Nat) : Val := fp32.decode c

/-- R198: the exact result rounded once to FP32, to nearest even, overflow to infinity, gradual underflow, canonical
NaN (R35). -/
def fp32Round : Val → Nat
  | .nan => 0x7FC00000
  | .inf n => (if n then 0x80000000 else 0) + 0x7F800000
  | .fin n q =>
    let (lo, fr) := fp32.below q
    let c := if roundsUp .rn 0 lo fr then lo + 1 else lo
    (if n then 0x80000000 else 0) + (if 0x7F800000 ≤ c then 0x7F800000 else c)

/-- R62: a magnitude rounded upward to FP32; past the largest finite it is +∞. -/
def fp32RoundUp (q : Mag) : Nat :=
  let (lo, fr) := fp32.below q
  let c := if fr.isZero then lo else lo + 1
  if 0x7F800000 ≤ c then 0x7F800000 else c

/-- The signed 32-bit integer of a word, and the word of an integer. -/
def i32Of (w : Nat) : Int := if 2 ^ 31 ≤ w % 2 ^ 32 then ((w % 2 ^ 32 : Nat) : Int) - (2 ^ 32 : Nat) else (w % 2 ^ 32 : Nat)
def i32Code (v : Int) : Nat := (v % (2 ^ 32 : Nat)).toNat

/-! ## Extended floats (R100) -/

/-- An extended float or its special state: `fin man exp` is `man * 2^exp` with `|man| < 2^40`. -/
inductive XVal where
  | nan
  | inf (neg : Bool)
  | fin (man : Int) (exp : Int)
deriving DecidableEq, Repr

/-- R100: a nonzero exact signed dyadic rounded once to 40 significant bits, ties to even, subnormal below exponent 1. -/
def xRound (man : Int) (exp : Int) : XVal :=
  if man = 0 then .fin 0 0 else
  let n := man.natAbs
  let top : Int := (Nat.log2 n : Int) + exp
  let e : Int := if top < -126 then -126 else top
  let ulp : Int := e - 39
  let (lo, f) := if ulp ≤ exp then (n * 2 ^ (exp - ulp).toNat, Mag.ofNat 0)
    else let d := 2 ^ (ulp - exp).toNat; (n / d, ⟨n % d, d⟩)
  let r := if roundsUp .rn 0 lo f then lo + 1 else lo
  if 2 ^ 40 ≤ r ∧ 127 ≤ e then .inf (decide (man < 0))
  else if 128 ≤ e then .inf (decide (man < 0))
  else .fin (if man < 0 then -(r : Int) else r) ulp

/-- The value an extended float enters readout with (R110). -/
def XVal.val : XVal → Val
  | .nan => .nan
  | .inf n => .inf n
  | .fin m e => .fin (decide (m < 0)) (Mag.dyadic m.natAbs e)

/-! ## The log domain (R106 to R110) -/

/-- R108: `φi` and `ψi` times 256, i = 0..31, from the rule's two formulas. -/
def logCorrections : List (Int × Int) :=
  [(240, -919), (211, -545), (185, -386), (161, -291), (139, -227), (120, -180), (104, -145), (89, -118),
   (76, -96), (65, -79), (55, -65), (47, -54), (40, -45), (34, -37), (29, -31), (24, -26), (21, -22), (17, -18),
   (15, -15), (12, -13), (10, -11), (9, -9), (7, -8), (6, -6), (5, -5), (4, -4), (4, -4), (3, -3), (3, -3),
   (2, -2), (2, -2), (2, -2)]

/-- A value of the log domain: zero, or a sign and `Λ` in units of 1/256. -/
inductive LVal where
  | zero
  | val (neg : Bool) (lam : Int)
deriving DecidableEq, Repr

/-- R107 step 5: `Λ` brought into its 16 bits. -/
def lClamp (neg : Bool) (lam : Int) : LVal × List CvtEvent :=
  if 32767 < lam then (.val neg 32767, [.sat])
  else if lam < -32768 then (.zero, [.unf]) else (.val neg lam, [])

/-- R107: the combination ⊕, with the correction table the machine holds. -/
def lAdd (tab : List (Int × Int)) (a b : LVal) : LVal × List CvtEvent :=
  match a, b with
  | .zero, x | x, .zero => (x, [])
  | .val sa la, .val sb lb =>
    let (s, mx, mn) := if lb ≤ la then (sa, la, lb) else (sb, lb, la)
    let d := mx - mn
    if 2048 ≤ d then lClamp s mx
    else
      let (phi, psi) := tab.getD (d / 64).toNat (0, 0)
      if sa = sb then lClamp s (mx + phi)
      else if d = 0 then (.zero, []) else lClamp s (mx + psi)

/-- R106: log2 of a block scale, to the nearest multiple of 1/256, in those units. -/
def logScale (c : Nat) : Int :=
  let m := s8Mag c
  ((⟨m.num ^ 512, m.den ^ 512⟩ : Mag).scale 1).log2 / 2

/-! ## The random bits (R70) -/

def rotl32 (v n : Nat) : Nat := (v <<< n ||| v >>> (32 - n)) % 2 ^ 32

/-- R70: one round of the permutation. -/
def genRound (k a b i : Nat) : Nat × Nat :=
  let kk := k ^^^ (0x9E3779B9 * (i + 1) % 2 ^ 32)
  let t := (rotl32 b 7 + (b ^^^ kk)) % 2 ^ 32
  (b, a ^^^ (t ^^^ rotl32 t 13))

/-- R70: the generator's 64 output bits for a counter, under the key (k0, k1, k2, k3). -/
def genPerm (k0 k1 k2 k3 : Nat) (c : Nat) : Nat :=
  let key (i : Nat) : Nat := match i % 4 with | 0 => k0 | 1 => k1 | 2 => k2 | _ => k3
  let (a, b) := (List.range 16).foldl (fun (p : Nat × Nat) i => genRound (key i) p.1 p.2 i)
    (c / 2 ^ 32 % 2 ^ 32, c % 2 ^ 32)
  a * 2 ^ 32 + b

/-- R69, R72: the 16-bit slice of the k-th element that a lane converts in a window starting at `base`. -/
def genSlice (seed stream die unit lane base k : Nat) : Nat :=
  let o := genPerm (seed % 2 ^ 32) (seed / 2 ^ 32 % 2 ^ 32) (stream % 65536 ||| die <<< 16 ||| unit <<< 24)
    (0x3C6EF300 ||| lane) ((base + k / 4) % 2 ^ 64)
  o / 2 ^ (16 * (k % 4)) % 65536

/-! ## Correctly rounded functions (R198)

Each function is computed in fixed point with `P` fraction bits, to within `2^20` units; the result stands when the
two ends of that interval round to one FP32 code, and otherwise the precision doubles. -/

/-- A rational to fixed point, rounded down. -/
def toFix (P : Nat) (neg : Bool) (m : Mag) : Int :=
  let v : Int := (m.num * 2 ^ P / m.den : Nat)
  if neg then -v else v

/-- The sum of `x^k / k!` in fixed point. -/
def fixExpSeries (P : Nat) (x : Int) : Nat → Nat → Int → Int → Int
  | 0, _, _, s => s
  | n + 1, k, t, s =>
    let t' := t * x / (2 ^ P : Nat) / (k + 1 : Nat)
    fixExpSeries P x n (k + 1) t' (s + t')

/-- `2 * atanh y`, the logarithm of `(1 + y) / (1 - y)`, in fixed point. -/
def fixAtanh2 (P : Nat) (y : Int) : Int :=
  let y2 := y * y / (2 ^ P : Nat)
  let r := (List.range (P / 2 + 8)).foldl
    (fun (p : Int × Int) k => (p.1 * y2 / (2 ^ P : Nat), p.2 + p.1 / (2 * k + 1 : Nat))) (y, 0)
  2 * r.2

/-- `ln 2` in fixed point. -/
def fixLn2 (P : Nat) : Int := fixAtanh2 P ((2 ^ P : Nat) / 3 : Nat)

/-- `e^x` of a fixed-point `x`, in fixed point. Log 146 (UNVERIFIED). -/
def fixExp (P : Nat) (x : Int) : Int :=
  let l := fixLn2 P
  let k := x / l
  let r := x - k * l
  let v := fixExpSeries P r (P + 16) 0 (2 ^ P : Nat) (2 ^ P : Nat)
  if 0 ≤ k then v * (2 ^ k.toNat : Nat) else v / (2 ^ (-k).toNat : Nat)

/-- `ln` of a positive magnitude, in fixed point. Log 146 (UNVERIFIED). -/
def fixLn (P : Nat) (m : Mag) : Int :=
  let e := m.log2
  let f := m.scale (-e)
  let y := toFix P false ((f.sub (Mag.ofNat 1)).div (f.add (Mag.ofNat 1)))
  e * fixLn2 P + fixAtanh2 P y

/-- `atan (1/n)` in fixed point. -/
def fixAtanInv (P n : Nat) : Int :=
  let t0 : Int := (2 ^ P / n : Nat)
  let r := (List.range (P / 2 + 8)).foldl
    (fun (p : Int × Int) k => (p.1 / (n * n : Nat), if k % 2 = 0 then p.2 + p.1 / (2 * k + 1 : Nat) else p.2 - p.1 / (2 * k + 1 : Nat)))
    (t0, 0)
  r.2

/-- The square root of a natural number, rounded down, by halving the interval bit by bit. -/
def isqrt (n : Nat) : Nat := searchBelow (fun r => decide (r * r ≤ n)) (Nat.log2 n / 2 + 2) 0

/-- The error function of `a / √2` for a magnitude `a < 16`, in fixed point. The series reaches 2^186 times the factor e^(-a²/2)
that scales it, so it is formed with 400 more bits than are kept. Log 146 (UNVERIFIED). -/
def fixErfScaled (P' : Nat) (a : Mag) : Int :=
  let P := P' + 400
  let one : Int := (2 ^ P : Nat)
  let x := toFix P false a
  let z := toFix P false (a.mul a)
  let s := (List.range (P + 1024)).foldl
    (fun (p : Int × Int) n => (p.1 * z / one / (2 * n + 3 : Nat), p.2 + p.1)) (one, 0)
  let pi := 16 * fixAtanInv P 5 - 4 * fixAtanInv P 239
  let c : Int := isqrt ((2 * one * one * one / pi).toNat)
  c * x / one * fixExp P (-z / 2) / one * s.2 / one / (2 ^ 400 : Nat)

/-- A fixed-point value as a signed magnitude. -/
def ofFix (P : Nat) (v : Int) : Val := .fin (decide (v < 0)) ⟨v.natAbs, 2 ^ P⟩

/-- Round a fixed-point approximation once, doubling the precision until both ends of its error interval agree. Log 146 (UNVERIFIED). -/
def zivRound (f : Nat → Int) : Nat → Nat → Nat
  | 0, P => fp32Round (ofFix P (f P))
  | n + 1, P =>
    let v := f P
    let e : Int := (2 ^ 20 : Nat)
    let a := fp32Round (ofFix P (v - e))
    let b := fp32Round (ofFix P (v + e))
    if a = b then a else zivRound f n (2 * P)

/-- The functions of Table 7-5 that are not rational. -/
inductive RealFn where
  | exp | exp2 | ln | log2 | tanh | sigm | gelu | silu
deriving DecidableEq, Repr

/-- The fixed-point value of a function at a finite nonzero argument that is not one of its exact points. Log 146 (UNVERIFIED). -/
def RealFn.fix (g : RealFn) (neg : Bool) (m : Mag) (P : Nat) : Int :=
  let one : Int := (2 ^ P : Nat)
  let x := toFix P neg m
  let sg (v : Int) : Int := if neg then -v else v
  -- 1 / (1 + e^-|x|), and its complement
  let em := fixExp P (-(toFix P false m))
  let hi := one * one / (one + em)
  let lo := em * one / (one + em)
  match g with
  | .exp => fixExp P x
  | .exp2 => fixExp P (x * fixLn2 P / one)
  | .ln => fixLn P m
  | .log2 => fixLn P m * one / fixLn2 P
  | .tanh => let e2 := fixExp P (-2 * (toFix P false m)); sg ((one - e2) * one / (one + e2))
  | .sigm => if neg then lo else hi
  | .silu => x * (if neg then lo else hi) / one
  | .gelu => x * (one + sg (fixErfScaled P m)) / (2 * one)

/-- R198: a function of Table 7-5 at an FP32 argument, correctly rounded, with the limits the rule names. Log 146 (UNVERIFIED). -/
def RealFn.eval (g : RealFn) (a : Val) : Nat :=
  let one : Mag := Mag.ofNat 1
  match g, a with
  | _, .nan => 0x7FC00000
  | .exp, .inf n | .exp2, .inf n => if n then 0 else 0x7F800000
  | .ln, .inf n | .log2, .inf n => if n then 0x7FC00000 else 0x7F800000
  | .tanh, .inf n => if n then 0xBF800000 else 0x3F800000
  | .sigm, .inf n => if n then 0 else 0x3F800000
  | .gelu, .inf n | .silu, .inf n => if n then 0x80000000 else 0x7F800000
  | g, .fin neg m =>
    if m.isZero then
      match g with
      | .exp | .exp2 => 0x3F800000
      | .ln | .log2 => 0xFF800000
      | .sigm => 0x3F000000
      | _ => if neg then 0x80000000 else 0
    else match g with
      | .ln => if neg then 0x7FC00000 else if m.eq one then 0 else zivRound (RealFn.fix .ln neg m) 3 320
      | .log2 =>
        if neg then 0x7FC00000
        else if m.eq (Mag.dyadic 1 m.log2) then fp32Round (Val.ofInt m.log2)
        else zivRound (RealFn.fix .log2 neg m) 3 320
      | .exp2 =>
        if (Mag.ofNat 256).le m then (if neg then 0 else 0x7F800000)
        else if m.num % m.den = 0 then
          let k : Int := (m.num / m.den : Nat)
          fp32Round (.fin false (Mag.dyadic 1 (if neg then -k else k)))
        else zivRound (RealFn.fix .exp2 neg m) 3 320
      | .exp => if (Mag.ofNat 128).le m then (if neg then 0 else 0x7F800000) else zivRound (RealFn.fix .exp neg m) 3 320
      | .tanh =>
        if (Mag.ofNat 64).le m then (if neg then 0xBF800000 else 0x3F800000)
        else zivRound (RealFn.fix .tanh neg m) 3 320
      | .sigm => if (Mag.ofNat 128).le m then (if neg then 0 else 0x3F800000) else zivRound (RealFn.fix .sigm neg m) 3 320
      | .gelu =>
        if (Mag.ofNat 16).le m then (if neg then 0x80000000 else fp32Round (.fin neg m))
        else zivRound (RealFn.fix .gelu neg m) 3 320
      | .silu =>
        if (Mag.ofNat 160).le m then (if neg then 0x80000000 else fp32Round (.fin neg m))
        else zivRound (RealFn.fix .silu neg m) 3 320

/-- A square root rounded once: `√m` with a sticky bit below the bits any rounding looks at. -/
def sqrtMag (m : Mag) : Mag :=
  if m.isZero then m else
  -- √(num/den) = √(num * den) / den, at 2^64 times more precision than the code keeps
  let k := 2 ^ 200
  let v := m.num * m.den * k * k
  let r := isqrt v
  if r * r = v then ⟨r, m.den * k⟩ else ⟨2 * r + 1, 2 * m.den * k⟩

end Sys2Proof.Machine
end

