-- ==== Sys2Proof/Config.lean ====
section
/-! DEFINITION. What the model leaves free: values the spec leaves open, and the functions of published standards that the
spec names without giving (SHA-2, HMAC, HKDF, ECDSA, LMS, the PUF's fuzzy extractor). No opaque constant has a body; the standards' outputs have the lengths the standards give them. -/

namespace Sys2Proof

/-- A fresh open value: applied to the state's counter `free`, which every use advances. Log 7 (DESIGN CHOICE). -/
opaque Config.freeValue : Nat → Nat
/-- What each operand-dependent open value is: a case number and the operands it depends on. Log 7 (DESIGN CHOICE). -/
opaque Config.openValue : Nat → List Nat → Nat

/-- The octets of a value of a published standard, most significant first. -/
def Config.octets (n v : Nat) : List Nat := ((List.range n).map fun i => v / 256 ^ i % 256).reverse

/-- The 32 bytes of a layer's plan entry (Table 6-4) at the first step of a job: `LESSON_ID` and layer. The spec says what the
entries hold and not where Mersene takes their first contents from. -/
opaque Config.initialPlanBits : Nat → Nat → BitVec 256
/-- `initialPlanBits`, as bytes. Log 114 (DESIGN CHOICE). -/
def Config.initialPlan (id layer : Nat) : List Nat := Config.octets 32 (Config.initialPlanBits id layer).toNat

/-- The counts by which a die's event stamp counter has advanced between two looks at it (R467). Log 8 (DEDUCED). -/
opaque Config.stampAdvance : Nat → Nat

/-- SHA-384 (FIPS 180-4) of a byte string, as its 48 bytes. -/
opaque Config.sha384Bits : List Nat → BitVec 384
/-- `sha384Bits`, as bytes. Log 9 (UNVERIFIED). -/
def Config.sha384 (b : List Nat) : List Nat := Config.octets 48 (Config.sha384Bits b).toNat
/-- HMAC-SHA-256 of a byte string under a key, as its 32 bytes. -/
opaque Config.hmac256Bits : List Nat → List Nat → BitVec 256
/-- `hmac256Bits`, as bytes. Log 9 (UNVERIFIED). -/
def Config.hmac256 (k b : List Nat) : List Nat := Config.octets 32 (Config.hmac256Bits k b).toNat
/-- HKDF-SHA-384 (RFC 5869) of the root secret with 48 zero bytes of salt: label bytes and output length (R440). -/
opaque Config.hkdfBits : List Nat → List Nat → (n : Nat) → BitVec (8 * n)
/-- `hkdfBits`, as bytes. Log 9 (UNVERIFIED). -/
def Config.hkdf (root info : List Nat) (n : Nat) : List Nat := Config.octets n (Config.hkdfBits root info n).toNat
/-- The fuzzy extractor: the start-up pattern and the helper data give the root secret (R438). -/
opaque Config.fuzzyBits : Nat → List Nat → BitVec 256
/-- `fuzzyBits`, as bytes. Log 9 (UNVERIFIED). -/
def Config.fuzzy (p : Nat) (h : List Nat) : List Nat := Config.octets 32 (Config.fuzzyBits p h).toNat
/-- The public key, as its 97-byte point, of a P-384 private key. -/
opaque Config.p384PublicBits : List Nat → BitVec 776
/-- `p384PublicBits`, as bytes. Log 9 (UNVERIFIED). -/
def Config.p384Public (b : List Nat) : List Nat := Config.octets 97 (Config.p384PublicBits b).toNat
/-- The root T[1] of the LMS tree of a seed and identifier (RFC 8554). -/
opaque Config.lmsRootBits : List Nat → BitVec 256
/-- `lmsRootBits`, as bytes. Log 9 (UNVERIFIED). -/
def Config.lmsRoot (k : List Nat) : List Nat := Config.octets 32 (Config.lmsRootBits k).toNat
/-- The 56-byte LMS public key of a key of Table 16-1, SEED and I (R443, R444): type, LM-OTS type, I, root. -/
def Config.lmsPublic (k : List Nat) : List Nat :=
  Config.octets 4 8 ++ Config.octets 4 3 ++ (k.drop 32).take 16 ++ Config.lmsRoot k
/-- ECDSA P-384: does the signature of these bytes verify under this key? (public key, message, signature) -/
opaque Config.ecdsaVerify : List Nat → List Nat → List Nat → Bool
/-- LMS: does the signature of these bytes verify under this key? -/
opaque Config.lmsVerify : List Nat → List Nat → List Nat → Bool
/-- An ECDSA P-384 signature: private key, message. -/
opaque Config.ecdsaSignBits : List Nat → List Nat → BitVec 768
/-- `ecdsaSignBits`, as bytes. Log 9 (UNVERIFIED). -/
def Config.ecdsaSign (k b : List Nat) : List Nat := Config.octets 96 (Config.ecdsaSignBits k b).toNat
/-- The 67 chain values of an LM-OTS signature: seed and identifier, leaf, randomiser, message (RFC 8554). -/
opaque Config.otsChainsBits : List Nat → Nat → List Nat → List Nat → BitVec 17152
/-- `otsChainsBits`, as bytes. Log 9 (UNVERIFIED). -/
def Config.otsChains (k : List Nat) (leaf : Nat) (r b : List Nat) : List Nat := Config.octets 2144 (Config.otsChainsBits k leaf r b).toNat
/-- The 20 path nodes of a leaf: seed and identifier, leaf (RFC 8554). -/
opaque Config.lmsPathBits : List Nat → Nat → BitVec 5120
/-- `lmsPathBits`, as bytes. Log 9 (UNVERIFIED). -/
def Config.lmsPath (k : List Nat) (leaf : Nat) : List Nat := Config.octets 640 (Config.lmsPathBits k leaf).toNat
/-- R453: the LM-OTS randomiser C: HMAC-SHA-256 under SEED over the leaf index and M. Log 206 (DEDUCED). -/
def Config.lmsRandomiser (k : List Nat) (leaf : Nat) (b : List Nat) : List Nat := Config.hmac256 (k.take 32) (Config.octets 4 leaf ++ b)
/-- The 2,828-byte LMS signature of Table 16-2: q, LM-OTS type, C, chain values, type, path. -/
def Config.lmsSign (k : List Nat) (leaf : Nat) (b : List Nat) : List Nat :=
  let r := Config.lmsRandomiser k leaf b
  Config.octets 4 leaf ++ Config.octets 4 3 ++ r ++ Config.otsChains k leaf r b ++ Config.octets 4 8 ++ Config.lmsPath k leaf
/-- The DevID public key that an X.509 certificate carries. -/
opaque Config.certKeyBits : List Nat → BitVec 776
/-- `certKeyBits`, as bytes. Log 9 (UNVERIFIED). -/
def Config.certKey (b : List Nat) : List Nat := Config.octets 97 (Config.certKeyBits b).toNat
/-- The root key hashes in mask ROM: slot 0..3, 48 bytes (R446). -/
opaque Config.rootKeyHashBits : Nat → BitVec 384
/-- `rootKeyHashBits`, as bytes. Log 9 (UNVERIFIED). -/
def Config.rootKeyHash (slot : Nat) : List Nat := Config.octets 48 (Config.rootKeyHashBits slot).toNat
/-- The body of an SPDM response that SPDM 1.3 fixes beyond what the spec states: request code, the request's bytes, and a
count that makes repeated answers differ. Log 31 (UNVERIFIED). -/
opaque Config.spdmBody : Nat → List Nat → Nat → List Byte
/-- The certificates between the DevID certificate and Cyniov's identity authority, with the root hash before them: the head of
slot 0's chain, by the DevID certificate. Log 31 (UNVERIFIED). -/
opaque Config.issuerChain : List Nat → List Byte
/-- Does SPDM 1.3 accept this request at this point (length, transcript, state of the connection)? Log 31 (UNVERIFIED). -/
opaque Config.spdmAccepts : Nat → List Nat → Bool
/-- A configuration space register the spec leaves to PCIe and CXL: offset and what was last written there. -/
opaque Config.pcieConfigBits : Nat → Nat → BitVec 32
/-- `pcieConfigBits`, as a number. Log 39 (DEDUCED). -/
def Config.pcieConfig (off v : Nat) : Nat := (Config.pcieConfigBits off v).toNat

end Sys2Proof
end

