-- ==== Sys2Proof/Machine/Bytes.lean ====
section
/-! DEFINITION. Bytes of messages, records and buffers, as numbers 0..255: little-endian fields (R4) and CRC-32C. -/

namespace Sys2Proof.Machine

/-- The `n` bytes of a value, byte 0 first (R4). -/
def le : Nat → Nat → List Nat
  | 0, _ => []
  | n + 1, v => v % 256 :: le n (v / 256)

/-- The value of bytes, byte 0 first (R4). -/
def unle : List Nat → Nat
  | [] => 0
  | b :: t => b % 256 + 256 * unle t

/-- The `n` bytes of a value, most significant first. -/
def be (n v : Nat) : List Nat := (le n v).reverse

/-- The little-endian field of `n` bytes at byte `off`; bytes past the end read 0. -/
def fieldAt (l : List Nat) (off n : Nat) : Nat := unle ((l.drop off).take n)

/-- Exactly `n` bytes from `off`, padded with 0. -/
def bytesAt (l : List Nat) (off n : Nat) : List Nat :=
  let s := (l.drop off).take n
  s ++ List.replicate (n - s.length) 0

/-- Exactly `n` bytes: the list, cut or padded with 0. -/
def padTo (n : Nat) (l : List Nat) : List Nat := bytesAt l 0 n

/-- Bits `lo` to `lo + n - 1` of a value. -/
def bitsOf (v lo n : Nat) : Nat := v / 2 ^ lo % 2 ^ n

/-- Is bit `k` of a value 1? -/
def bit (v k : Nat) : Bool := v / 2 ^ k % 2 == 1

/-- 1 for true. -/
def b2n (b : Bool) : Nat := if b then 1 else 0

/-- Set or clear bit `k`. -/
def setBit (v k : Nat) (b : Bool) : Nat := if bit v k = b then v else if b then v + 2 ^ k else v - 2 ^ k

/-- The value of an `n`-bit two's complement code. -/
def sext (n v : Nat) : Int := if bit v (n - 1) then (v % 2 ^ n : Nat) - (2 ^ n : Nat) else (v % 2 ^ n : Nat)

/-- The `n`-bit two's complement code of a value. -/
def tcode (n : Nat) (v : Int) : Nat := (v % (2 ^ n : Nat)).toNat

/-- The 32-bit words of bytes. -/
def words : Nat → List Nat → List Nat
  | 0, _ => []
  | n + 1, l => unle (l.take 4) :: words n (l.drop 4)

/-- The bytes of 32-bit words. -/
def unwords : List Nat → List Nat
  | [] => []
  | w :: t => le 4 w ++ unwords t

/-- One bit of the reflected CRC-32C (polynomial 0x1EDC6F41). -/
def crcStep (c : Nat) : Nat := if c % 2 = 1 then (c / 2) ^^^ 0x82F63B78 else c / 2

/-- One byte of it. -/
def crcByte (c b : Nat) : Nat :=
  crcStep (crcStep (crcStep (crcStep (crcStep (crcStep (crcStep (crcStep (c ^^^ (b % 256)))))))))

/-- CRC-32C of a byte string: initial value and final complement all ones. -/
def crc32c (l : List Nat) : Nat := (l.foldl crcByte 0xFFFFFFFF) ^^^ 0xFFFFFFFF

/-- Round up to a multiple of 64. -/
def up64 (n : Nat) : Nat := (n + 63) / 64 * 64

/-- Replace bytes at an offset of a list long enough to hold them. -/
def putAt (l : List Nat) (off : Nat) (b : List Nat) : List Nat := l.take off ++ b ++ l.drop (off + b.length)

end Sys2Proof.Machine
end

