-- ==== Sys2Proof/Machine/Cells.lean ====
section
/-! DEFINITION. Byte-addressed storage as a list of cells in one canonical form: addresses strictly rising, and no cell that
holds what an unlisted address reads as (the argument `d`). Bytes cross this interface as numbers 0..255. -/

namespace Sys2Proof.Machine

/-- A byte of storage. -/
def Cells.get (d : Byte) : List Host.Cell → Nat → Byte
  | [], _ => d
  | (a', v) :: t, a => if a' = a then v else if a < a' then d else Cells.get d t a

/-- Write a byte, keeping the canonical form. -/
def Cells.set (d : Byte) : List Host.Cell → Nat → Byte → List Host.Cell
  | [], a, v => if v = d then [] else [(a, v)]
  | (a', v') :: t, a, v =>
    if a' < a then (a', v') :: Cells.set d t a v
    else if a' = a then (if v = d then t else (a, v) :: t)
    else if v = d then (a', v') :: t else (a, v) :: (a', v') :: t

/-- Every listed address lies above a bound, and no cell holds the unlisted value. -/
def Cells.above (d : Byte) : Option Nat → List Host.Cell → Bool
  | _, [] => true
  | lo, (a, v) :: t => (match lo with | none => true | some b => decide (b < a)) && decide (v ≠ d) && Cells.above d (some a) t

/-- The canonical form. -/
def Cells.wf (d : Byte) (m : List Host.Cell) : Bool := Cells.above d none m

/-- Return every address that satisfies `p` to the unlisted value. -/
def Cells.clear (p : Nat → Bool) : List Host.Cell → List Host.Cell
  | [] => []
  | (a, v) :: t => if p a then Cells.clear p t else (a, v) :: Cells.clear p t

/-- Write bytes at rising addresses. -/
def Cells.write (d : Byte) : List Host.Cell → Nat → List Nat → List Host.Cell
  | m, _, [] => m
  | m, a, b :: bs => Cells.write d (Cells.set d m a (BitVec.ofNat 8 b)) (a + 1) bs

/-- `n` bytes from an address. -/
def Cells.read (d : Byte) (m : List Host.Cell) (a : Nat) : Nat → List Nat
  | 0 => []
  | n + 1 => (Cells.get d m a).toNat :: Cells.read d m (a + 1) n

end Sys2Proof.Machine
end

