-- ==== Sys2Proof/Machine/Tab.lean ====
section
/-! DEFINITION. A table from keys to values, as a list of pairs: what is not listed reads as a default. Every array of
like things the spec gives the machine (dies, arrays, queues, links, registers) is such a table whose default is its
reset element. -/

namespace Sys2Proof.Machine

/-- A table: at most one entry a key, in the order of first writing. -/
abbrev Tab (κ α : Type) := List (κ × α)

/-- The value of a key, or the default where the table lists none. -/
def Tab.get {κ α : Type} [DecidableEq κ] (d : α) : Tab κ α → κ → α
  | [], _ => d
  | (k', v) :: t, k => if k' = k then v else Tab.get d t k

/-- Write the value of a key: in place where it is listed, else at the end. -/
def Tab.set {κ α : Type} [DecidableEq κ] : Tab κ α → κ → α → Tab κ α
  | [], k, v => [(k, v)]
  | (k', v') :: t, k, v => if k' = k then (k, v) :: t else (k', v') :: Tab.set t k v

/-- Change the value of a key by a function. -/
def Tab.upd {κ α : Type} [DecidableEq κ] (d : α) (t : Tab κ α) (k : κ) (f : α → α) : Tab κ α :=
  t.set k (f (t.get d k))

/-- Forget a key. -/
def Tab.del {κ α : Type} [DecidableEq κ] : Tab κ α → κ → Tab κ α
  | [], _ => []
  | (k', v') :: t, k => if k' = k then Tab.del t k else (k', v') :: Tab.del t k

/-- Is the key listed? -/
def Tab.has {κ α : Type} [DecidableEq κ] (t : Tab κ α) (k : κ) : Bool := t.any (fun p => decide (p.1 = k))

/-- Change element `i` of a list, where there is one. -/
def updAt {α : Type} : List α → Nat → (α → α) → List α
  | [], _, _ => []
  | x :: t, 0, f => f x :: t
  | x :: t, n + 1, f => x :: updAt t n f

end Sys2Proof.Machine
end

