-- ==== Sys2Proof/Machine/Fields.lean ====
section
/-! DEFINITION. Every register field the spec's tables give, one definition each: its block, its offset, its bits, its
access type and its reset value, as its row has them. A counter that a table splits into a `_LO` and a `_HI` word is one
field here, wider than 32 bits. -/

namespace Sys2Proof.Machine

/-- The register blocks, each with what numbers its instances. -/
inductive Blk where
  /-- The generator and capture block of CDn (Table 3-6), instance n. -/
  | gen
  /-- The status block of CDn.MAxx (Tables 4-11, 5-13), instance 96 n + xx. -/
  | ma
  /-- The Lantern block of CDn (Table 6-2), instance n. -/
  | ln
  /-- The status block of CDn.VUx (Table 7-10), instance 16 n + x. -/
  | vu
  /-- The routing block of CDn (Table 8-9), instance n. -/
  | rt
  /-- The queue block of CDn (Table 9-14), instance n. -/
  | que
  /-- The check block of CDn (Table 10-14), instance n. -/
  | chk
  /-- The near-memory block of CDn (Table 11-8), instance n. -/
  | nm
  /-- The channel block of FCxx (Table 11-9), instance xx. -/
  | fc
  /-- The far layout block of HB (Table 11-10). -/
  | fl
  /-- The link block of Lxx (Table 12-13), instance xx. -/
  | lk
  /-- The link set block of HB (Table 12-14). -/
  | ls
  /-- The generation block of HB (Table 13-12). -/
  | sg
  /-- The status block of HD (Table 14-5). -/
  | st
  /-- The mailbox channel MBxx (Table 14-7), instance xx. -/
  | mb
  /-- The doorbell block (Table 14-10). -/
  | db
  /-- The event ring block (Table 14-12). -/
  | ev
  /-- The sideband block (Table 14-14). -/
  | sb
  /-- The unit counter bank of CDn unit u (Table 17-3), instance 256 n + u. -/
  | uc
  /-- The breakpoint block of CDn.CCx (Table 17-8), instance 4 n + x. -/
  | bp
  /-- The trace block of HD (Table 17-10). -/
  | tr
  /-- The power block of HD (Table 18-9). -/
  | pm
  /-- The ageing block of a die (Table 18-10), instance the die index. -/
  | ag
deriving DecidableEq, Repr

/-- Table 0-4: the access types. -/
inductive Access where
  | ro | rw | w1c | wo
deriving DecidableEq, Repr

/-- One register field: its block; the byte offset of its word (of element 0 where the table repeats it) and the stride
of the repetition; its lowest bit and width; its access type; its reset value (R8). -/
structure Fld where
  blk : Blk
  off : Nat
  stride : Nat
  lo : Nat
  width : Nat
  acc : Access
  rst : Nat
deriving DecidableEq, Repr

/-- Where one field of one block instance is stored. -/
structure RKey where
  blk : Blk
  inst : Nat
  off : Nat
  lo : Nat
deriving DecidableEq, Repr

namespace Fld

/-- Table 3-6, R79. Job seed [31:0]. -/
def gen_GEN_SEED_SEED_LO : Fld := ⟨.gen, 0x0, 0x0, 0, 64, .ro, 0x0⟩
/-- Table 3-6, R79. 1 once a job seed has been loaded. -/
def gen_GEN_STATUS_SEEDED : Fld := ⟨.gen, 0x8, 0x0, 0, 1, .ro, 0x0⟩
/-- Table 3-6, R79. STREAM_SHARED events; saturates at 0xFFFF_FFFF. -/
def gen_SHARED_CNT : Fld := ⟨.gen, 0x10, 0x0, 0, 32, .ro, 0x0⟩
/-- Table 3-6, R79. GEN_WRAP events; saturates at 0xFFFF_FFFF. -/
def gen_WRAP_CNT : Fld := ⟨.gen, 0x14, 0x0, 0, 32, .ro, 0x0⟩
/-- Table 3-6, R79. Stream id of the latest STREAM_SHARED. -/
def gen_LAST_SHARED_SID : Fld := ⟨.gen, 0x18, 0x0, 0, 16, .ro, 0x0⟩
/-- Table 3-6, R79. Tensor that raised it. -/
def gen_LAST_SHARED_TENSOR : Fld := ⟨.gen, 0x18, 0x0, 16, 16, .ro, 0x0⟩
/-- Table 3-6, R79. Writing clears slot `SLOT` to +0. -/
def gen_AMAX_CLR_SLOT : Fld := ⟨.gen, 0x20, 0x0, 0, 6, .wo, 0x0⟩
/-- Table 3-6, R79. Capture slot n, FP32, R62. -/
def gen_AMAXnn_VALUE : Fld := ⟨.gen, 0x100, 0x4, 0, 32, .ro, 0x0⟩
/-- Table 4-11, R119. Logical row served by spare row 0. -/
def ma_MA_REPAIR_SPARE0_ROW : Fld := ⟨.ma, 0x0, 0x0, 0, 7, .ro, 0x0⟩
/-- Table 4-11, R119. 1: spare row 0 in use. -/
def ma_MA_REPAIR_SPARE0_EN : Fld := ⟨.ma, 0x0, 0x0, 7, 1, .ro, 0x0⟩
/-- Table 4-11, R119. Logical row served by spare row 1. -/
def ma_MA_REPAIR_SPARE1_ROW : Fld := ⟨.ma, 0x0, 0x0, 8, 7, .ro, 0x0⟩
/-- Table 4-11, R119. 1: spare row 1 in use. -/
def ma_MA_REPAIR_SPARE1_EN : Fld := ⟨.ma, 0x0, 0x0, 15, 1, .ro, 0x0⟩
/-- Table 4-11, R119. 1: array retired, R117. -/
def ma_MA_REPAIR_RETIRED : Fld := ⟨.ma, 0x0, 0x0, 16, 1, .ro, 0x0⟩
/-- Table 4-11, R119. Beat lengthening, units of 0.1 %, at most 0x1E. -/
def ma_MA_BEAT_STRETCH : Fld := ⟨.ma, 0x4, 0x0, 0, 8, .ro, 0x0⟩
/-- Table 4-11, R119. 1: a pass is running. -/
def ma_MA_STATE_BUSY : Fld := ⟨.ma, 0x8, 0x0, 0, 1, .ro, 0x0⟩
/-- Table 4-11, R119. 1: the bank holds unread sums. -/
def ma_MA_STATE_ACC_HELD : Fld := ⟨.ma, 0x8, 0x0, 1, 1, .ro, 0x0⟩
/-- Table 4-11, R119. 0b00 none; 0b01 fixed; 0b10 extended float; 0b11 log. -/
def ma_MA_STATE_ACC_KIND : Fld := ⟨.ma, 0x8, 0x0, 2, 2, .ro, 0x0⟩
/-- Table 4-11, R119. `XBASE` of the held frame. -/
def ma_MA_STATE_FRAME_XBASE : Fld := ⟨.ma, 0x8, 0x0, 4, 8, .ro, 0x0⟩
/-- Table 4-11, R119. Broadcast format of the held frame. -/
def ma_MA_STATE_FRAME_FMT_A : Fld := ⟨.ma, 0x8, 0x0, 12, 6, .ro, 0x0⟩
/-- Table 4-11, R119. Stationary format of the held frame. -/
def ma_MA_STATE_FRAME_FMT_B : Fld := ⟨.ma, 0x8, 0x0, 18, 6, .ro, 0x0⟩
/-- Table 4-11, R119. `OP` of the held frame. -/
def ma_MA_STATE_FRAME_OP : Fld := ⟨.ma, 0x8, 0x0, 24, 3, .ro, 0x0⟩
/-- Table 4-11, R119. `SIDE_EN` of the held frame. -/
def ma_MA_STATE_FRAME_SIDE : Fld := ⟨.ma, 0x8, 0x0, 27, 1, .ro, 0x0⟩
/-- Table 4-11, R119. XOVF events; saturates at 0xFFFF_FFFF. -/
def ma_XOVF_CNT_COUNT : Fld := ⟨.ma, 0x10, 0x0, 0, 32, .ro, 0x0⟩
/-- Table 4-11, R119. XUNF events; saturates. -/
def ma_XUNF_CNT_COUNT : Fld := ⟨.ma, 0x14, 0x0, 0, 32, .ro, 0x0⟩
/-- Table 4-11, R119. ACC_SAT events; saturates. -/
def ma_ACC_SAT_CNT_COUNT : Fld := ⟨.ma, 0x18, 0x0, 0, 32, .ro, 0x0⟩
/-- Table 4-11, R119. ACC_FRAME events; saturates. -/
def ma_ACC_FRAME_CNT_COUNT : Fld := ⟨.ma, 0x1C, 0x0, 0, 32, .ro, 0x0⟩
/-- Table 4-11, R119. Completed beats [31:0]. -/
def ma_BEAT_BEATS : Fld := ⟨.ma, 0x20, 0x0, 0, 64, .ro, 0x0⟩
/-- Table 4-11, R119. Lane-beats saved by skipping zero bits [31:0]. -/
def ma_ZSKIP_SKIPPED : Fld := ⟨.ma, 0x28, 0x0, 0, 64, .ro, 0x0⟩
/-- Table 5-13, R152. SUMP events; saturates at 0xFFFF_FFFF. -/
def ma_SUMP_CNT_COUNT : Fld := ⟨.ma, 0x30, 0x0, 0, 32, .ro, 0x0⟩
/-- Table 5-13, R152. META_INVALID events; saturates. -/
def ma_META_INV_CNT_COUNT : Fld := ⟨.ma, 0x34, 0x0, 0, 32, .ro, 0x0⟩
/-- Table 5-13, R152. OUTLIER_INVALID events; saturates. -/
def ma_SIDE_INV_CNT_COUNT : Fld := ⟨.ma, 0x38, 0x0, 0, 32, .ro, 0x0⟩
/-- Table 5-13, R152. Passes skipped under R144 [31:0]. -/
def ma_SKIP_PASSES : Fld := ⟨.ma, 0x40, 0x0, 0, 64, .ro, 0x0⟩
/-- Table 6-2, R161. 1: merges accepted; 0: every merge is dropped without count. Mersene writes 1 when it loads a Lesson on the die (R239) and 0 at JOB_END (R429); a restore leaves it unchanged; a control core may write it at any time. -/
def ln_LN_CTRL_ENABLE : Fld := ⟨.ln, 0x0, 0x0, 0, 1, .rw, 0x0⟩
/-- Table 6-2, R161. 1: commit, R158. -/
def ln_LN_CTRL_COMMIT : Fld := ⟨.ln, 0x0, 0x0, 1, 1, .wo, 0x0⟩
/-- Table 6-2, R161. 1: discard, R158. -/
def ln_LN_CTRL_DISCARD : Fld := ⟨.ln, 0x0, 0x0, 2, 1, .wo, 0x0⟩
/-- Table 6-2, R161. 1: a commit or discard awaits earlier merges. -/
def ln_LN_STATUS_FENCE : Fld := ⟨.ln, 0x4, 0x0, 0, 1, .ro, 0x0⟩
/-- Table 6-2, R161. 1: a provisional counter has saturated since the last commit or discard. -/
def ln_LN_STATUS_CNT_SAT : Fld := ⟨.ln, 0x4, 0x0, 1, 1, .ro, 0x0⟩
/-- Table 6-2, R161. Layers in use, 0..2,048; a write above 0x800 stores 0x800. -/
def ln_LN_LAYERS_COUNT : Fld := ⟨.ln, 0x8, 0x0, 0, 12, .rw, 0x0⟩
/-- Table 6-2, R161. d of R159. -/
def ln_LN_DECAY_SHIFT : Fld := ⟨.ln, 0xC, 0x0, 0, 4, .rw, 0x4⟩
/-- Table 6-2, R161. n of R176; a write below 4 stores 4, above 16 stores 16. -/
def ln_LN_AGREE_SHIFT : Fld := ⟨.ln, 0x10, 0x0, 0, 5, .rw, 0x8⟩
/-- Table 6-2, R161. Commits taken effect; saturates. -/
def ln_LN_COMMITS_COUNT : Fld := ⟨.ln, 0x14, 0x0, 0, 32, .ro, 0x0⟩
/-- Table 6-2, R161. Discards taken effect; saturates. -/
def ln_LN_DISCARDS_COUNT : Fld := ⟨.ln, 0x18, 0x0, 0, 32, .ro, 0x0⟩
/-- Table 6-2, R161. Merges dropped under R154; saturates. -/
def ln_LN_BADLAYER_COUNT : Fld := ⟨.ln, 0x1C, 0x0, 0, 32, .ro, 0x0⟩
/-- Table 7-10, R213. 1: a chain is running. -/
def vu_VU_STATE_BUSY : Fld := ⟨.vu, 0x0, 0x0, 0, 1, .ro, 0x0⟩
/-- Table 7-10, R213. 1: the chain waits on a tile buffer slot, R192. -/
def vu_VU_STATE_TB_WAIT : Fld := ⟨.vu, 0x0, 0x0, 1, 1, .ro, 0x0⟩
/-- Table 7-10, R213. 1: a control-core register write is held, R193. -/
def vu_VU_STATE_VR_HOLD : Fld := ⟨.vu, 0x0, 0x0, 2, 1, .ro, 0x0⟩
/-- Table 7-10, R213. Slots with `FULL` set. -/
def vu_TBn_STATE_FULL_SLOTS : Fld := ⟨.vu, 0x10, 0x4, 0, 10, .ro, 0x0⟩
/-- Table 7-10, R213. Slot count in force. -/
def vu_TBn_STATE_SLOTS : Fld := ⟨.vu, 0x10, 0x4, 10, 10, .ro, 0x0⟩
/-- Table 7-10, R213. Rows flagged EMPTY; saturates at 0xFFFF_FFFF. -/
def vu_EMPTY_CNT_COUNT : Fld := ⟨.vu, 0x20, 0x0, 0, 32, .ro, 0x0⟩
/-- Table 7-10, R213. ROW_MASKED rows; saturates. -/
def vu_ROW_MASKED_CNT_COUNT : Fld := ⟨.vu, 0x24, 0x0, 0, 32, .ro, 0x0⟩
/-- Table 7-10, R213. INF_TIE rows; saturates. -/
def vu_INF_TIE_CNT_COUNT : Fld := ⟨.vu, 0x28, 0x0, 0, 32, .ro, 0x0⟩
/-- Table 7-10, R213. SMX_NAN rows; saturates. -/
def vu_SMX_NAN_CNT_COUNT : Fld := ⟨.vu, 0x2C, 0x0, 0, 32, .ro, 0x0⟩
/-- Table 7-10, R213. Completed steps [31:0]. -/
def vu_STEPS : Fld := ⟨.vu, 0x30, 0x0, 0, 64, .ro, 0x0⟩
/-- Table 7-10, R213. Step periods spent in `TB_WAIT` [31:0]. -/
def vu_TBWAIT_STEPS : Fld := ⟨.vu, 0x38, 0x0, 0, 64, .ro, 0x0⟩
/-- Table 7-10, R213. Vector register word, R193. -/
def vu_Vn_WORD : Fld := ⟨.vu, 0x1000, 0x4, 0, 32, .rw, 0x0⟩
/-- Table 8-9, R237. DROP_CAP events; saturates at 0xFFFF_FFFF. -/
def rt_RT_DROPCAP_CNT_COUNT : Fld := ⟨.rt, 0x0, 0x0, 0, 32, .ro, 0x0⟩
/-- Table 8-9, R237. DROP_LINK events; saturates. -/
def rt_RT_DROPLINK_CNT_COUNT : Fld := ⟨.rt, 0x4, 0x0, 0, 32, .ro, 0x0⟩
/-- Table 8-9, R237. TOKEN_DROPPED events; saturates. -/
def rt_RT_TOKDROP_CNT_COUNT : Fld := ⟨.rt, 0x8, 0x0, 0, 32, .ro, 0x0⟩
/-- Table 8-9, R237. ROUTE_NAN events; saturates. -/
def rt_RT_NAN_CNT_COUNT : Fld := ⟨.rt, 0xC, 0x0, 0, 32, .ro, 0x0⟩
/-- Table 8-9, R237. EXPERT_SKIP events; saturates. -/
def rt_RT_SKIP_CNT_COUNT : Fld := ⟨.rt, 0x10, 0x0, 0, 32, .ro, 0x0⟩
/-- Table 8-9, R237. MAP_INVALID events; saturates. -/
def rt_RT_MAPINV_CNT_COUNT : Fld := ⟨.rt, 0x14, 0x0, 0, 32, .ro, 0x0⟩
/-- Table 8-9, R237. Expired `TIMEOUT` waits; saturates. -/
def rt_RT_TIMEOUT_CNT_COUNT : Fld := ⟨.rt, 0x18, 0x0, 0, 32, .ro, 0x0⟩
/-- Table 9-14, R264. 1: the queue is configured. -/
def que_Q_CTRL_ENABLE : Fld := ⟨.que, 0x0, 0x40, 0, 1, .ro, 0x0⟩
/-- Table 9-14, R264. R258. -/
def que_Q_CTRL_STOP_ON_ERROR : Fld := ⟨.que, 0x0, 0x40, 1, 1, .rw, 0x0⟩
/-- Table 9-14, R264. 1: stopped under R258. -/
def que_Q_CTRL_STOPPED : Fld := ⟨.que, 0x0, 0x40, 2, 1, .ro, 0x0⟩
/-- Table 9-14, R264. 1: resume, R258. -/
def que_Q_CTRL_RESUME : Fld := ⟨.que, 0x0, 0x40, 3, 1, .wo, 0x0⟩
/-- Table 9-14, R264. 1: flush, R258. -/
def que_Q_CTRL_FLUSH : Fld := ⟨.que, 0x0, 0x40, 4, 1, .wo, 0x0⟩
/-- Table 9-14, R264. Owning control core. -/
def que_Q_CTRL_OWNER : Fld := ⟨.que, 0x0, 0x40, 5, 2, .ro, 0x0⟩
/-- Table 9-14, R264. Ring slots. -/
def que_Q_SLOTS : Fld := ⟨.que, 0x4, 0x40, 0, 11, .ro, 0x0⟩
/-- Table 9-14, R264. Next slot the core writes. -/
def que_Q_TAIL : Fld := ⟨.que, 0x8, 0x40, 0, 10, .rw, 0x0⟩
/-- Table 9-14, R264. Next slot fetched. -/
def que_Q_HEAD : Fld := ⟨.que, 0xC, 0x40, 0, 10, .ro, 0x0⟩
/-- Table 9-14, R264. Next record slot written. -/
def que_Q_CTAIL : Fld := ⟨.que, 0x10, 0x40, 0, 10, .ro, 0x0⟩
/-- Table 9-14, R264. Next record slot the core reads. -/
def que_Q_CHEAD : Fld := ⟨.que, 0x14, 0x40, 0, 10, .rw, 0x0⟩
/-- Table 9-14, R264. Descriptors fetched. -/
def que_Q_SEQ : Fld := ⟨.que, 0x18, 0x40, 0, 32, .ro, 0x0⟩
/-- Table 9-14, R264. Records with `ERR` ≠ 0; saturates at 0xFFFF_FFFF. -/
def que_Q_ERR_CNT_COUNT : Fld := ⟨.que, 0x1C, 0x40, 0, 32, .ro, 0x0⟩
/-- Table 9-14, R264. Latest nonzero `ERR`. -/
def que_Q_LASTERR : Fld := ⟨.que, 0x20, 0x40, 0, 8, .ro, 0x0⟩
/-- Table 9-14, R264. Its `SEQ`. -/
def que_Q_LASTERR_SEQ : Fld := ⟨.que, 0x24, 0x40, 0, 32, .ro, 0x0⟩
/-- Table 9-14, R264. Total `HP_WAIT` [31:0]. -/
def que_Q_HPWAIT_US : Fld := ⟨.que, 0x28, 0x40, 0, 64, .ro, 0x0⟩
/-- Table 9-14, R264. Semaphore s. -/
def que_SEMs_COUNT : Fld := ⟨.que, 0x2000, 0x4, 0, 32, .rw, 0x0⟩
/-- Table 9-14, R264. Adds `ADD` under R250. -/
def que_SEM_ADDs : Fld := ⟨.que, 0x2400, 0x4, 0, 32, .wo, 0x0⟩
/-- Table 9-14, R264. Physical array of logical array n. -/
def que_PLACE_MAPn_PHYS : Fld := ⟨.que, 0x3000, 0x4, 0, 7, .ro, 0x0⟩
/-- Table 9-14, R264. 1: mapped, R243. -/
def que_PLACE_MAPn_VALID : Fld := ⟨.que, 0x3000, 0x4, 7, 1, .ro, 0x0⟩
/-- Table 9-14, R264. Units held by this die's descriptors. -/
def que_HP_DIE_HELD : Fld := ⟨.que, 0x3200, 0x0, 0, 16, .ro, 0x0⟩
/-- Table 9-14, R264. Requests of this die awaiting grant. -/
def que_HP_DIE_WAITING : Fld := ⟨.que, 0x3200, 0x0, 16, 16, .ro, 0x0⟩
/-- Table 9-14, R264. SEM_SAT events; saturates. -/
def que_SEM_SAT_CNT_COUNT : Fld := ⟨.que, 0x3204, 0x0, 0, 32, .ro, 0x0⟩
/-- Table 10-14, R290. 0b00 runs; 0b01 check; 0b10 apply; 0b11 boundary. -/
def chk_CHK_STATE_PHASE : Fld := ⟨.chk, 0x0, 0x0, 0, 2, .ro, 0x3⟩
/-- Table 10-14, R290. 1: the verdict of this step has arrived. -/
def chk_CHK_STATE_VERDICT : Fld := ⟨.chk, 0x0, 0x0, 2, 1, .ro, 0x0⟩
/-- Table 10-14, R290. PASS of that verdict. -/
def chk_CHK_STATE_PASS : Fld := ⟨.chk, 0x0, 0x0, 3, 1, .ro, 0x0⟩
/-- Table 10-14, R290. Step counter [31:0], R266. -/
def chk_CHK_STEP : Fld := ⟨.chk, 0x4, 0x0, 0, 64, .ro, 0x0⟩
/-- Table 10-14, R290. R277, R278. -/
def chk_CHK_RUN_NONFINITE_RUN : Fld := ⟨.chk, 0xC, 0x0, 0, 8, .ro, 0x0⟩
/-- Table 10-14, R290. Flags of this die's own contribution. -/
def chk_CHK_LOCAL_FLAGS : Fld := ⟨.chk, 0x10, 0x0, 0, 16, .ro, 0x0⟩
/-- Table 10-14, R290. Flags of the latest verdict. -/
def chk_CHK_VERDICT_FLAGS : Fld := ⟨.chk, 0x14, 0x0, 0, 16, .ro, 0x0⟩
/-- Table 10-14, R290. G of R274, FP32. -/
def chk_CHK_GNORM : Fld := ⟨.chk, 0x18, 0x0, 0, 32, .ro, 0x0⟩
/-- Table 10-14, R290. c of R274, FP32. -/
def chk_CHK_CLIP : Fld := ⟨.chk, 0x1C, 0x0, 0, 32, .ro, 0x0⟩
/-- Table 10-14, R290. Non-finite steps; saturates at 0xFFFF_FFFF. -/
def chk_CHK_NONFIN_CNT_COUNT : Fld := ⟨.chk, 0x20, 0x0, 0, 32, .ro, 0x0⟩
/-- Table 10-14, R290. CHECK_TIMEOUT events; saturates. -/
def chk_CHK_TIMEOUT_CNT_COUNT : Fld := ⟨.chk, 0x24, 0x0, 0, 32, .ro, 0x0⟩
/-- Table 10-14, R290. STEP_MISMATCH events; saturates. -/
def chk_CHK_MISMATCH_CNT_COUNT : Fld := ⟨.chk, 0x28, 0x0, 0, 32, .ro, 0x0⟩
/-- Table 10-14, R290. From the Timetable. -/
def chk_CHK_TABLES_NORM_TENS : Fld := ⟨.chk, 0x2C, 0x0, 0, 16, .ro, 0xFFFF⟩
/-- Table 10-14, R290. From the Timetable. -/
def chk_CHK_TABLES_LOSS_TENS : Fld := ⟨.chk, 0x2C, 0x0, 16, 16, .ro, 0xFFFF⟩
/-- Table 10-14, R290. Bit i: layer 32w + i affected, R277. -/
def chk_CHK_AFFECTw_LAYERS : Fld := ⟨.chk, 0x100, 0x4, 0, 32, .ro, 0x0⟩
/-- Table 11-8, R320. 1: the stack is usable, R316. -/
def nm_NM_STATE_READY : Fld := ⟨.nm, 0x0, 0x0, 0, 1, .ro, 0x0⟩
/-- Table 11-8, R320. 0b00 1×; 0b01 2×; 0b10 4×; 0b11 reserved. -/
def nm_NM_STATE_REFRESH : Fld := ⟨.nm, 0x0, 0x0, 1, 2, .ro, 0x0⟩
/-- Table 11-8, R320. 1: above 105 °C. -/
def nm_NM_STATE_HOT : Fld := ⟨.nm, 0x0, 0x0, 3, 1, .ro, 0x0⟩
/-- Table 11-8, R320. Hottest die, °C. -/
def nm_NM_TEMP : Fld := ⟨.nm, 0x4, 0x0, 0, 8, .ro, 0x0⟩
/-- Table 11-8, R320. NM_CE events; saturates at 0xFFFF_FFFF. -/
def nm_NM_CE_CNT_COUNT : Fld := ⟨.nm, 0x8, 0x0, 0, 32, .ro, 0x0⟩
/-- Table 11-8, R320. NM_UE events; saturates. -/
def nm_NM_UE_CNT_COUNT : Fld := ⟨.nm, 0xC, 0x0, 0, 32, .ro, 0x0⟩
/-- Table 11-8, R320. Poisoned lines delivered from this stack; saturates. -/
def nm_NM_POISON_CNT_COUNT : Fld := ⟨.nm, 0x10, 0x0, 0, 32, .ro, 0x0⟩
/-- Table 11-8, R320. COW_WAIT events of this die; saturates. -/
def nm_NM_COW_CNT_COUNT : Fld := ⟨.nm, 0x14, 0x0, 0, 32, .ro, 0x0⟩
/-- Table 11-8, R320. Address [31:0] of the latest uncorrectable line. -/
def nm_NM_LAST_UE_ADDR : Fld := ⟨.nm, 0x18, 0x0, 0, 52, .ro, 0x0⟩
/-- Table 11-8, R320. Rows repaired at the last power-up or reset. -/
def nm_NM_REPAIR_DONE : Fld := ⟨.nm, 0x20, 0x0, 0, 8, .ro, 0x0⟩
/-- Table 11-8, R320. Rows logged for the next repair. -/
def nm_NM_REPAIR_PENDING : Fld := ⟨.nm, 0x20, 0x0, 8, 8, .ro, 0x0⟩
/-- Table 11-9, R320. 1: event 7 of Table 11-7 reached. -/
def fc_FC_STATE_TRAINED : Fld := ⟨.fc, 0x0, 0x0, 0, 1, .ro, 0x0⟩
/-- Table 11-9, R320. 1: full training ran at the last bring-up. -/
def fc_FC_STATE_FULL_TRAIN : Fld := ⟨.fc, 0x0, 0x0, 1, 1, .ro, 0x0⟩
/-- Table 11-9, R320. As in NM_STATE. -/
def fc_FC_STATE_REFRESH : Fld := ⟨.fc, 0x0, 0x0, 2, 2, .ro, 0x0⟩
/-- Table 11-9, R320. 1: above 95 °C. -/
def fc_FC_STATE_HOT : Fld := ⟨.fc, 0x0, 0x0, 4, 1, .ro, 0x0⟩
/-- Table 11-9, R320. Full-training attempts at the last bring-up, 0..3. -/
def fc_FC_STATE_ATTEMPTS : Fld := ⟨.fc, 0x0, 0x0, 5, 2, .ro, 0x0⟩
/-- Table 11-9, R320. 1: contents kept across the last reset, R317. -/
def fc_FC_STATE_KEPT : Fld := ⟨.fc, 0x0, 0x0, 7, 1, .ro, 0x0⟩
/-- Table 11-9, R320. Hottest device, °C; [31:8] reserved. -/
def fc_FC_TEMP : Fld := ⟨.fc, 0x4, 0x0, 0, 8, .ro, 0x0⟩
/-- Table 11-9, R320. FM_CE events; saturates at 0xFFFF_FFFF. -/
def fc_FC_CE_CNT_COUNT : Fld := ⟨.fc, 0x8, 0x0, 0, 32, .ro, 0x0⟩
/-- Table 11-9, R320. FM_UE events; saturates. -/
def fc_FC_UE_CNT_COUNT : Fld := ⟨.fc, 0xC, 0x0, 0, 32, .ro, 0x0⟩
/-- Table 11-9, R320. Poisoned lines delivered; saturates. -/
def fc_FC_POISON_CNT_COUNT : Fld := ⟨.fc, 0x10, 0x0, 0, 32, .ro, 0x0⟩
/-- Table 11-9, R320. Address [31:0] of the latest uncorrectable line. -/
def fc_FC_LAST_UE_ADDR : Fld := ⟨.fc, 0x14, 0x0, 0, 52, .ro, 0x0⟩
/-- Table 11-9, R320. Counted adjustments, R315; saturates. -/
def fc_FC_RETRACK_COUNT : Fld := ⟨.fc, 0x1C, 0x0, 0, 32, .ro, 0x0⟩
/-- Table 11-10, R320. `GEN_GIB` in force. -/
def fl_FL_GEN_GIB : Fld := ⟨.fl, 0x0, 0x0, 0, 12, .ro, 0x0⟩
/-- Table 11-10, R320. `COW_GIB` in force. -/
def fl_FL_COW_GIB : Fld := ⟨.fl, 0x4, 0x0, 0, 5, .ro, 0x4⟩
/-- Table 11-10, R320. Far offset of the BAR2 window, GiB. -/
def fl_FL_BAR2_BASE_GIB : Fld := ⟨.fl, 0x8, 0x0, 0, 11, .ro, 0x0⟩
/-- Table 11-10, R320. `BAR2_SIZE`, GiB. -/
def fl_FL_BAR2_SIZE_GIB : Fld := ⟨.fl, 0xC, 0x0, 0, 12, .ro, 0x0⟩
/-- Table 12-13, R358. Table 12-9. -/
def lk_LK_STATE : Fld := ⟨.lk, 0x0, 0x0, 0, 3, .ro, 0x0⟩
/-- Table 12-13, R358. Table 12-9. -/
def lk_LK_STATE_CAUSE : Fld := ⟨.lk, 0x0, 0x0, 3, 3, .ro, 0x0⟩
/-- Table 12-13, R358. 0b00 4 lanes; 0b01 lanes 0–1; 0b10 lanes 2–3; 0b11 none. -/
def lk_LK_STATE_WIDTH : Fld := ⟨.lk, 0x0, 0x0, 6, 2, .ro, 0x3⟩
/-- Table 12-13, R358. Partner coordinates from IDENT, packed as `SRC`. -/
def lk_LK_PEER_COORD : Fld := ⟨.lk, 0x4, 0x0, 0, 13, .ro, 0x0⟩
/-- Table 12-13, R358. Partner link number. -/
def lk_LK_PEER_LINK : Fld := ⟨.lk, 0x4, 0x0, 13, 6, .ro, 0x0⟩
/-- Table 12-13, R358. 1: an IDENT has been accepted. -/
def lk_LK_PEER_VALID : Fld := ⟨.lk, 0x4, 0x0, 19, 1, .ro, 0x0⟩
/-- Table 12-13, R358. Allotments in force. -/
def lk_LK_CRED01_TC0 : Fld := ⟨.lk, 0x8, 0x0, 0, 10, .ro, 0x10⟩
/-- Table 12-13, R358. Allotments in force. -/
def lk_LK_CRED01_TC1 : Fld := ⟨.lk, 0x8, 0x0, 16, 10, .ro, 0x1E0⟩
/-- Table 12-13, R358. Allotments in force. -/
def lk_LK_CRED23_TC2 : Fld := ⟨.lk, 0xC, 0x0, 0, 10, .ro, 0x1D0⟩
/-- Table 12-13, R358. Allotments in force. -/
def lk_LK_CRED23_TC3 : Fld := ⟨.lk, 0xC, 0x0, 16, 10, .ro, 0x40⟩
/-- Table 12-13, R358. `W_TC1` [3:0], `W_TC2` [7:4], `W_TC3` [11:8]. -/
def lk_LK_WEIGHT : Fld := ⟨.lk, 0x10, 0x0, 0, 12, .ro, 0x148⟩
/-- Table 12-13, R358. Training attempts since reset; saturates. -/
def lk_LK_TRAINS_TRAININGS : Fld := ⟨.lk, 0x14, 0x0, 0, 16, .ro, 0x0⟩
/-- Table 12-13, R358. RETRAIN entries; saturates. -/
def lk_LK_TRAINS_RETRAINS : Fld := ⟨.lk, 0x14, 0x0, 16, 16, .ro, 0x0⟩
/-- Table 12-13, R358. Corrected symbols [31:0]. -/
def lk_FEC_CORR_SYMBOLS : Fld := ⟨.lk, 0x18, 0x0, 0, 64, .ro, 0x0⟩
/-- Table 12-13, R358. Flits discarded, R326; saturates at 0xFFFF_FFFF. -/
def lk_FEC_UNCORR_COUNT : Fld := ⟨.lk, 0x20, 0x0, 0, 32, .ro, 0x0⟩
/-- Table 12-13, R358. Resends, R327; saturates. -/
def lk_REPLAY_CNT_COUNT : Fld := ⟨.lk, 0x24, 0x0, 0, 32, .ro, 0x0⟩
/-- Table 12-13, R358. Violations by the partner; saturates. -/
def lk_VIOL_CNT_COUNT : Fld := ⟨.lk, 0x28, 0x0, 0, 32, .ro, 0x0⟩
/-- Table 12-13, R358. Count in the current window. -/
def lk_VIOL_WIN_COUNT : Fld := ⟨.lk, 0x2C, 0x0, 0, 16, .ro, 0x0⟩
/-- Table 12-13, R358. Latest `RULE`. -/
def lk_VIOL_WIN_LAST_RULE : Fld := ⟨.lk, 0x2C, 0x0, 16, 8, .ro, 0x0⟩
/-- Table 12-13, R358. VIOLATION messages received; saturates. -/
def lk_VIOL_RX_CNT_COUNT : Fld := ⟨.lk, 0x30, 0x0, 0, 32, .ro, 0x0⟩
/-- Table 12-13, R358. Frames discarded at this link; saturates. -/
def lk_LK_DROP_CNT_COUNT : Fld := ⟨.lk, 0x34, 0x0, 0, 32, .ro, 0x0⟩
/-- Table 12-13, R358. Data flits sent [31:0]. -/
def lk_TX_FLITS : Fld := ⟨.lk, 0x38, 0x0, 0, 64, .ro, 0x0⟩
/-- Table 12-13, R358. Data flits accepted [31:0]. -/
def lk_RX_FLITS : Fld := ⟨.lk, 0x40, 0x0, 0, 64, .ro, 0x0⟩
/-- Table 12-14, R358. Own coordinates, packed as `SRC`. -/
def ls_LS_COORD_OWN : Fld := ⟨.ls, 0x0, 0x0, 0, 13, .ro, 0x0⟩
/-- Table 12-14, R358. SX − 1. -/
def ls_LS_COORD_SX : Fld := ⟨.ls, 0x0, 0x0, 13, 5, .ro, 0x0⟩
/-- Table 12-14, R358. SY − 1. -/
def ls_LS_COORD_SY : Fld := ⟨.ls, 0x0, 0x0, 18, 5, .ro, 0x0⟩
/-- Table 12-14, R358. Excluded inputs and dies, R344, R348; saturates. -/
def ls_COLL_EXCL_CNT_COUNT : Fld := ⟨.ls, 0x4, 0x0, 0, 32, .ro, 0x0⟩
/-- Table 12-14, R358. Late inputs; saturates. -/
def ls_COLL_LATE_CNT_COUNT : Fld := ⟨.ls, 0x8, 0x0, 0, 32, .ro, 0x0⟩
/-- Table 12-14, R358. DIST_LOST chunks; saturates. -/
def ls_DIST_LOST_CNT_COUNT : Fld := ⟨.ls, 0xC, 0x0, 0, 32, .ro, 0x0⟩
/-- Table 12-14, R358. Frames failing `PCRC`, R332; saturates. -/
def ls_PCRC_FAIL_CNT_COUNT : Fld := ⟨.ls, 0x10, 0x0, 0, 32, .ro, 0x0⟩
/-- Table 12-14, R358. Frames lost for want of a link, R340, R353; saturates. -/
def ls_LINK_DROP_CNT_COUNT : Fld := ⟨.ls, 0x14, 0x0, 0, 32, .ro, 0x0⟩
/-- Table 12-14, R358. Frames discarded at 40 hops; saturates. -/
def ls_ROUTE_LOOP_CNT_COUNT : Fld := ⟨.ls, 0x18, 0x0, 0, 32, .ro, 0x0⟩
/-- Table 12-14, R358. SAT and UNF events of link narrowing; saturates. -/
def ls_WIRE_SAT_CNT_COUNT : Fld := ⟨.ls, 0x1C, 0x0, 0, 32, .ro, 0x0⟩
/-- Table 12-14, R358. Excluded inputs in the current step, R348. -/
def ls_STEP_DROPPED_COUNT : Fld := ⟨.ls, 0x20, 0x0, 0, 32, .ro, 0x0⟩
/-- Table 13-12, R392. 0 IDLE; 1 QUIESCE; 2 DRAIN; 3 PROTECT; 4 HOLD; 5 RESTORE; 6 REPLAY; 7 reserved. -/
def sg_SG_STATE : Fld := ⟨.sg, 0x0, 0x0, 0, 3, .ro, 0x0⟩
/-- Table 13-12, R392. `GEN_ENABLE` in force. -/
def sg_SG_STATE_ENABLED : Fld := ⟨.sg, 0x0, 0x0, 3, 1, .ro, 0x0⟩
/-- Table 13-12, R392. `STATE` of slot 0: 0 EMPTY; 1 DRAINING; 2 LOCAL; 3 PROTECTED. -/
def sg_SG_STATE_SLOT0 : Fld := ⟨.sg, 0x0, 0x0, 4, 2, .ro, 0x0⟩
/-- Table 13-12, R392. `STATE` of slot 1. -/
def sg_SG_STATE_SLOT1 : Fld := ⟨.sg, 0x0, 0x0, 6, 2, .ro, 0x0⟩
/-- Table 13-12, R392. Generation in slot 0. -/
def sg_SG_GEN0 : Fld := ⟨.sg, 0x4, 0x0, 0, 32, .ro, 0x0⟩
/-- Table 13-12, R392. Generation in slot 1. -/
def sg_SG_GEN1 : Fld := ⟨.sg, 0x8, 0x0, 0, 32, .ro, 0x0⟩
/-- Table 13-12, R392. `JOB_DURABLE`. -/
def sg_SG_DURABLE_GEN : Fld := ⟨.sg, 0xC, 0x0, 0, 32, .ro, 0x0⟩
/-- Table 13-12, R392. Due step [31:0], R378. -/
def sg_SG_DUE_STEP : Fld := ⟨.sg, 0x10, 0x0, 0, 64, .ro, 0x0⟩
/-- Table 13-12, R392. Interval in force, steps. -/
def sg_SG_INTERVAL : Fld := ⟨.sg, 0x18, 0x0, 0, 14, .ro, 0x1⟩
/-- Table 13-12, R392. C, ms. -/
def sg_SG_COST_MS : Fld := ⟨.sg, 0x1C, 0x0, 0, 32, .ro, 0x32⟩
/-- Table 13-12, R392. M, s. -/
def sg_SG_MTBF : Fld := ⟨.sg, 0x20, 0x0, 0, 32, .ro, 0x0⟩
/-- Table 13-12, R392. Last quiesce, µs. -/
def sg_SG_QUIESCE_US : Fld := ⟨.sg, 0x24, 0x0, 0, 32, .ro, 0x0⟩
/-- Table 13-12, R392. P of R380. -/
def sg_SG_PRECURSOR : Fld := ⟨.sg, 0x28, 0x0, 0, 16, .ro, 0x0⟩
/-- Table 13-12, R392. GEN_ABANDONED events; saturates at 0xFFFF_FFFF. -/
def sg_SG_ABANDON_CNT_COUNT : Fld := ⟨.sg, 0x2C, 0x0, 0, 32, .ro, 0x0⟩
/-- Table 13-12, R392. GEN_NOSPACE events; saturates. -/
def sg_SG_NOSPACE_CNT_COUNT : Fld := ⟨.sg, 0x30, 0x0, 0, 32, .ro, 0x0⟩
/-- Table 13-12, R392. PROTECT_FAIL events and discarded BULK headers; saturates. -/
def sg_SG_PROTFAIL_CNT_COUNT : Fld := ⟨.sg, 0x34, 0x0, 0, 32, .ro, 0x0⟩
/-- Table 13-12, R392. REPLICA_DIVERGED events; saturates. -/
def sg_SG_DIVERGE_CNT_COUNT : Fld := ⟨.sg, 0x38, 0x0, 0, 32, .ro, 0x0⟩
/-- Table 13-12, R392. Images captured poisoned; saturates. -/
def sg_SG_POISON_CNT_COUNT : Fld := ⟨.sg, 0x3C, 0x0, 0, 32, .ro, 0x0⟩
/-- Table 13-12, R392. Bytes drained [31:0]. -/
def sg_SG_DRAIN_BYTES : Fld := ⟨.sg, 0x40, 0x0, 0, 64, .ro, 0x0⟩
/-- Table 13-12, R392. Protection bytes sent [31:0]. -/
def sg_SG_SENT_BYTES : Fld := ⟨.sg, 0x48, 0x0, 0, 64, .ro, 0x0⟩
/-- Table 14-5, R398. Part number. -/
def st_ST_ID_PART : Fld := ⟨.st, 0x0, 0x0, 0, 16, .ro, 0x836⟩
/-- Table 14-5, R398. Stepping letter. -/
def st_ST_ID_STEP_MAJ : Fld := ⟨.st, 0x0, 0x0, 16, 4, .ro, 0xB⟩
/-- Table 14-5, R398. Stepping digit. -/
def st_ST_ID_STEP_MIN : Fld := ⟨.st, 0x0, 0x0, 20, 4, .ro, 0x0⟩
/-- Table 14-5, R398. Running Mersene release: major [31:24], minor [23:16], patch [15:0]. 0 until the HD firmware starts at event 5 of Table 16-5 (`STAGE` BOOT); it then holds the `FW_VERSION` of the manifest of the bank booted, so a 4.x release reads 0x04nn_nnnn. It changes at event 8 of a handover (Table 16-11). -/
def st_ST_FW_VERSION : Fld := ⟨.st, 0x4, 0x0, 0, 32, .ro, 0x0⟩
/-- Table 14-5, R398. 0 ROM; 1 BOOT; 2 READY; 3 JOB; 4 HOLD; 5 FAULT; others reserved. -/
def st_ST_STATE_STAGE : Fld := ⟨.st, 0x8, 0x0, 0, 4, .ro, 0x0⟩
/-- Table 14-5, R398. 1: every stack set `READY`. -/
def st_ST_STATE_NEAR_READY : Fld := ⟨.st, 0x8, 0x0, 4, 1, .ro, 0x0⟩
/-- Table 14-5, R398. 1: every far channel set `TRAINED`. -/
def st_ST_STATE_FAR_READY : Fld := ⟨.st, 0x8, 0x0, 5, 1, .ro, 0x0⟩
/-- Table 14-5, R398. Why `STAGE` is FAULT: 0 NONE; 1 PUF_FAIL (R439); 2 NO_IMAGE, both banks failed (R450); others reserved. 0 unless `STAGE` is FAULT. -/
def st_ST_STATE_FAULT_CAUSE : Fld := ⟨.st, 0x8, 0x0, 6, 4, .ro, 0x0⟩
/-- Table 14-5, R398. Accesses refused under R398; saturates. -/
def st_ST_STATE_BAD_ACCESS : Fld := ⟨.st, 0x8, 0x0, 16, 16, .ro, 0x0⟩
/-- Table 14-5, R398. Incremented by Mersene every 1 ms; halts when firmware halts. -/
def st_ST_BEAT_COUNT : Fld := ⟨.st, 0xC, 0x0, 0, 32, .ro, 0x0⟩
/-- Table 14-5, R398. HD event stamp [31:0]; survives a module reset, R467. -/
def st_ST_STAMP : Fld := ⟨.st, 0x10, 0x0, 0, 64, .ro, 0x0⟩
/-- Table 14-7, R407. Message word; the response after `DONE`. -/
def mb_MB_DATAw_WORD : Fld := ⟨.mb, 0x0, 0x4, 0, 32, .rw, 0x0⟩
/-- Table 14-7, R407. Sender stamp, R406; Mersene stamp in a response. -/
def mb_MB_DATA1_STAMP : Fld := ⟨.mb, 0x4, 0x0, 0, 32, .ro, 0x0⟩
/-- Table 14-7, R407. Stamp of the owner; 0: free. -/
def mb_MB_OWN_OWNER : Fld := ⟨.mb, 0x40, 0x0, 0, 32, .ro, 0x0⟩
/-- Table 14-7, R407. 1: claim, R404. -/
def mb_MB_CLAIM : Fld := ⟨.mb, 0x44, 0x0, 0, 1, .wo, 0x0⟩
/-- Table 14-7, R407. 1: release, R405. -/
def mb_MB_CLAIM_RELEASE : Fld := ⟨.mb, 0x44, 0x0, 1, 1, .wo, 0x0⟩
/-- Table 14-7, R407. Message words. -/
def mb_MB_CTRL_LEN : Fld := ⟨.mb, 0x48, 0x0, 0, 5, .rw, 0x0⟩
/-- Table 14-7, R407. 1: send, R406. -/
def mb_MB_CTRL_GO : Fld := ⟨.mb, 0x48, 0x0, 8, 1, .wo, 0x0⟩
/-- Table 14-7, R407. 1: message in progress. -/
def mb_MB_CTRL_BUSY : Fld := ⟨.mb, 0x48, 0x0, 9, 1, .ro, 0x0⟩
/-- Table 14-7, R407. 1: response ready. -/
def mb_MB_CTRL_DONE : Fld := ⟨.mb, 0x48, 0x0, 10, 1, .w1c, 0x0⟩
/-- Table 14-7, R407. Table 14-8. -/
def mb_MB_CTRL_HWSTAT : Fld := ⟨.mb, 0x48, 0x0, 11, 3, .ro, 0x0⟩
/-- Table 14-7, R407. Response words. -/
def mb_MB_CTRL_RLEN : Fld := ⟨.mb, 0x48, 0x0, 16, 5, .ro, 0x0⟩
/-- Table 14-7, R407. Bit k: `KIND` k + 1 permitted. Reset: Table 14-6. -/
def mb_MB_CLASS_CLASS_MASK : Fld := ⟨.mb, 0x4C, 0x0, 0, 4, .ro, 0x0⟩
/-- Table 14-7, R407. Writes ignored under R405; saturates. -/
def mb_MB_STATS_IGNORED : Fld := ⟨.mb, 0x50, 0x0, 0, 16, .ro, 0x0⟩
/-- Table 14-10, R409. Bit n: DBn pending. -/
def db_DB_PEND : Fld := ⟨.db, 0x0, 0x0, 0, 32, .w1c, 0x0⟩
/-- Table 14-10, R409. Bit n: 1 masks DBn. -/
def db_DB_MASK : Fld := ⟨.db, 0x4, 0x0, 0, 32, .rw, 0xFFFFFFFF⟩
/-- Table 14-12, R413. Next entry Mersene writes. -/
def ev_EV_TAIL : Fld := ⟨.ev, 0x0, 0x0, 0, 14, .ro, 0x0⟩
/-- Table 14-12, R413. Next entry the host reads. -/
def ev_EV_HEAD : Fld := ⟨.ev, 0x4, 0x0, 0, 14, .rw, 0x0⟩
/-- Table 14-12, R413. R412; 0 disables this case. -/
def ev_EV_THRESH : Fld := ⟨.ev, 0x8, 0x0, 0, 14, .rw, 0x1⟩
/-- Table 14-12, R413. R412, µs. -/
def ev_EV_DELAY : Fld := ⟨.ev, 0xC, 0x0, 0, 16, .rw, 0x0⟩
/-- Table 14-12, R413. Events shed under R413; saturates. -/
def ev_EV_SHED : Fld := ⟨.ev, 0x10, 0x0, 0, 32, .ro, 0x0⟩
/-- Table 14-14, R417. Dynamic address. -/
def sb_SB_STATE_DADDR : Fld := ⟨.sb, 0x0, 0x0, 0, 7, .ro, 0x0⟩
/-- Table 14-14, R417. 1: a dynamic address is assigned. -/
def sb_SB_STATE_DAVALID : Fld := ⟨.sb, 0x0, 0x0, 7, 1, .ro, 0x0⟩
/-- Table 14-14, R417. 1: IBI enabled by ENEC. -/
def sb_SB_STATE_IBI_EN : Fld := ⟨.sb, 0x0, 0x0, 8, 1, .ro, 0x0⟩
/-- Table 14-14, R417. Provisional ID [31:0]: `PART` in [31:16], 0xB0 in [15:8], the low byte of `MODULE_ID` in [7:0]. Reset: Per module;
[31:0] reads 0 until PUF_RECONSTRUCT has made it. Log 187 (DESIGN CHOICE). -/
def sb_SB_PID : Fld := ⟨.sb, 0x4, 0x0, 0, 48, .ro, 0x58B600000000⟩
/-- Table 14-14, R417. Accesses refused under R416; saturates. -/
def sb_SB_DENIED : Fld := ⟨.sb, 0xC, 0x0, 0, 32, .ro, 0x0⟩
/-- Table 17-3, R469. Event i of Table 17-2 raised by unit u. -/
def uc_UCNTi_COUNT : Fld := ⟨.uc, 0x0, 0x4, 0, 32, .ro, 0x0⟩
/-- Table 17-8, R485. 1: armed. -/
def bp_BPn_CTRL_EN : Fld := ⟨.bp, 0x0, 0x8, 0, 1, .rw, 0x0⟩
/-- Table 17-8, R485. 0 FETCH; 1 PC; 2 WATCH; 3 reserved. -/
def bp_BPn_CTRL_KIND : Fld := ⟨.bp, 0x0, 0x8, 1, 2, .rw, 0x0⟩
/-- Table 17-8, R485. 0 CORE; 1 DIE; 2 MODULE; 3 reserved. -/
def bp_BPn_CTRL_SCOPE : Fld := ⟨.bp, 0x0, 0x8, 3, 2, .rw, 0x0⟩
/-- Table 17-8, R485. FETCH only. -/
def bp_BPn_CTRL_QUEUE : Fld := ⟨.bp, 0x0, 0x8, 5, 6, .rw, 0x0⟩
/-- Table 17-8, R485. Descriptor index or address. -/
def bp_BPn_VAL : Fld := ⟨.bp, 0x4, 0x8, 0, 32, .rw, 0x0⟩
/-- Table 17-8, R485. 1: this core is halted. -/
def bp_BP_STATE_HALTED : Fld := ⟨.bp, 0x20, 0x0, 0, 1, .ro, 0x0⟩
/-- Table 17-8, R485. Slot that hit. -/
def bp_BP_STATE_SLOT : Fld := ⟨.bp, 0x20, 0x0, 1, 2, .ro, 0x0⟩
/-- Table 17-8, R485. R484. -/
def bp_BP_STATE_DRAINED : Fld := ⟨.bp, 0x20, 0x0, 3, 1, .ro, 0x0⟩
/-- Table 17-8, R485. 1: release, R485. -/
def bp_BP_STATE_RESUME : Fld := ⟨.bp, 0x20, 0x0, 4, 1, .wo, 0x0⟩
/-- Table 17-8, R485. 1: halted by another core's scope. -/
def bp_BP_STATE_EXT : Fld := ⟨.bp, 0x20, 0x0, 5, 1, .ro, 0x0⟩
/-- Table 17-8, R485. Descriptors fetched and not yet recorded. -/
def bp_BP_STATE_WAITING : Fld := ⟨.bp, 0x20, 0x0, 16, 16, .ro, 0x0⟩
/-- Table 17-8, R485. Hits; saturates at 0xFFFF_FFFF. -/
def bp_BP_HITS_COUNT : Fld := ⟨.bp, 0x24, 0x0, 0, 32, .ro, 0x0⟩
/-- Table 17-10, R488. R472. -/
def tr_TR_CTRL_ENABLE : Fld := ⟨.tr, 0x0, 0x40, 0, 1, .rw, 0x1⟩
/-- Table 17-10, R488. 64ths of the ring, R473. -/
def tr_TR_CTRL_POST : Fld := ⟨.tr, 0x0, 0x40, 1, 6, .rw, 0x10⟩
/-- Table 17-10, R488. Units of 4,096 slots. Reset: 0x20 × r. -/
def tr_TR_GEOM_BASE : Fld := ⟨.tr, 0x4, 0x40, 0, 7, .rw, 0x0⟩
/-- Table 17-10, R488. Units of 4,096 slots, 1..128; 0 reads as 1, and a write above 128 stores 128. -/
def tr_TR_GEOM_SIZE : Fld := ⟨.tr, 0x4, 0x40, 8, 8, .rw, 0x20⟩
/-- Table 17-10, R488. Bit c: class c. -/
def tr_TR_FILTER_CLASS_MASK : Fld := ⟨.tr, 0x8, 0x40, 0, 5, .rw, 0x7⟩
/-- Table 17-10, R488. Die, or 0xFF for every die. -/
def tr_TR_FILTER_DIE : Fld := ⟨.tr, 0x8, 0x40, 8, 8, .rw, 0xFF⟩
/-- Table 17-10, R488. R474; 0 none. -/
def tr_TR_TRIG_CODE : Fld := ⟨.tr, 0xC, 0x40, 0, 16, .rw, 0x0⟩
/-- Table 17-10, R488. R474. Reset: 0x1 for r = 0, else 0x0. -/
def tr_TR_TRIG_ON_ALARM : Fld := ⟨.tr, 0xC, 0x40, 16, 1, .rw, 0x0⟩
/-- Table 17-10, R488. R474. Reset: 0x0 for r = 0, else 0x1. -/
def tr_TR_TRIG_WITH0 : Fld := ⟨.tr, 0xC, 0x40, 17, 1, .rw, 0x0⟩
/-- Table 17-10, R488. 0 DISABLED; 1 ARMED; 2 POST; 3 STOPPED. -/
def tr_TR_STATUS_STATE : Fld := ⟨.tr, 0x10, 0x40, 0, 2, .ro, 0x1⟩
/-- Table 17-10, R488. R473. -/
def tr_TR_STATUS_WRAPPED : Fld := ⟨.tr, 0x10, 0x40, 2, 1, .ro, 0x0⟩
/-- Table 17-10, R488. Next slot, counted from the ring's base. -/
def tr_TR_WPTR : Fld := ⟨.tr, 0x14, 0x40, 0, 19, .ro, 0x0⟩
/-- Table 17-10, R488. Slot of the trigger record. -/
def tr_TR_TPTR : Fld := ⟨.tr, 0x18, 0x40, 0, 19, .ro, 0x0⟩
/-- Table 17-10, R488. R473, R474; saturate. -/
def tr_TR_COUNTS_RETRIG : Fld := ⟨.tr, 0x1C, 0x40, 0, 16, .ro, 0x0⟩
/-- Table 17-10, R488. R473, R474; saturate. -/
def tr_TR_COUNTS_MISSED : Fld := ⟨.tr, 0x1C, 0x40, 16, 16, .ro, 0x0⟩
/-- Table 17-10, R488. R471; bit 0 reads 1. -/
def tr_TR_SRC_CLASS_EN : Fld := ⟨.tr, 0x100, 0x0, 0, 5, .rw, 0xF⟩
/-- Table 17-10, R488. R476. -/
def tr_TR_FWD_FWD_EN : Fld := ⟨.tr, 0x104, 0x0, 0, 1, .rw, 0x0⟩
/-- Table 17-10, R488. Packed as `SRC`. -/
def tr_TR_FWD_FWD_COORD : Fld := ⟨.tr, 0x104, 0x0, 1, 13, .rw, 0x0⟩
/-- Table 17-10, R488. Records shed in class c, module-wide; saturates. -/
def tr_SHED_CNTc : Fld := ⟨.tr, 0x108, 0x4, 0, 32, .ro, 0x0⟩
/-- Table 17-10, R488. LOSS_SUMMARY records written; saturates. -/
def tr_LOSS_CNT_COUNT : Fld := ⟨.tr, 0x118, 0x0, 0, 32, .ro, 0x0⟩
/-- Table 17-10, R488. R475. -/
def tr_SNAP_SNAP_NEXT : Fld := ⟨.tr, 0x11C, 0x0, 0, 3, .ro, 0x0⟩
/-- Table 17-10, R488. Snapshots taken; saturates. -/
def tr_SNAP_SNAPS : Fld := ⟨.tr, 0x11C, 0x0, 16, 16, .ro, 0x0⟩
/-- Table 18-9, R510. P_cap in force, W. -/
def pm_PM_CAP_CAP_W : Fld := ⟨.pm, 0x0, 0x0, 0, 12, .ro, 0xA28⟩
/-- Table 18-9, R510. Accepted PCAP code. -/
def pm_PM_CAP_PCAP : Fld := ⟨.pm, 0x0, 0x0, 12, 4, .ro, 0x0⟩
/-- Table 18-9, R510. 1: PBRAKE# applies. -/
def pm_PM_CAP_BRAKE : Fld := ⟨.pm, 0x0, 0x0, 16, 1, .ro, 0x0⟩
/-- Table 18-9, R510. 1: 65.0 A × VIN decides the cap. -/
def pm_PM_CAP_VIN_LIMIT : Fld := ⟨.pm, 0x0, 0x0, 17, 1, .ro, 0x0⟩
/-- Table 18-9, R510. U of R495. -/
def pm_PM_UNITS_BUDGET : Fld := ⟨.pm, 0x4, 0x0, 0, 14, .ro, 0x0⟩
/-- Table 18-9, R510. Units held. -/
def pm_PM_UNITS_HELD : Fld := ⟨.pm, 0x4, 0x0, 16, 14, .ro, 0x0⟩
/-- Table 18-9, R510. Requests awaiting grant. -/
def pm_PM_WAIT_WAITING : Fld := ⟨.pm, 0x8, 0x0, 0, 16, .ro, 0x0⟩
/-- Table 18-9, R510. P_in, 0.1 W. -/
def pm_PM_INPUT_PIN : Fld := ⟨.pm, 0xC, 0x0, 0, 16, .ro, 0x0⟩
/-- Table 18-9, R510. VIN, 10 mV. -/
def pm_PM_INPUT_VIN : Fld := ⟨.pm, 0xC, 0x0, 16, 16, .ro, 0x0⟩
/-- Table 18-9, R510. P_base, 0.1 W. -/
def pm_PM_BASE_PBASE : Fld := ⟨.pm, 0x10, 0x0, 0, 16, .ro, 0x0⟩
/-- Table 18-9, R510. ρ, units of 1/1,024. -/
def pm_PM_BASE_RHO : Fld := ⟨.pm, 0x10, 0x0, 16, 12, .ro, 0x400⟩
/-- Table 18-9, R510. 1: clamp episode in progress. -/
def pm_PM_CLAMP_ACTIVE : Fld := ⟨.pm, 0x14, 0x0, 0, 1, .ro, 0x0⟩
/-- Table 18-9, R510. Episodes; saturates. -/
def pm_PM_CLAMP_CLAMP_CNT : Fld := ⟨.pm, 0x14, 0x0, 16, 16, .ro, 0x0⟩
/-- Table 18-9, R510. Hottest junction, °C. -/
def pm_PM_THERM_TJ : Fld := ⟨.pm, 0x18, 0x0, 0, 8, .ro, 0x0⟩
/-- Table 18-9, R510. Its die index. -/
def pm_PM_THERM_TJ_DIE : Fld := ⟨.pm, 0x18, 0x0, 8, 8, .ro, 0x0⟩
/-- Table 18-9, R510. f_T, units of 1/256. -/
def pm_PM_THERM_FT : Fld := ⟨.pm, 0x18, 0x0, 16, 10, .ro, 0x100⟩
/-- Table 18-9, R510. R504. -/
def pm_PM_RESET_RESET_CAUSE : Fld := ⟨.pm, 0x1C, 0x0, 0, 2, .ro, 0x0⟩
/-- Table 18-9, R510. Module resets since power-up; survives a module reset; saturates. -/
def pm_PM_RESET_RESETS : Fld := ⟨.pm, 0x1C, 0x0, 16, 16, .ro, 0x0⟩
/-- Table 18-9, R510. Hours of operation, read from the flash at power-up; survives a module reset. Reset: From flash. -/
def pm_PM_HOURS : Fld := ⟨.pm, 0x20, 0x0, 0, 32, .ro, 0x0⟩
/-- Table 18-9, R510. Hours at the last re-plan, kept in the flash; survives a module reset. Reset: From flash. -/
def pm_PM_REPLAN_HOURS : Fld := ⟨.pm, 0x24, 0x0, 0, 32, .ro, 0x0⟩
/-- Table 18-9, R510. Module ageing index, R506. -/
def pm_PM_AGE_AGE_INDEX : Fld := ⟨.pm, 0x28, 0x0, 0, 12, .ro, 0x0⟩
/-- Table 18-9, R510. 1: some die has taps at its ceiling. -/
def pm_PM_AGE_CEILING : Fld := ⟨.pm, 0x28, 0x0, 12, 1, .ro, 0x0⟩
/-- Table 18-9, R510. 1: some die passed 1,000. -/
def pm_PM_AGE_EOL : Fld := ⟨.pm, 0x28, 0x0, 13, 1, .ro, 0x0⟩
/-- Table 18-10, R511. Planned setpoint, mV. -/
def ag_AG_VSET_MV : Fld := ⟨.ag, 0x0, 0x0, 0, 10, .ro, 0x0⟩
/-- Table 18-10, R511. Measured output, mV. -/
def ag_AG_VSET_MV_NOW : Fld := ⟨.ag, 0x0, 0x0, 16, 10, .ro, 0x0⟩
/-- Table 18-10, R511. Lowest monitor slack, 0.1 %. -/
def ag_AG_SLACK : Fld := ⟨.ag, 0x4, 0x0, 0, 8, .ro, 0x0⟩
/-- Table 18-10, R511. Taps in force, 0..8. -/
def ag_AG_SLACK_TAPS : Fld := ⟨.ag, 0x4, 0x0, 8, 4, .ro, 0x0⟩
/-- Table 18-10, R511. Ageing index of the die. -/
def ag_AG_INDEX : Fld := ⟨.ag, 0x8, 0x0, 0, 12, .ro, 0x0⟩
/-- Table 18-10, R511. Hottest junction, °C. -/
def ag_AG_INDEX_TEMP : Fld := ⟨.ag, 0x8, 0x0, 12, 8, .ro, 0x0⟩
/-- Table 18-10, R511. Compute dies: slowest array beat, Mbeat/s; other dies 0. -/
def ag_AG_BEAT : Fld := ⟨.ag, 0xC, 0x0, 0, 16, .ro, 0x0⟩

end Fld

/-- The fields of the generator and capture block of CDn (Table 3-6), instance n. -/
def fields_gen : List Fld :=
  [.gen_GEN_SEED_SEED_LO, .gen_GEN_STATUS_SEEDED, .gen_SHARED_CNT, .gen_WRAP_CNT, .gen_LAST_SHARED_SID,
   .gen_LAST_SHARED_TENSOR, .gen_AMAX_CLR_SLOT, .gen_AMAXnn_VALUE]
/-- The fields of the status block of CDn.MAxx (Tables 4-11, 5-13), instance 96 n + xx. -/
def fields_ma : List Fld :=
  [.ma_MA_REPAIR_SPARE0_ROW, .ma_MA_REPAIR_SPARE0_EN, .ma_MA_REPAIR_SPARE1_ROW, .ma_MA_REPAIR_SPARE1_EN, .ma_MA_REPAIR_RETIRED,
   .ma_MA_BEAT_STRETCH, .ma_MA_STATE_BUSY, .ma_MA_STATE_ACC_HELD, .ma_MA_STATE_ACC_KIND, .ma_MA_STATE_FRAME_XBASE,
   .ma_MA_STATE_FRAME_FMT_A, .ma_MA_STATE_FRAME_FMT_B, .ma_MA_STATE_FRAME_OP, .ma_MA_STATE_FRAME_SIDE, .ma_XOVF_CNT_COUNT,
   .ma_XUNF_CNT_COUNT, .ma_ACC_SAT_CNT_COUNT, .ma_ACC_FRAME_CNT_COUNT, .ma_BEAT_BEATS, .ma_ZSKIP_SKIPPED,
   .ma_SUMP_CNT_COUNT, .ma_META_INV_CNT_COUNT, .ma_SIDE_INV_CNT_COUNT, .ma_SKIP_PASSES]
/-- The fields of the Lantern block of CDn (Table 6-2), instance n. -/
def fields_ln : List Fld :=
  [.ln_LN_CTRL_ENABLE, .ln_LN_CTRL_COMMIT, .ln_LN_CTRL_DISCARD, .ln_LN_STATUS_FENCE, .ln_LN_STATUS_CNT_SAT,
   .ln_LN_LAYERS_COUNT, .ln_LN_DECAY_SHIFT, .ln_LN_AGREE_SHIFT, .ln_LN_COMMITS_COUNT, .ln_LN_DISCARDS_COUNT,
   .ln_LN_BADLAYER_COUNT]
/-- The fields of the status block of CDn.VUx (Table 7-10), instance 16 n + x. -/
def fields_vu : List Fld :=
  [.vu_VU_STATE_BUSY, .vu_VU_STATE_TB_WAIT, .vu_VU_STATE_VR_HOLD, .vu_TBn_STATE_FULL_SLOTS, .vu_TBn_STATE_SLOTS,
   .vu_EMPTY_CNT_COUNT, .vu_ROW_MASKED_CNT_COUNT, .vu_INF_TIE_CNT_COUNT, .vu_SMX_NAN_CNT_COUNT, .vu_STEPS,
   .vu_TBWAIT_STEPS, .vu_Vn_WORD]
/-- The fields of the routing block of CDn (Table 8-9), instance n. -/
def fields_rt : List Fld :=
  [.rt_RT_DROPCAP_CNT_COUNT, .rt_RT_DROPLINK_CNT_COUNT, .rt_RT_TOKDROP_CNT_COUNT, .rt_RT_NAN_CNT_COUNT, .rt_RT_SKIP_CNT_COUNT,
   .rt_RT_MAPINV_CNT_COUNT, .rt_RT_TIMEOUT_CNT_COUNT]
/-- The fields of the queue block of CDn (Table 9-14), instance n. -/
def fields_que : List Fld :=
  [.que_Q_CTRL_ENABLE, .que_Q_CTRL_STOP_ON_ERROR, .que_Q_CTRL_STOPPED, .que_Q_CTRL_RESUME, .que_Q_CTRL_FLUSH,
   .que_Q_CTRL_OWNER, .que_Q_SLOTS, .que_Q_TAIL, .que_Q_HEAD, .que_Q_CTAIL,
   .que_Q_CHEAD, .que_Q_SEQ, .que_Q_ERR_CNT_COUNT, .que_Q_LASTERR, .que_Q_LASTERR_SEQ,
   .que_Q_HPWAIT_US, .que_SEMs_COUNT, .que_SEM_ADDs, .que_PLACE_MAPn_PHYS, .que_PLACE_MAPn_VALID,
   .que_HP_DIE_HELD, .que_HP_DIE_WAITING, .que_SEM_SAT_CNT_COUNT]
/-- The fields of the check block of CDn (Table 10-14), instance n. -/
def fields_chk : List Fld :=
  [.chk_CHK_STATE_PHASE, .chk_CHK_STATE_VERDICT, .chk_CHK_STATE_PASS, .chk_CHK_STEP, .chk_CHK_RUN_NONFINITE_RUN,
   .chk_CHK_LOCAL_FLAGS, .chk_CHK_VERDICT_FLAGS, .chk_CHK_GNORM, .chk_CHK_CLIP, .chk_CHK_NONFIN_CNT_COUNT,
   .chk_CHK_TIMEOUT_CNT_COUNT, .chk_CHK_MISMATCH_CNT_COUNT, .chk_CHK_TABLES_NORM_TENS, .chk_CHK_TABLES_LOSS_TENS, .chk_CHK_AFFECTw_LAYERS]
/-- The fields of the near-memory block of CDn (Table 11-8), instance n. -/
def fields_nm : List Fld :=
  [.nm_NM_STATE_READY, .nm_NM_STATE_REFRESH, .nm_NM_STATE_HOT, .nm_NM_TEMP, .nm_NM_CE_CNT_COUNT,
   .nm_NM_UE_CNT_COUNT, .nm_NM_POISON_CNT_COUNT, .nm_NM_COW_CNT_COUNT, .nm_NM_LAST_UE_ADDR, .nm_NM_REPAIR_DONE,
   .nm_NM_REPAIR_PENDING]
/-- The fields of the channel block of FCxx (Table 11-9), instance xx. -/
def fields_fc : List Fld :=
  [.fc_FC_STATE_TRAINED, .fc_FC_STATE_FULL_TRAIN, .fc_FC_STATE_REFRESH, .fc_FC_STATE_HOT, .fc_FC_STATE_ATTEMPTS,
   .fc_FC_STATE_KEPT, .fc_FC_TEMP, .fc_FC_CE_CNT_COUNT, .fc_FC_UE_CNT_COUNT, .fc_FC_POISON_CNT_COUNT,
   .fc_FC_LAST_UE_ADDR, .fc_FC_RETRACK_COUNT]
/-- The fields of the far layout block of HB (Table 11-10). -/
def fields_fl : List Fld :=
  [.fl_FL_GEN_GIB, .fl_FL_COW_GIB, .fl_FL_BAR2_BASE_GIB, .fl_FL_BAR2_SIZE_GIB]
/-- The fields of the link block of Lxx (Table 12-13), instance xx. -/
def fields_lk : List Fld :=
  [.lk_LK_STATE, .lk_LK_STATE_CAUSE, .lk_LK_STATE_WIDTH, .lk_LK_PEER_COORD, .lk_LK_PEER_LINK,
   .lk_LK_PEER_VALID, .lk_LK_CRED01_TC0, .lk_LK_CRED01_TC1, .lk_LK_CRED23_TC2, .lk_LK_CRED23_TC3,
   .lk_LK_WEIGHT, .lk_LK_TRAINS_TRAININGS, .lk_LK_TRAINS_RETRAINS, .lk_FEC_CORR_SYMBOLS, .lk_FEC_UNCORR_COUNT,
   .lk_REPLAY_CNT_COUNT, .lk_VIOL_CNT_COUNT, .lk_VIOL_WIN_COUNT, .lk_VIOL_WIN_LAST_RULE, .lk_VIOL_RX_CNT_COUNT,
   .lk_LK_DROP_CNT_COUNT, .lk_TX_FLITS, .lk_RX_FLITS]
/-- The fields of the link set block of HB (Table 12-14). -/
def fields_ls : List Fld :=
  [.ls_LS_COORD_OWN, .ls_LS_COORD_SX, .ls_LS_COORD_SY, .ls_COLL_EXCL_CNT_COUNT, .ls_COLL_LATE_CNT_COUNT,
   .ls_DIST_LOST_CNT_COUNT, .ls_PCRC_FAIL_CNT_COUNT, .ls_LINK_DROP_CNT_COUNT, .ls_ROUTE_LOOP_CNT_COUNT, .ls_WIRE_SAT_CNT_COUNT,
   .ls_STEP_DROPPED_COUNT]
/-- The fields of the generation block of HB (Table 13-12). -/
def fields_sg : List Fld :=
  [.sg_SG_STATE, .sg_SG_STATE_ENABLED, .sg_SG_STATE_SLOT0, .sg_SG_STATE_SLOT1, .sg_SG_GEN0,
   .sg_SG_GEN1, .sg_SG_DURABLE_GEN, .sg_SG_DUE_STEP, .sg_SG_INTERVAL, .sg_SG_COST_MS,
   .sg_SG_MTBF, .sg_SG_QUIESCE_US, .sg_SG_PRECURSOR, .sg_SG_ABANDON_CNT_COUNT, .sg_SG_NOSPACE_CNT_COUNT,
   .sg_SG_PROTFAIL_CNT_COUNT, .sg_SG_DIVERGE_CNT_COUNT, .sg_SG_POISON_CNT_COUNT, .sg_SG_DRAIN_BYTES, .sg_SG_SENT_BYTES]
/-- The fields of the status block of HD (Table 14-5). -/
def fields_st : List Fld :=
  [.st_ST_ID_PART, .st_ST_ID_STEP_MAJ, .st_ST_ID_STEP_MIN, .st_ST_FW_VERSION, .st_ST_STATE_STAGE,
   .st_ST_STATE_NEAR_READY, .st_ST_STATE_FAR_READY, .st_ST_STATE_FAULT_CAUSE, .st_ST_STATE_BAD_ACCESS, .st_ST_BEAT_COUNT,
   .st_ST_STAMP]
/-- The fields of the mailbox channel MBxx (Table 14-7), instance xx. -/
def fields_mb : List Fld :=
  [.mb_MB_DATAw_WORD, .mb_MB_DATA1_STAMP, .mb_MB_OWN_OWNER, .mb_MB_CLAIM, .mb_MB_CLAIM_RELEASE,
   .mb_MB_CTRL_LEN, .mb_MB_CTRL_GO, .mb_MB_CTRL_BUSY, .mb_MB_CTRL_DONE, .mb_MB_CTRL_HWSTAT,
   .mb_MB_CTRL_RLEN, .mb_MB_CLASS_CLASS_MASK, .mb_MB_STATS_IGNORED]
/-- The fields of the doorbell block (Table 14-10). -/
def fields_db : List Fld :=
  [.db_DB_PEND, .db_DB_MASK]
/-- The fields of the event ring block (Table 14-12). -/
def fields_ev : List Fld :=
  [.ev_EV_TAIL, .ev_EV_HEAD, .ev_EV_THRESH, .ev_EV_DELAY, .ev_EV_SHED]
/-- The fields of the sideband block (Table 14-14). -/
def fields_sb : List Fld :=
  [.sb_SB_STATE_DADDR, .sb_SB_STATE_DAVALID, .sb_SB_STATE_IBI_EN, .sb_SB_PID, .sb_SB_DENIED]
/-- The fields of the unit counter bank of CDn unit u (Table 17-3), instance 256 n + u. -/
def fields_uc : List Fld :=
  [.uc_UCNTi_COUNT]
/-- The fields of the breakpoint block of CDn.CCx (Table 17-8), instance 4 n + x. -/
def fields_bp : List Fld :=
  [.bp_BPn_CTRL_EN, .bp_BPn_CTRL_KIND, .bp_BPn_CTRL_SCOPE, .bp_BPn_CTRL_QUEUE, .bp_BPn_VAL,
   .bp_BP_STATE_HALTED, .bp_BP_STATE_SLOT, .bp_BP_STATE_DRAINED, .bp_BP_STATE_RESUME, .bp_BP_STATE_EXT,
   .bp_BP_STATE_WAITING, .bp_BP_HITS_COUNT]
/-- The fields of the trace block of HD (Table 17-10). -/
def fields_tr : List Fld :=
  [.tr_TR_CTRL_ENABLE, .tr_TR_CTRL_POST, .tr_TR_GEOM_BASE, .tr_TR_GEOM_SIZE, .tr_TR_FILTER_CLASS_MASK,
   .tr_TR_FILTER_DIE, .tr_TR_TRIG_CODE, .tr_TR_TRIG_ON_ALARM, .tr_TR_TRIG_WITH0, .tr_TR_STATUS_STATE,
   .tr_TR_STATUS_WRAPPED, .tr_TR_WPTR, .tr_TR_TPTR, .tr_TR_COUNTS_RETRIG, .tr_TR_COUNTS_MISSED,
   .tr_TR_SRC_CLASS_EN, .tr_TR_FWD_FWD_EN, .tr_TR_FWD_FWD_COORD, .tr_SHED_CNTc, .tr_LOSS_CNT_COUNT,
   .tr_SNAP_SNAP_NEXT, .tr_SNAP_SNAPS]
/-- The fields of the power block of HD (Table 18-9). -/
def fields_pm : List Fld :=
  [.pm_PM_CAP_CAP_W, .pm_PM_CAP_PCAP, .pm_PM_CAP_BRAKE, .pm_PM_CAP_VIN_LIMIT, .pm_PM_UNITS_BUDGET,
   .pm_PM_UNITS_HELD, .pm_PM_WAIT_WAITING, .pm_PM_INPUT_PIN, .pm_PM_INPUT_VIN, .pm_PM_BASE_PBASE,
   .pm_PM_BASE_RHO, .pm_PM_CLAMP_ACTIVE, .pm_PM_CLAMP_CLAMP_CNT, .pm_PM_THERM_TJ, .pm_PM_THERM_TJ_DIE,
   .pm_PM_THERM_FT, .pm_PM_RESET_RESET_CAUSE, .pm_PM_RESET_RESETS, .pm_PM_HOURS, .pm_PM_REPLAN_HOURS,
   .pm_PM_AGE_AGE_INDEX, .pm_PM_AGE_CEILING, .pm_PM_AGE_EOL]
/-- The fields of the ageing block of a die (Table 18-10), instance the die index. -/
def fields_ag : List Fld :=
  [.ag_AG_VSET_MV, .ag_AG_VSET_MV_NOW, .ag_AG_SLACK, .ag_AG_SLACK_TAPS, .ag_AG_INDEX,
   .ag_AG_INDEX_TEMP, .ag_AG_BEAT]

/-- The fields of a block. -/
def fieldsOf : Blk → List Fld
  | .gen => fields_gen
  | .ma => fields_ma
  | .ln => fields_ln
  | .vu => fields_vu
  | .rt => fields_rt
  | .que => fields_que
  | .chk => fields_chk
  | .nm => fields_nm
  | .fc => fields_fc
  | .fl => fields_fl
  | .lk => fields_lk
  | .ls => fields_ls
  | .sg => fields_sg
  | .st => fields_st
  | .mb => fields_mb
  | .db => fields_db
  | .ev => fields_ev
  | .sb => fields_sb
  | .uc => fields_uc
  | .bp => fields_bp
  | .tr => fields_tr
  | .pm => fields_pm
  | .ag => fields_ag

end Sys2Proof.Machine
end

