-- ==== Sys2Proof/Machine/StateCompute.lean ====
section
/-! DEFINITION. The state of a compute die beyond its registers: its Lesson, its queues and their descriptors, its
arrays, its vector units, its Lantern and its plan, its streams, its routed layers. -/

namespace Sys2Proof.Machine

/-! ## Conversions -/

/-- Table 3-1: `CVTCTL`, decoded; `tgt` is the target's format code after decode (R164). -/
structure Cvt where
  tgt : Nat
  rmode : Nat
  ovf : Bool
  intsat : Nat
  scaleSrc : Nat
  sidEn : Bool
  amaxEn : Bool
  amaxSlot : Nat
  amaxClr : Bool
  oscale : Nat
  sid : Nat
deriving DecidableEq, Repr

/-- Table 9-4: a tensor table entry as a descriptor reads it; `fmt` is the format code in force (R242). -/
structure Tensor where
  idx : Nat
  base : Nat
  decl : Nat
  fmt : Nat
  steered : Bool
  frozen : Bool
  bsize : Nat
  scaled : Bool
  innerRows : Bool
  masterEn : Bool
  inTb : Bool
  tb : Nat
  tbVu : Nat
  wlayer : Nat
  wrole : Nat
  master : Nat
  rows : Nat
  cols : Nat
  stride : Nat
  scaleBase : Nat
deriving DecidableEq, Repr

/-! ## Arrays -/

/-- The special states an accumulator keeps until it is cleared (R45). -/
inductive Special where
  | none | nan | inf (neg : Bool)
deriving DecidableEq, Repr

/-- One accumulator entry: the 96-bit sum and its clamp (R93, R98), the extended float (R100), the log value (R107),
the special state (R45) and the two window flags (R96). -/
structure AccEntry where
  fixed : Int
  clamped : Bool
  ext : XVal
  log : LVal
  special : Special
  xp : Bool
  xn : Bool
deriving DecidableEq, Repr

/-- An array pass group after decode (Table 5-1, R164, R242): its fields, its tensors in force, and its group. -/
structure PassDesc where
  die : Nat
  logical : Nat
  phys : Nat
  op : Nat
  accInit : Bool
  accOut : Bool
  zskip : Bool
  loadT : Bool
  sideEn : Bool
  h : Nat
  w : Nat
  sparse : Nat
  bskip : Bool
  outx : Bool
  xbase : Int
  scaleA : Nat
  scaleB : Nat
  blkA : Bool
  blkB : Bool
  ta : Tensor
  tb : Tensor
  tc : Tensor
  tmeta : Tensor
  tmap : Tensor
  tsin : Tensor
  tsout : Tensor
  m : Nat
  n : Nat
  k : Nat
  m0 : Nat
  n0 : Nat
  k0 : Nat
  cvt : Cvt
  layer : Nat
  role : Nat
  steered : Bool
deriving DecidableEq, Repr

/-- One pass of a group: its n-tile and k-chunk, whether block sparsity skips it (R144), and whether it is the first and the
last of those of its tile that are issued, or closes a tile of which none is (R121). -/
structure Pass where
  tile : Nat
  chunk : Nat
  skip : Bool
  first : Bool
  last : Bool
deriving DecidableEq, Repr

/-- One stationary element as the load path leaves it: its code, whether its line was poisoned, its block scale, the logical
inner position it stands for (R141), and whether it takes part. -/
structure Stat where
  code : Nat
  poison : Bool
  scale : Nat
  k : Nat
  live : Bool
deriving DecidableEq, Repr

/-- A stationary tile being loaded or in use: its pass, and its elements in load order (R114). -/
structure Tile where
  pass : Pass
  elems : List Stat
  lines : Nat
deriving DecidableEq, Repr

/-- A bit-serial lane: the element (output row) it is on and the bits it has still to present (R102, R104). -/
structure Lane where
  row : Nat
  bits : List Nat
  started : Bool
deriving DecidableEq, Repr

/-- A readout in progress: its n-tile, the next output row, the window base of its conversion (R111) and whether it has
begun; whether its tile was skipped whole and reads +0 (R144); whether a later tile has discarded the sums of the rows it has
still to read (R135); whether a later pass has gone on to fill the bank, so that the bank holds unread sums after it (R119). -/
structure Readout where
  tile : Nat
  row : Nat
  base : Nat
  started : Bool
  zero : Bool
  stale : Bool
  more : Bool
deriving DecidableEq, Repr

/-- An element past the target's range whose side block is not read out whole yet: its place in the output tensor, its sign and
|q| (R146). -/
structure HeldOut where
  row : Nat
  col : Nat
  neg : Bool
  mag : Mag
deriving DecidableEq, Repr

/-- What an array pass group has raised so far: the bits of `MXSTAT` (Table 5-12), the n-tiles flagged, and every failure. -/
structure MxStat where
  bits : Nat
  skipped : Nat
  flags : List Nat
  /-- which tiles failed, and whether by SUMP (true) or by XOVF or ACC_SAT -/
  why : List (Nat × Bool)
deriving DecidableEq, Repr

/-- A pass group accepted by an array (R248): the queue, sequence number and issue epoch of its descriptor, the passes still
to issue, the tile waiting in the pending copies and the tile in the active ones with its next row and beat, the lanes of
bit-serial mode, the readouts still to run, whether it stopped with ACC_FRAME, passes issued, beats, the stamp of the first
beat, what it has raised, its elements past range in side blocks that a later n-tile completes, and, of each n-tile that an attempt
has run again, the group as the last attempt ran it. -/
structure GroupRun where
  queue : Nat
  seq : Nat
  epoch : Nat
  d : PassDesc
  expanded : Bool
  todo : List Pass
  pend : Option Tile
  act : Option Tile
  row : Nat
  beat : Nat
  lanes : List Lane
  readouts : List Readout
  accFrame : Bool
  issued : Nat
  beats : Nat
  firstBeat : Nat
  stat : MxStat
  /-- n-tiles compared with the master copy (R175) -/
  compared : List Nat
  side : List HeldOut
  last : List (Nat × PassDesc)
deriving DecidableEq, Repr

/-- A physical array: its accumulator bank and the two groups it has accepted (R248). -/
structure ArraySt where
  bank : Tab Nat AccEntry
  run : Option GroupRun
  next : Option GroupRun
deriving DecidableEq, Repr

/-! ## Vector units -/

/-- Table 7-3: a stage word. -/
structure Stage where
  sop : Nat
  sa : Nat
  sb : Nat
  sc : Nat
  md : Nat
deriving DecidableEq, Repr

/-- A chain descriptor after decode (Table 7-2). -/
structure ChainDesc where
  die : Nat
  vu : Nat
  stages : List Stage
  bEn : Bool
  bBcast : Nat
  maskEn : Bool
  maskInv : Bool
  maskFill : Nat
  dstVreg : Bool
  rows : Nat
  cols : Nat
  ta : Tensor
  tb : Tensor
  tmask : Tensor
  td : Tensor
  dstVr : Nat
  cvt : Cvt
  layer : Nat
  role : Nat
deriving DecidableEq, Repr

/-- A typed lane word: FP32 or I32 (R191). -/
inductive LWord where
  | f (code : Nat)
  | i (v : Int)
deriving DecidableEq, Repr

/-- One element's result inside a chain: its last stage's word, and whether it takes part (R201). -/
structure LaneOut where
  word : LWord
  part : Bool
deriving DecidableEq, Repr

/-- Table 7-11: what a chain has raised. -/
structure VxStat where
  bits : Nat
  emptyRows : Nat
  maskedRows : Nat
deriving DecidableEq, Repr

/-- A running chain: the queue, sequence number and issue epoch of its descriptor, whether it has begun, the cost units of the
present 256-element group, the row and the group in hand, the base of its window, the results of the row in hand, the rows
whose blocks are not yet whole (R64), the captures (block, value) of blocks that run down rows and are not yet whole (R155), the
words for its vector register, what it has raised, and whether it is done. -/
structure ChainRun where
  queue : Nat
  seq : Nat
  epoch : Nat
  d : ChainDesc
  started : Bool
  unit : Nat
  row : Nat
  grp : Nat
  base : Nat
  cur : List LaneOut
  held : List (List LaneOut)
  caps : List (Nat × Nat)
  vout : List (Nat × Nat)
  stat : VxStat
  done : Bool
deriving DecidableEq, Repr

/-- A slot of a tile buffer (R192). -/
structure TbSlot where
  full : Bool
  bytes : Tab Nat Nat
deriving DecidableEq, Repr

/-- A control core's write of a vector register word that waits for chains: the word's place, the word, and the chains it waits
for, by the number of their issue (R193). -/
structure HeldWrite where
  word : Nat
  value : Nat
  chains : List Nat
deriving DecidableEq, Repr

/-- A vector unit: the running chain, the tile buffer slots (by buffer and slot), the register writes that wait for
chains (R193). -/
structure VuSt where
  run : Option ChainRun
  slots : Tab (Nat × Nat) TbSlot
  held : List HeldWrite
deriving DecidableEq, Repr

/-! ## Queues and descriptors -/

/-- A slot of a descriptor ring: the Lesson descriptor it holds, what `rt.exloop` or a rerun changed in it, how many
commits and discards the die had been told before it was issued (R158), which of the die's descriptors it was to be issued (R75),
and the offset of the run that issued it (R285). -/
structure Slot where
  desc : Nat
  epoch : Nat
  copy : Bool
  rerun : Bool
  rows : Option Nat
  m0add : Nat
  tick : Nat
  off : Nat
deriving DecidableEq, Repr

/-- The stages of Table 9-5 after fetch; `finish` is a descriptor that was rejected, removed or is a no-op and waits for those before it
to complete (R247). -/
inductive DStage where
  | wait | grant | start | running | finish | done
deriving DecidableEq, Repr

/-- A data movement in progress (R262): the next row, and whether it waits for the copy-on-write pool (R306). -/
structure CopyRun where
  row : Nat
deriving DecidableEq, Repr

/-- Recompute work of a completed group (R167): the flagged n-tiles still to run, the attempt of the first of them (255: the
fallback), whether its grant has come, whether a fallback has been taken, and the largest successful raise of `XBASE`. -/
structure Recomp where
  tiles : List Nat
  attempt : Nat
  granted : Bool
  fallback : Bool
  raised : Nat
  /-- the stamp at which an attempt asked for power -/
  askedAt : Nat
deriving DecidableEq, Repr

/-- The rows of an expert that a source die's tokens took as owner decided: expert, the source's rank and die, k-rank, first
slot, how many. -/
structure Span where
  expert : Nat
  rank : Nat
  die : Nat
  kr : Nat
  base : Nat
  n : Nat
deriving DecidableEq, Repr

/-- `rt.topk` after decode (Table 8-3). -/
structure TopkDesc where
  die : Nat
  vu : Nat
  k : Nat
  gate : Nat
  biasEn : Bool
  maskEn : Bool
  t : Nat
  e : Nat
  logit : Tensor
  bias : Tensor
  mask : Tensor
  choice : Tensor
deriving DecidableEq, Repr

/-- `rt.disp` and `rt.comb` after decode (Table 8-5). -/
structure RouteDesc where
  die : Nat
  global : Bool
  wmode : Bool
  keepRet : Bool
  noSend : Bool
  k : Nat
  group : Nat
  t : Nat
  e : Nat
  choice : Tensor
  map : Tensor
  rows : Tensor
  tab : Tensor
  count : Tensor
  ret : Tensor
  cvt : Cvt
  layer : Nat
  role : Nat
  /-- the offset of the run it was issued in, by which micro-batches in flight differ (R285) -/
  off : Nat
  /-- the tensors of the local experts, as decode found them (R242) -/
  tens : List (Nat × Tensor)
deriving DecidableEq, Repr

/-- What decode made of a routing descriptor: its formats and its conversion stay as they were then (R164, R242). -/
inductive RouteOp where
  | none
  | topk (d : TopkDesc)
  | move (d : RouteDesc)
deriving DecidableEq, Repr

/-- A token row as it travels (R228): its format, its codes and its block scales, one for each group of elements; none unscaled. -/
structure RowImg where
  fmt : Nat
  codes : List Nat
  scales : List Nat
deriving DecidableEq, Repr

/-- The layer whose experts' slots a dispatch fills, and the micro-batch in flight. -/
structure RouteKey where
  group : Nat
  layer : Nat
  off : Nat
deriving DecidableEq, Repr

/-- A dispatch or combine that a die has begun in the step (R226): of which layer, and whether the die is silent in it. -/
structure RouteStart where
  key : RouteKey
  wmode : Bool
  comb : Bool
  noSend : Bool
deriving DecidableEq, Repr

/-- A message of routed work on the package fabric (R226): a count block, the counts returned, a row or a returned row, of a dispatch or
combine of a layer, by its number among those of the step, from a die of this module. -/
inductive RouteKind where
  | counts | answer | row | back
deriving DecidableEq, Repr

structure RouteMsg where
  kind : RouteKind
  key : RouteKey
  wmode : Bool
  ord : Nat
  die : Nat
  bytes : List Nat
deriving DecidableEq, Repr

/-- A routing descriptor in progress (Table 8-6): the event it is at (7: done); as owner, the counts received (source rank, die,
expert, k-rank, count), the sources heard, the rows placed and the (expert, slot)s of rows received; as source, what the owners
admitted, the owners heard, and the rows returned (expert, slot, none where lost); whether it has asked for power and been
granted; what it has raised; what decode made of it; whether its wait for counts has expired (R237); whether some source holds
choices that are still PENDING (R233); its number among the step's of its layer; and the (token, k-rank)s that it found PENDING, and
whether it has settled them. -/
structure RouteRun where
  event : Nat
  counts : List (Nat × Nat × Nat × Nat × Nat)
  heard : List (Nat × Nat)
  spans : List Span
  decided : Bool
  rowsIn : List (Nat × Nat)
  expired : Bool
  admitted : List Span
  owners : List (Nat × Nat)
  sent : Bool
  returns : List (Nat × Nat × Option RowImg)
  asked : Bool
  granted : Bool
  stat : Nat
  dropped : Nat
  tokDropped : Nat
  skipped : Nat
  /-- copies that `rt.exloop` has written; tokens whose rows `rt.topk` or `rt.disp`, slots whose rows `rt.comb`, has done -/
  next : Nat
  op : RouteOp
  countsLate : Bool
  fresh : Bool
  ord : Nat
  pend : List (Nat × Nat)
  settled : Bool
deriving DecidableEq, Repr

def RouteRun.reset : RouteRun :=
  ⟨0, [], [], [], false, [], false, [], [], false, [], false, false, 0, 0, 0, 0, 0, .none, false, false, 0, [], false⟩

/-- Table 12-6 after decode: a collective. -/
structure CollDesc where
  opc : Nat
  group : Nat
  redOp : Nat
  algo : Nat
  tc : Nat
  wrz : Bool
  wireFmt : Nat
  dieMask : Nat
  root : Nat
  src : Tensor
  dst : Tensor
  timeout : Nat
  elems : Nat
  id : Nat
  srcE0 : Nat
  dstE0 : Nat
  cvt : Cvt
  layer : Nat
  role : Nat
deriving DecidableEq, Repr

/-- What a descriptor's engine has been given. -/
inductive Work where
  | none
  | pass (d : PassDesc)
  | chain (d : ChainDesc)
  | copy (src dst : Tensor) (scales : Bool) (rows src0 dst0 : Nat) (r : CopyRun)
  | route (r : RouteRun)
  /-- with the rows of its source that it has taken out of a tile buffer -/
  | coll (d : CollDesc) (held : List (Nat × List Nat))
  | over
deriving DecidableEq, Repr

/-- A descriptor between fetch and its record (R247). -/
structure Desc where
  seq : Nat
  slot : Slot
  /-- the 64 bytes, as fetched (and patched by `rt.exloop`) -/
  raw : List Nat
  stage : DStage
  err : Nat
  noop : Bool
  work : Work
  units : Nat
  asked : Bool
  hpWait : Nat
  askedAt : Nat
  status : Nat
  endStamp : Nat
  recomp : Option Recomp
  cowWait : Option Nat
  cowRaised : Bool
deriving DecidableEq, Repr

/-- A run of a queue program (R246, R285): the next word, the offset O, and the descriptors of an `ISSUE` word not yet
copied. -/
structure ProgRun where
  pc : Nat
  off : Nat
  left : Nat
  ended : Bool
deriving DecidableEq, Repr

/-- One queue beyond its registers: its program, its ring, its descriptors in flight (oldest first), its written records
that the core has not freed (oldest first, as the 32 bytes of Table 9-6), and its run. -/
structure QueueSt where
  progFirst : Nat
  progWords : Nat
  ring : List Slot
  live : List Desc
  records : List (List Nat)
  prog : Option ProgRun
  lost : Bool
  /-- the ring's slots as they were last written, by position (R488) -/
  slots : List (Nat × Slot)
deriving DecidableEq, Repr

/-! ## The Lesson, the plan and the Lantern of a die -/

/-- R252: a layer group. -/
structure Group where
  layer : Nat
  role : Nat
  sem : Nat
  descs : List Nat
deriving DecidableEq, Repr

/-- The Lesson a die holds: what Mersene wrote from the image at load (R239). -/
structure Lesson where
  id : Nat
  size : Nat
  /-- offsets in the Lesson store of the DESCRIPTORS and PROGRAM sections, and their counts -/
  descOff : Nat
  descCount : Nat
  progOff : Nat
  progCount : Nat
  layers : Nat
  /-- the 64-byte tensor table entries -/
  tensors : List (List Nat)
  groups : List Group
  seminit : List Nat
deriving DecidableEq, Repr

/-- Table 6-4: a plan entry. Signed fields hold their value. -/
structure Plan where
  fmt : List Nat
  scale : List Nat
  xbase : List Int
  lrExp : Int
  ceil : List Nat
  floor : List Nat
  serial : Bool
  steered : Bool
  fixedP : Bool
  fellBack : List Bool
  hold : Bool
  narrowRun : Nat
  planSeq : Nat
deriving DecidableEq, Repr

/-- The provisional or committed part of a role block (Table 6-1). -/
structure RoleStat where
  amax : Nat
  ovf : Nat
  unf : Nat
  hist : List Nat
deriving DecidableEq, Repr

/-- The layer-wide area (Table 6-1); the sums are the 128-bit registers of R156. -/
structure WideStat where
  agTiles : Nat
  agSum : Nat
  agMax : Nat
  dwSq : Nat
  wSq : Nat
deriving DecidableEq, Repr

/-- Table 6-1: a layer record. -/
structure LayerRec where
  prov : List RoleStat
  comm : List RoleStat
  runmax : List Nat
  pWide : WideStat
  cWide : WideStat
deriving DecidableEq, Repr

/-- Table 3-5: a stream counter table entry. -/
structure Stream where
  next : Nat
  owner : Nat
  owned : Bool
  shared : Bool
deriving DecidableEq, Repr

/-- What Mersene remembers of a layer role on a die within a step: the largest raise of `XBASE` that a retry needed, whether
it raised XOVF or ACC_SAT, and the committed steps in a row without (R166). -/
structure RoleTrack where
  raise : Nat
  high : Bool
  calm : Nat
deriving DecidableEq, Repr

/-- A layer role falling back (R172, R252): its reruns still to record, and the signals held meanwhile, each with the queue of its
descriptor. -/
structure FallRun where
  layer : Nat
  role : Nat
  sem : Nat
  reruns : Nat
  held : List (Nat × Nat)
deriving DecidableEq, Repr

/-- A CD die's place in the step (R285): the slot words still to start, and of the first of them, once it has begun, the queues
still to start; whether the die takes part in the step in progress, has folded its contribution, and has reported apply
complete; the issue epoch when apply began. -/
structure StepRun where
  slots : List Nat
  slot : Option (List Nat)
  active : Bool
  folded : Bool
  applied : Bool
  commitFrom : Nat
deriving DecidableEq, Repr

/-- A compute die beyond its registers and memory. -/
structure DieSt where
  lesson : Option Lesson
  queues : Tab Nat QueueSt
  /-- waiters on the semaphores, in the order they began waiting: (semaphore, queue) (R250) -/
  waiters : List (Nat × Nat)
  /-- descriptors at stage 5, in the order they arrived: (queue, sequence number) (R248) -/
  arrivals : List (Nat × Nat)
  arrays : Tab Nat ArraySt
  vus : Tab Nat VuSt
  layers : Tab Nat LayerRec
  /-- a commit (true) or discard that has not yet taken effect (R158), and what descriptors issued after it have merged -/
  fence : Option Bool
  epoch : Nat
  late : Tab Nat LayerRec
  plan : Tab Nat Plan
  planStep : Tab Nat Plan
  track : Tab (Nat × Nat) RoleTrack
  streams : Tab Nat Stream
  falls : List FallRun
  /-- Lesson descriptors of completed pass groups of the step, in order, with their queue: (layer, role, queue, slot) -/
  doneGroups : List (Nat × Nat × Nat × Slot)
  step : StepRun
  /-- exact sums of the die's check contribution (R269) -/
  normSq : Int
  lossSum : Int
  lossCount : Nat
  corrections : List (Int × Int)
  /-- rows of the experts the die owns, as the layer's last forward dispatch placed them, and (expert, slot)s of those lost on the way
  (R228, R233) -/
  routed : List (RouteKey × Span)
  lostSlots : List (RouteKey × Nat × Nat)
  /-- messages of routed work from the module's dies that no descriptor has taken yet, oldest first (R226) -/
  fabric : List RouteMsg
  /-- the dispatches and combines begun in the step, in order -/
  starts : List RouteStart
  /-- layers of expert templates whose copies were fetched in the step, and whether they had rows (R234) -/
  copies : List (Nat × Bool)
  /-- descriptors issued to the die's queues so far -/
  issued : Nat
deriving DecidableEq, Repr

def Cvt.reset : Cvt := ⟨0, 0, false, 0, 0, false, false, 0, false, 0, 0⟩
def Tensor.none : Tensor := ⟨0, 0, 0, 0, false, false, 0, false, false, false, false, 0, 0, 0, 0, 0, 0, 0, 0, 0⟩
def AccEntry.clear : AccEntry := ⟨0, false, .fin 0 0, .zero, .none, false, false⟩
def ArraySt.reset : ArraySt := ⟨[], none, none⟩
def TbSlot.reset : TbSlot := ⟨false, []⟩
def VuSt.reset : VuSt := ⟨none, [], []⟩
def QueueSt.reset : QueueSt := ⟨0, 0, [], [], [], none, false, []⟩
/-- Table 6-2 gives every byte of a plan entry the reset value 0. -/
def Plan.reset : Plan :=
  ⟨[0, 0, 0], [0, 0, 0], [0, 0, 0], 0, [0, 0, 0], [0, 0, 0], false, false, false, [false, false, false], false, 0, 0⟩
def RoleStat.reset : RoleStat := ⟨0, 0, 0, List.replicate 16 0⟩
def WideStat.reset : WideStat := ⟨0, 0, 0, 0, 0⟩
def LayerRec.reset : LayerRec :=
  ⟨List.replicate 3 RoleStat.reset, List.replicate 3 RoleStat.reset, [0, 0, 0], WideStat.reset, WideStat.reset⟩
def Stream.reset : Stream := ⟨0, 0, false, false⟩
def RoleTrack.reset : RoleTrack := ⟨0, false, 0⟩
def StepRun.reset : StepRun := ⟨[], none, false, false, false, 0⟩
/-- Log 5 (DESIGN CHOICE). -/
def DieSt.reset : DieSt :=
  ⟨none, [], [], [], [], [], [], none, 0, [], [], [], [], [], [], [], StepRun.reset, 0, 0, 0, [], [], [], [], [], [], 0⟩

end Sys2Proof.Machine
end

