-- ==== Sys2Proof/Machine/StateLink.lean ====
section
/-! DEFINITION. The state of the links, of the collective engine and of the generation engine. -/

namespace Sys2Proof.Machine

/-! ## Frames and flits -/

/-- Table 12-4: a frame: its header fields and its payload bytes. -/
structure Frame where
  tc : Nat
  type : Nat
  psel : Nat
  yfirst : Bool
  detour : Bool
  dst : Nat
  src : Nat
  group : Nat
  hop : Nat
  mseq : Nat
  chunk : Nat
  phase : Nat
  ncontrib : Nat
  wireFmt : Nat
  pcrc : Nat
  payload : List Nat
deriving DecidableEq, Repr

/-- A data flit waiting or kept: its class, its place in its frame, its 244 payload bytes, the credits its frame needs before
it may go (R339), and the frame it belongs to. -/
structure Flit where
  tc : Nat
  first : Bool
  last : Bool
  bytes : List Nat
  need : Nat
  frame : Frame
  dim : Option Bool
deriving DecidableEq, Repr

/-- A frame being received: its bytes, its flits' `FSEQ`s, oldest first. -/
structure RxAsm where
  bytes : List Nat
  seqs : List Nat
deriving DecidableEq, Repr

/-- One link beyond its registers: the settings of Table 12-12; the event of Table 12-10 reached and the failed attempts; the
lane pairs that work; sequence numbers and kept flits; flits to resend; credits (sent and freed flits by class, counted from
ACTIVE); transmit queues, control messages waiting, the class whose turn it is and what is left of it; frames being received
and received whole, by class (a fifth slot for a TC0 frame that comes again), and whether the rest of a discarded frame is dropped;
`FSEQ`s of TC0 flits to be accepted again; the rate limits; the last ECHO received. -/
structure LinkSt where
  enable : Bool
  cred : List Nat
  weight : List Nat
  violMax : Nat
  violWindow : Nat
  retrainUncorr : Nat
  event : Nat
  fails : Nat
  pairs : List Bool
  txSeq : Nat
  rxExp : Nat
  kept : List (Nat × Flit)
  resend : List (Nat × Flit)
  peerSeq : Nat
  peerCred : List Nat
  sent : List Nat
  peerFreed : List Nat
  freed : List Nat
  used : List Nat
  queues : List (List Flit)
  ctrl : List (List Nat)
  turn : Nat
  turnLeft : Nat
  asm : List (Option RxAsm)
  skip : List Bool
  ready : List (List RxAsm)
  redo : List Nat
  afterBad : Bool
  lastNak : Option Nat
  uncorr : List Nat
  answered : List Nat
  echoTx : Nat
  echoAt : Nat
  retrained : Bool
  ctrlSeq : Nat
deriving DecidableEq, Repr

/-- Table 12-12's defaults, and a link that has not begun to train. Log 57 (DEDUCED). -/
def LinkSt.reset : LinkSt :=
  { enable := true, cred := [16, 480, 464, 64], weight := [8, 4, 1], violMax := 256, violWindow := 100,
    retrainUncorr := 32, event := 0, fails := 0, pairs := [false, false], txSeq := 0, rxExp := 0,
    kept := [], resend := [], peerSeq := 0, peerCred := [0, 0, 0, 0], sent := [0, 0, 0, 0], peerFreed := [0, 0, 0, 0],
    freed := [0, 0, 0, 0], used := [0, 0, 0, 0], queues := [[], [], [], []], ctrl := [], turn := 1, turnLeft := 0,
    asm := [none, none, none, none, none], skip := [false, false, false, false, false], ready := [[], [], [], []], redo := [], afterBad := false, lastNak := none, uncorr := [],
    answered := [], echoTx := 0, echoAt := 0, retrained := false, ctrlSeq := 0 }

/-! ## Roll Call -/

/-- Table 13-8 with its member table: a communication group. -/
structure GroupEnt where
  id : Nat
  kind : Nat
  member : Bool
  rank : Nat
  parent : Nat
  children : List Nat
  parityK : Nat
  routes : Nat
  epoch : Nat
  barrierSeq : Nat
  /-- coordinates and `MODULE_ID`, in rank order -/
  members : List (Nat × Nat)
deriving DecidableEq, Repr

/-- R383: the Roll Call record. -/
structure RollCall where
  seq : Nat
  coord : Nat
  sx : Nat
  sy : Nat
  mseq : List Nat
  groups : List GroupEnt
deriving DecidableEq, Repr

def RollCall.reset : RollCall := ⟨0, 0, 1, 1, [0, 0, 0, 0], []⟩

/-! ## Collectives (R341 to R348) -/

/-- One chunk at this module: its own contribution once ready, the inputs had so far (sender's rank, contributions, bytes), the
inputs excluded, whether it has been combined and sent on, whether its distributed value has come. -/
structure CollChunk where
  own : Option (List Val)
  inputs : List (Nat × Nat × List Nat)
  excluded : List Nat
  combined : Bool
  dist : Bool
deriving DecidableEq, Repr

def CollChunk.reset : CollChunk := ⟨none, [], [], false, false⟩

/-- A die's descriptor of a collective: its die, queue, sequence number and decoded fields, and the codes of the rows of its source
that it has taken out of a tile buffer. -/
structure CollDie where
  die : Nat
  queue : Nat
  seq : Nat
  d : CollDesc
  held : List (Nat × List Nat)
deriving DecidableEq, Repr

/-- A collective in progress at this module, by group and `COLL_ID`: the dies that have issued it, the dies left out (R344),
whether the module's contribution is formed, its chunks, the dies whose descriptors are complete, and the values (die, element, value)
whose blocks of a destination are not whole yet (R64). -/
structure CollRun where
  group : Nat
  id : Nat
  issued : List CollDie
  leftOut : List Nat
  started : Bool
  chunks : Tab Nat CollChunk
  ended : List Nat
  held : List (Nat × Nat × Val)
deriving DecidableEq, Repr

/-! ## Generations -/

/-- A directory entry (Table 13-7): a tensor's image or a module section (key 0 to 3), where its bytes lie in the slot, and
for an image the tensor as captured. `bad`: `POISONED`. -/
structure Image where
  isSect : Bool
  key : Nat
  die : Nat
  kind : Nat
  rset : Nat
  tensor : Nat
  t : Tensor
  off : Nat
  len : Nat
  crc : Nat
  bad : Bool
  unchanged : Bool
deriving DecidableEq, Repr

/-- Memory lines by number, with their poison marks. -/
abbrev Lines := Tab Nat (List Nat × Bool)

/-- One extent owed to a peer and not acknowledged (R375): peer rank, kind, the rank whose data it is, section flag, key, die,
offset, times sent. -/
structure Extent where
  peer : Nat
  kind : Nat
  origin : Nat
  isSect : Bool
  key : Nat
  kdie : Nat
  offset : Nat
  sent : Nat
deriving DecidableEq, Repr

/-- A BULK data frame received: its sender's rank, its kind, the rank whose data it is, what it is a part of, its offset, its
lines, and whether it is the last of its extent. -/
structure RxFrame where
  rank : Nat
  kind : Nat
  origin : Nat
  isSect : Bool
  key : Nat
  kdie : Nat
  offset : Nat
  lines : Nat
  last : Bool
deriving DecidableEq, Repr

/-- A generation slot (R365, R366, Table 13-6): its record's fields; the directory; the memory lines the drain has still to copy
(image, line) and the sealed contents of lines written since the seal (R370); the PROTECT group at the seal; the extents owed,
and whether one has failed; the lines of the mirror area in the order of their places, each by (section?, key, die, line), the q
of the strips of the parity area in the order of their places, those formed from full strips only, and the frames received. -/
structure GenSlot where
  state : Nat
  flags : Nat
  rank : Nat
  gen : Nat
  base : Nat
  step : Nat
  jobId : Nat
  planSeq : Nat
  rcSeq : Nat
  sealStamp : Nat
  localStamp : Nat
  digest : Nat
  lessonIds : List Nat
  ttId : Nat
  images : List Image
  todo : List (Nat × Nat)
  pool : Lines
  protect : Option GroupEnt
  extents : List Extent
  failed : Bool
  mirror : List (Bool × Nat × Nat × Nat)
  parity : List Nat
  full : List Nat
  rx : List RxFrame
deriving DecidableEq, Repr

def GenSlot.reset : GenSlot :=
  { state := 0, flags := 0, rank := 0, gen := 0, base := 0, step := 0, jobId := 0, planSeq := 0, rcSeq := 0, sealStamp := 0,
    localStamp := 0, digest := 0, lessonIds := [], ttId := 0, images := [], todo := [], pool := [], protect := none,
    extents := [], failed := false, mirror := [], parity := [], full := [], rx := [] }

/-- Data a replacement still waits for (R386): from a peer, an extent of a strip or of another part, and whose data it is. -/
structure Want where
  rank : Nat
  strip : Bool
  origin : Nat
  isSect : Bool
  key : Nat
  kdie : Nat
  offset : Nat
deriving DecidableEq, Repr

/-- A restore in progress (R385 to R388): its generation, the replacements (`MODULE_ID`, coordinates), whether this module is
one of them, what it still waits for, the PARITY and REPLICA images it rebuilds (die, key), whether the local restore and the replay are done, the Roll Call digests of the children
(rank, digest, whether digests below differed), this module's own, and the root's answer; whether REQUESTs have gone out; the lines that have come for images that several answers
together rebuild, by the rank that sent a whole copy (none: the strips folded together) and their place in far memory. -/
structure RestoreRun where
  gen : Nat
  repl : List (Nat × Nat)
  replacement : Bool
  want : List Want
  rebuild : List (Nat × Nat)
  isLocal : Bool
  replayed : Bool
  digests : List (Nat × Nat × Bool)
  own : Nat
  answer : Option Bool
  asked : Bool
  heap : Tab (Option Nat × Nat) (List Nat × Bool)
deriving DecidableEq, Repr

/-- The Satchel engine of HB (R360 to R393): the slots; the slot draining, whether its grant has come and whether it has begun;
the grant for protection traffic; the 64 KiB granules written in this step, the largest count of a tensor's granules written in
one step since the last seal (R363), the granules written since; the next generation's number; SEAL_NOW and a SEAL_REQ carried
over; this boundary's own durability report and those of the children; a hold to be completed, a restore in progress, whether
one has ended; settings in force and awaiting the boundary; the durations of the last 64 committed steps (µs), and their sum
and number at the last seal; precursor events by their hour; C, and the cost of the newest generation so far (µs); the replica
digests of other members: generation, `RSET`, rank, digest (R382); Roll Call digests that came before a restore of this module could
take them: rank, digest, whether digests below differed (R387). -/
structure GenSt where
  slots : List GenSlot
  drain : Option Nat
  granted : Bool
  started : Bool
  protGrant : Bool
  written : List Nat
  change : Tab (Nat × Nat) Nat
  changedSince : List Nat
  nextGen : Nat
  sealNow : Bool
  sealCarried : Bool
  report : Option (Nat × Nat)
  reports : Tab Nat (Nat × Nat)
  holdDue : Bool
  restore : Option RestoreRun
  restored : Bool
  set : List Nat
  setNext : List Nat
  durations : List Nat
  sealSum : Nat
  sealCount : Nat
  precursors : List Nat
  costUs : Nat
  costNew : Option Nat
  digests : List (Nat × Nat × Nat × Nat)
  rollEarly : List (Nat × Nat × Bool)
deriving DecidableEq, Repr

/-- Table 13-11: GEN_ENABLE, GEN_INTERVAL, INTERVAL_MIN, INTERVAL_MAX, FLEET_MTBF, PRECURSOR_RATIO, MIRROR_MAX_MIB,
MIRROR_CHANGE_PCT. -/
def genDefaults : List Nat := [1, 0, 1, 10000, 86400, 20, 256, 20]

/-- Log 130 (DEDUCED). -/
def GenSt.reset : GenSt :=
  { slots := [GenSlot.reset, GenSlot.reset], drain := none, granted := false, started := false, protGrant := false, written := [],
    change := [], changedSince := [], nextGen := 1, sealNow := false, sealCarried := false, report := none, reports := [],
    holdDue := false, restore := none, restored := false, set := genDefaults, setNext := genDefaults, durations := [], sealSum := 0,
    sealCount := 0, precursors := [], costUs := 50000, costNew := none, digests := [], rollEarly := [] }

end Sys2Proof.Machine
end

