-- ==== Sys2Proof/Machine/StateHost.lean ====
section
/-! DEFINITION. The state of HD that the host and Mersene share: the job, the check, the Hall Pass arbiter, the mailboxes,
the event ring, the CXL function, the sideband and what leaves the module. -/

namespace Sys2Proof.Machine

/-! ## The Hall Pass arbiter (R259 to R261) -/

/-- Who asks for power units: a descriptor of a queue, a recompute attempt of one, the drain, the protection traffic. -/
inductive HpWho where
  | desc (die queue seq : Nat)
  | attempt (die queue seq : Nat)
  | drain
  | protect
deriving DecidableEq, Repr

/-- A request for power units. -/
structure HpReq where
  who : HpWho
  prio : Nat
  units : Nat
  beats : Nat
deriving DecidableEq, Repr

/-- The arbiter: one FIFO of requests (each priority's order is the list's), the requests too large for the budget, and the
units held. -/
structure HpSt where
  fifo : List HpReq
  oversize : List HpReq
  held : List (HpWho × Nat)
deriving DecidableEq, Repr

def HpSt.reset : HpSt := ⟨[], [], []⟩

/-! ## The check token (R269 to R282) -/

/-- Table 10-2: a check token; the sums are the 320-bit registers as integers in units of 2^-149. -/
structure Token where
  step : Nat
  planSeq : Nat
  digest : Nat
  flags : Nat
  modules : Nat
  dropped : Nat
  normSq : Int
  lossSum : Int
  lossCount : Nat
deriving DecidableEq, Repr

/-- R291: a step record. -/
structure StepRec where
  step : Nat
  attempt : Nat
  outcome : Nat
  nonfiniteRun : Nat
  flags : Nat
  planSeq : Nat
  gnorm : Nat
  clip : Nat
  loss : Nat
  modules : Nat
  genAdvance : Nat
  genDigest : Nat
  checkUs : Nat
  dropped : Nat
deriving DecidableEq, Repr

/-- Table 6-6: one entry of a proposal: formats, fell back, scales, window bases, learning-rate exponent. -/
structure PlanProp where
  fmt : List Nat
  fell : Bool
  scale : List Nat
  xbase : List Int
  lrExp : Int
deriving DecidableEq, Repr

/-- A Timetable (R284) as loaded: the die records, the stage records and the slot words. -/
structure DieRec where
  lessonId : Nat
  pre : Nat
  apply : Nat
  normTens : Nat
  lossTens : Nat
  slotFirst : Nat
  slotCount : Nat
  active : Bool
deriving DecidableEq, Repr

structure StageRec where
  teacher : Bool
  pos : Nat
  stride : Nat
  fwd : List Nat
  bwd : List Nat
deriving DecidableEq, Repr

structure Timetable where
  id : Nat
  nbuf : Nat
  nmb : Nat
  lossV : Nat
  dies : List DieRec
  stages : List StageRec
  slots : List Nat
deriving DecidableEq, Repr

/-- Where the step of the module stands. -/
inductive StepPhase where
  | idle | running | checking | applying
deriving DecidableEq, Repr

/-- The job and its steps. -/
structure JobSt where
  inJob : Bool
  id : Nat
  seed : Nat
  dpSize : Nat
  secureOnly : Bool
  /-- Table 6-8's settings in force and awaiting the plan update, Table 10-16's in force and awaiting the boundary -/
  policy : List Nat
  policyNext : List Nat
  stepSet : List Nat
  stepNext : List Nat
  timetable : Option Timetable
  timetableNext : Option Timetable
  step : Nat
  attempt : Nat
  runLeft : Nat
  phase : StepPhase
  /-- hold at the boundary: after a stop, a mismatch or before the first step -/
  held : Bool
  stopReq : Bool
  /-- this module's token, whether it has left HB and when (HD stamp), the tokens of the children by rank, whether the combined
  token has gone up, and the verdict this module formed as root -/
  own : Option Token
  tokenSent : Bool
  sentStamp : Nat
  children : Tab Nat Token
  up : Bool
  verdict : Option Token
  planSeq : Nat
  /-- a proposal is due; a round of proposals is on; the proposals accepted by rank, the ranks heard of, the messages that came a
  step early, and the combined plan -/
  propDue : Bool
  propRound : Bool
  proposals : List (Nat × List PlanProp)
  heard : List Nat
  early : List (Nat × List Nat)
  combined : Option (List PlanProp)
  propDropped : Nat
  /-- roles that fell back in the last step (layer, role, widest format used), the affected layers of an alarm (R185), and by
  (layer, role) the raises of the last committed step, the calm steps of R166 and the clean steps of R178 -/
  fell : List (Nat × Nat × Nat)
  alarmLayers : List Nat
  /-- what the narrowing and relaxing rules remember besides: the roles whose window base is due to fall (R166), the idle layers of the last
  committed step (R234), whether that step has been counted in `narrow` (R178), and what the proposal on its way holds of the falls,
  of the moves of `LR_EXP` and of the alarm's layers -/
  fallDue : List (Nat × Nat)
  idle : List Nat
  runCounted : Bool
  propFalls : List (Nat × Nat)
  propLr : Tab Nat Int
  propAlarm : List Nat
  /-- events of Table 6-9 by their host event code (R188) -/
  planEvents : Tab Nat Nat
  raise : Tab (Nat × Nat) Nat
  calm : Tab (Nat × Nat) Nat
  narrow : Tab (Nat × Nat) Nat
  holdLeft : Nat
  calDone : Nat
  calHist : Tab (Nat × Nat) (List Nat)
  calMax : Tab Nat Nat
  calRaise : Tab (Nat × Nat) Nat
  calRunmax : Tab (Nat × Nat) Nat
  fixedAgreed : Bool
  /-- the window of R177: whether every step so far was low and any high, by layer, its steps, and the moves it ended with -/
  urLow : Tab Nat Bool
  urHigh : Tab Nat Bool
  urCount : Nat
  lrMove : Tab Nat Int
  fallbacks : Nat
  exhausted : Nat
  noRecompute : Nat
  dropped : Nat
  streamAdvance : Nat
  recs : Tab Nat StepRec
  recNext : Nat
  roll : RollCall
  stepStamp : Nat
  /-- microseconds from the module token to the verdict in `CHK_VERDICT` (R291) -/
  checkUs : Nat
  /-- did the step begin while the newest generation drained or was unprotected (R379)? -/
  during : Bool
  affectMaps : List (List Nat)
deriving DecidableEq, Repr

/-- Table 6-8 in ID order (Table 15-4): `PLAN_MODE` 1 is FIXED; `LR_MIN` as 32-bit two's complement. -/
def policyDefaults : List Nat := [1, 2, 256, 3, 3, 8, 1, 10, 256, 64, 256, 0, 4, 64, 4, 6, 0xFFFFFFFE, 2]
/-- Table 10-16: `CLIP_EN`, `CLIP_MAX`, `CHECK_TIMEOUT`. -/
def stepDefaults : List Nat := [0, 0x3F800000, 100]

def JobSt.reset : JobSt :=
  { inJob := false, id := 0, seed := 0, dpSize := 0, secureOnly := false, policy := policyDefaults,
    policyNext := policyDefaults, stepSet := stepDefaults, stepNext := stepDefaults, timetable := none,
    timetableNext := none, step := 0, attempt := 0, runLeft := 0, phase := .idle, held := true, stopReq := false,
    own := none, tokenSent := false, sentStamp := 0, children := [], up := false, verdict := none, planSeq := 0, propDue := false,
    propRound := false, proposals := [], heard := [], early := [], combined := none, propDropped := 0, fell := [], alarmLayers := [],
    fallDue := [], idle := [], runCounted := true, propFalls := [], propLr := [], propAlarm := [], planEvents := [], calRunmax := [],
    raise := [], calm := [], narrow := [], holdLeft := 0, calDone := 0, calHist := [], calMax := [], calRaise := [],
    fixedAgreed := false, urLow := [], urHigh := [], urCount := 0, lrMove := [], fallbacks := 0, exhausted := 0, noRecompute := 0,
    dropped := 0, streamAdvance := 0, recs := [], recNext := 0, roll := RollCall.reset, stepStamp := 0, checkUs := 0, during := false,
    affectMaps := [] }

/-! ## The host side -/

/-- An event entry (Table 14-13), without its SEQ's place in the ring. -/
structure Event where
  code : Nat
  cls : Nat
  remote : Bool
  seq : Nat
  stamp : Nat
  die : Nat
  unit : Nat
  coord : Nat
  payload : List Nat
deriving DecidableEq, Repr

/-- A pin of the boundary register (Table 19-8). -/
inductive BPin where
  | modrst
  | pcap (i : Nat)
  | pbrake
  | modpg
  | perst
  | scl
  | sda
  | flFree
  | cxl (k : Nat)
  | lane (x k : Nat)
deriving DecidableEq, Repr

/-- What a boundary-scan output does: nothing, a level, or the pulse or pulse train of 1149.6. -/
inductive Drive where
  | off
  | level (b : Bool)
  | pulse (b : Bool)
  | train (b : Bool)
deriving DecidableEq, Repr

/-- What leaves the module, in the order it left. Log 139 (DESIGN CHOICE). -/
inductive Output where
  /-- an MSI-X message of a vector (R409) -/
  | msix (vector : Nat)
  /-- an in-band interrupt of the sideband (R417): its bytes -/
  | ibi (bytes : List Nat)
  /-- the 256 bytes of a flit sent on a link -/
  | flit (link : Nat) (bytes : List Nat)
  /-- a write into a host buffer over CXL.cache -/
  | hostWrite (addr : Nat) (bytes : List Nat)
  /-- bytes answered to a host or sideband read, or to a configuration request -/
  | answer (bytes : List Nat)
  /-- data of a host read of the window, and the lines of it that carry the poison indication -/
  | memData (bytes : List Nat) (poisoned : List Nat)
  /-- Configuration Request Retry Status -/
  | crs
  /-- an SPDM response -/
  | spdm (code : Nat) (bytes : List Nat)
  /-- a back-invalidate snoop of a host line (R401) -/
  | biSnoop (line : Nat)
  /-- a signal of the connector -/
  | pin (name : String) (level : Bool)
  /-- what boundary scan drives on each output pin (R525) -/
  | boundary (pins : List (BPin × Drive))
  /-- bits shifted out of TDO, the first bit first -/
  | tdo (bits : List Bool)
  /-- a response of Mersene to a peer, or a frame's message handed to a consumer outside the spec -/
  | peer (link : Nat) (bytes : List Nat)
deriving DecidableEq, Repr

/-- The mailbox message Mersene has taken on a channel: its words as sent, and its stamp. -/
structure Message where
  chan : Nat
  words : List Nat
  stamp : Nat
deriving DecidableEq, Repr

/-- HD's host interface. -/
structure HostSt where
  /-- channels whose GO waits for Mersene, in order (R406) -/
  waiting : List Nat
  taken : List Message
  /-- channels released while BUSY (R405), and HOST channels released by FLR whose doorbell is not set (R414) -/
  releasing : List Nat
  quiet : List Nat
  long : Option Message
  ring : Tab Nat Event
  seq : Nat
  alarms : List Event
  /-- alarms of this module that TC0 has still to carry -/
  relay : List Event
  shedFirst : Option Nat
  shedLast : Nat
  shed : List Nat
  oldest : Nat
  msixMask : List Nat
  msixPend : List Nat
  /-- MSI-X: its Enable and Function Mask bits -/
  msixEnable : Bool
  msixFmask : Bool
  config : Tab Nat Nat
  /-- the function is in D3hot (R394) -/
  d3 : Bool
  /-- the DOE mailbox: the double words written, those still to be read, an error (R394) -/
  doeReq : List Nat
  doeResp : List Nat
  doeError : Bool
  linkTrained : Bool
  perst : Bool
  cxlOn : Bool
  width : Nat
  rate : Nat
  decoder : Option (Nat × Nat)
  /-- the window that was committed at the last module reset: base and size, until far memory is initialised (R401) -/
  oldWindow : Option (Nat × Nat)
  decoderErr : Bool
  devCache : List Nat
  sbOffset : Nat
  sbAddressed : Bool
  latch : Tab (Blk × Nat × Nat) Nat
deriving DecidableEq, Repr

/-- Log 5 (DESIGN CHOICE). Log 38 (PRESUMED). -/
def HostSt.reset : HostSt :=
  { waiting := [], taken := [], releasing := [], quiet := [], long := none, ring := [], seq := 0, alarms := [], relay := [],
    shedFirst := none, shedLast := 0, shed := [0, 0, 0], oldest := 0, msixMask := List.range 32, msixPend := [],
    msixEnable := false, msixFmask := false, config := [], d3 := false, doeReq := [], doeResp := [], doeError := false, linkTrained := false, perst := true, cxlOn := false, width := 0, rate := 0,
    decoder := none, decoderErr := false, oldWindow := none, devCache := [], sbOffset := 0, sbAddressed := false, latch := [] }

end Sys2Proof.Machine
end

