-- ==== Sys2Proof/Machine/StateSys.lean ====
section
/-! DEFINITION. The state of the module as a whole: its security processor, its flash, its trace, its TAP, its power and
reset. -/

namespace Sys2Proof.Machine

/-! ## Security and update (sections 16) -/

/-- R448: what a protected record says: `ACTIVE_BANK`, `STAGED`, `ROOT_REVOKE`, `LMS_EPOCH`, `MIN_SVN`, `RESERVED_END`. -/
structure ProtRec where
  active : Nat
  staged : Nat
  revoke : Nat
  epoch : Nat
  minSvn : Nat
  reservedEnd : Nat
deriving DecidableEq, Repr

def ProtRec.reset : ProtRec := ⟨0, 0, 0, 0, 0, 0⟩

/-- The events of Table 16-5 behind the module: the ROM runs, the secret is rebuilt, the record is found, the manifest is
verified, the HD firmware runs, the images are loaded; or boot ended in FAULT. -/
inductive BootPhase where
  | off | rom | puf | record | manifest | firmware | images | fault
deriving DecidableEq, Repr

/-- An SPDM session: whether finished, and its number of messages. -/
structure Session where
  id : Nat
  finished : Bool
  keyGen : Nat
deriving DecidableEq, Repr

/-- An array's entry of the repair map: its failed rows, in ascending order, and whether a column or a completion path of it has
failed (R116, R117). -/
structure RepairEnt where
  rows : List Nat
  badPath : Bool
deriving DecidableEq, Repr

/-- R117: more than two failed rows, or any failed column or completion path, retires the array. -/
def RepairEnt.retired (r : RepairEnt) : Bool := decide (2 < r.rows.length) || r.badPath

/-- The logical row that spare row `i` serves: each of at most two failed rows of an array that is not retired takes a spare. -/
def RepairEnt.spare (r : RepairEnt) (i : Nat) : Option Nat := if r.retired then none else r.rows[i]?

/-- The security processor and the update: whether the keys stand in the key store and the root secret, `MODULE_ID`, boot's
phase, the bank in hand, the banks that failed and the code of the last failure, the bank running; the record in force, the
latched copy (R456), the flash counter and the next record slot; whether attestation is refused for ever and why; the next
LMS leaf and whether the leaves are used up; whether ATTEST_DISABLED waits for READY (R528); the stamp of the last report; the running manifest and image bytes measured;
SPDM's progress, sessions and IDE streams in the secure state; the update state of R465 with the outcome, `WHEN`, the package
being staged; the settings' format versions, of the running firmware and of the one that wrote the records of the flash (R464);
and the flash's typed tables, the learned one with its authentication tag (R319, R440). -/
structure SecSt where
  keys : Bool
  root : List Nat
  pufDone : Bool
  moduleId : Nat
  boot : BootPhase
  bank : Nat
  tried : List Nat
  failCode : Nat
  fallback : Bool
  fromStaged : Bool
  record : ProtRec
  latched : Option ProtRec
  rpmc : Nat
  recSlot : Nat
  idMismatch : Bool
  attestOff : Bool
  attestDue : Bool
  lmsOut : Bool
  leaf : Nat
  lastReport : Option Nat
  manifest : List Nat
  images : List (List Nat)
  opened : Bool
  spdm : Nat
  answers : Nat
  sessions : List Session
  ide : List Nat
  updState : Nat
  updWhen : Nat
  package : List Nat
  updBusy : Bool
  hoReady : Bool
  hoReset : Nat
  fmts : List Nat
  recFmts : List Nat
  learned : Tab Nat (Nat × Nat)
  learnedTag : List Nat
  learnedBad : Bool
  repairLog : List Nat
  fabDelay : Tab Nat Nat
  repairMap : Tab Nat RepairEnt
deriving DecidableEq, Repr

/-- Log 4 (DESIGN CHOICE). -/
def SecSt.reset : SecSt :=
  { keys := false, root := [], pufDone := false, moduleId := 0, boot := .off, bank := 0, tried := [], failCode := 0,
    fallback := false, fromStaged := false, record := ProtRec.reset, latched := none, rpmc := 0, recSlot := 0,
    idMismatch := false, attestOff := false, attestDue := false, lmsOut := false, leaf := 0, lastReport := none, manifest := [], images := [],
    opened := false, spdm := 0, answers := 0, sessions := [], ide := [], updState := 0, updWhen := 0, package := [],
    updBusy := false, hoReady := false, hoReset := 0, fmts := [], recFmts := [], learned := [], learnedTag := [], learnedBad := false, repairLog := [],
    fabDelay := [], repairMap := [] }

/-! ## Trace (section 17) -/

/-- Table 17-4: a trace record in a FIFO: its class, its `SRC_SEQ` and its 64 bytes. -/
structure TraceRec where
  cls : Nat
  seq : Nat
  bytes : List Nat
deriving DecidableEq, Repr

/-- A trace source's FIFO. -/
structure TraceFifo where
  recs : List TraceRec
  seq : Nat
  /-- records shed since the last summary: whether any, the first and last `SRC_SEQ`, the counts of classes 1 to 4 -/
  lossDue : Bool
  first : Nat
  last : Nat
  lost : List Nat
  /-- class-0 records that found no entry, whose producers wait: unit, type, payload (R477) -/
  waiting : List (Nat × Nat × List Nat)
deriving DecidableEq, Repr

def TraceFifo.reset : TraceFifo := ⟨[], 0, false, 0, 0, [0, 0, 0, 0], []⟩

/-- A trace ring of the collector: the records written before its trigger and from it on, and whether ring 0's firing makes
the next record it accepts its trigger (R473, R474). -/
structure TraceRing where
  pre : Nat
  post : Nat
  due : Bool
deriving DecidableEq, Repr

def TraceRing.reset : TraceRing := ⟨0, 0, false⟩

/-- The trace system: FIFOs by die, the trace buffer by slot, the rings, the next `SRC_SEQ` expected of each source (module,
die), the dumps not yet announced (slot, cause, sequence) and their count, the records waiting to be forwarded, and the
cores halted (core, core whose breakpoint hit), a core being 4 n + x. -/
structure TraceSt where
  fifos : Tab Nat TraceFifo
  buf : Tab Nat (List Nat)
  rings : Tab Nat TraceRing
  expect : Tab (Nat × Nat) Nat
  dumps : List (Nat × Nat × Nat)
  dumpSeq : Nat
  fwd : TraceFifo
  halts : List (Nat × Nat)
deriving DecidableEq, Repr

/-- Log 5 (DESIGN CHOICE). -/
def TraceSt.reset : TraceSt :=
  { fifos := [], buf := [], rings := [], expect := [], dumps := [], dumpSeq := 0, fwd := TraceFifo.reset, halts := [] }

/-! ## The TAP (section 19) -/

/-- The instructions of Table 19-6 by code. -/
structure TapSt where
  on : Bool
  ir : Nat
  preload : List Bool
  dr : Nat
  opened : Bool
  erasing : Bool
  pending : Bool
  recordFail : Bool
  pinsTaken : Bool
deriving DecidableEq, Repr

/-- Log 5 (DESIGN CHOICE). -/
def TapSt.reset : TapSt :=
  { on := false, ir := 0, preload := [], dr := 0, opened := false, erasing := false, pending := false,
    recordFail := false, pinsTaken := false }

/-! ## Power (section 18) -/

/-- Power and reset: VIN (10 mV) and its trouble, whether the converters run, the event of Table 18-6 reached, whether a
trip or a dip keeps the module off, the pins, the reset cause, PCAP samples (newest first), measured powers (0.1 W) with the
last eight values of P_in - 0.5 W × ρ × G, P_idle, the temperature of the hottest junction, the clamp episode (cap at
engagement, lowest setpoint, its ρ), the planned setpoints and present outputs in mV by die, the taps by die and whether a die
passed 1,000, what each regulator reported last (mV, mA, °C) and each monitor of a die (slack, delay), the setpoints and taps that
the flash records, hours of operation and at the last re-plan, the memory bring-up (stacks done; far event by channel: 1..7, 8
failed; channels in self-refresh; channels tried and the settings of each), the causes of a reset in progress. -/
structure PowerSt where
  vin : Nat
  on : Bool
  event : Nat
  tripped : Bool
  modrst : Bool
  modpg : Bool
  brake : Bool
  flFree : Bool
  cause : Nat
  capCause : Nat
  pcap : List Nat
  pin : Nat
  pcd : Nat
  pIdle : Nat
  base8 : List Int
  tj : Nat
  hot : List Nat
  clampCap : Nat
  clampLow : Nat
  vset : Tab Nat Nat
  vnow : Tab Nat Nat
  taps : Tab Nat Nat
  eol : List Nat
  rails : Tab Rail (Nat × Nat × Nat)
  monitors : Tab Nat (List (Nat × Nat))
  planned : Tab Nat (Nat × Nat)
  hours : Nat
  replanHours : Nat
  nmDone : List Nat
  fcEvent : Tab Nat Nat
  refresh : List Nat
  full : List Nat
  settings : Tab Nat Nat
  dead : List Nat
deriving DecidableEq, Repr

/-- Log 5 (DESIGN CHOICE). -/
def PowerSt.reset : PowerSt :=
  { vin := 0, on := false, event := 0, tripped := false, modrst := false, modpg := false, brake := false, flFree := false,
    cause := 0, capCause := 0, pcap := [], pin := 0, pcd := 0, pIdle := 0, base8 := [], tj := 0, hot := [], clampCap := 0,
    clampLow := 0, vset := [], vnow := [], taps := [], eol := [], rails := [], monitors := [], planned := [], hours := 0, replanHours := 0, nmDone := [], fcEvent := [],
    refresh := [], full := [], settings := [], dead := [] }

end Sys2Proof.Machine
end

