-- ==== Sys2Proof/Machine/State.lean ====
section
/-! DEFINITION. The state of the module, and its reset. -/

namespace Sys2Proof.Machine

/-- A frame of TC0 that waits for a link (R340). -/
structure HeldFrame where
  /-- the dimension the frame travels in already, if any -/
  dim : Option Bool
  frame : Frame
deriving DecidableEq, Repr

/-- A barrier token that has come (R341): group, the sender's rank, the barrier's sequence number. -/
structure BarrierTok where
  group : Nat
  rank : Nat
  seq : Nat
deriving DecidableEq, Repr

/-- Everything but the contents of addressed memory: registers by field, the units' own state, which lines of memory are
poisoned, the event stamps, the counter of free values, and what has left the module. -/
structure Ctl where
  regs : Tab RKey Nat
  dies : Tab Nat DieSt
  links : Tab Nat LinkSt
  held : List HeldFrame
  /-- `MSEQ`s of the last 4,096 TC0 frames delivered, by source (R340) -/
  seen : Tab Nat (List Nat)
  colls : List CollRun
  barriers : List BarrierTok
  hp : HpSt
  job : JobSt
  gen : GenSt
  host : HostSt
  sec : SecSt
  trace : TraceSt
  tap : TapSt
  pow : PowerSt
  flash : List Host.Cell
  poison : List Nat
  stamps : Tab Nat Nat
  free : Nat
  out : List Output
deriving DecidableEq, Repr

/-- The module: its control state and the bytes of its device physical address space (Table 11-2). -/
structure Module where
  ctl : Ctl
  mem : List Host.Cell
deriving DecidableEq, Repr

/-- The state of the block: the module, and the commands that wait, first in, first out. -/
structure State where
  m : Module
  pending : List Instr
deriving DecidableEq, Repr

/-- No command of this block ends in a fault: every error the spec names is an effect on the state. -/
inductive Fault where
  /-- Raised by no meaning: the block has no fault of its own. Safe. -/
  | none
deriving DecidableEq, Repr

/-- Why a command has no meaning here. -/
inductive Refusal where
  /-- A command whose meaning is not written, by its mnemonic; raised by the dispatch alone. Safe. -/
  | notModelled (mnemonic : String)
deriving DecidableEq, Repr

/-- Right after reset, every register field reads its Reset entry (no entry is listed in `regs`), no unit has begun anything,
memory lists nothing, and the module is without input power, before event 1 of Table 18-6. Log 5 (DESIGN CHOICE). -/
def Ctl.reset : Ctl :=
  { regs := [], dies := [], links := [], held := [], seen := [], colls := [], barriers := [], hp := HpSt.reset,
    job := JobSt.reset, gen := GenSt.reset, host := HostSt.reset, sec := SecSt.reset, trace := TraceSt.reset,
    tap := TapSt.reset, pow := PowerSt.reset, flash := [], poison := [], stamps := [], free := 0, out := [] }

/-- The state right after reset. Log 5 (DESIGN CHOICE). -/
def State.reset : State := ⟨⟨Ctl.reset, []⟩, []⟩

end Sys2Proof.Machine
end

