-- ==== Sys2Proof/Machine/Regs.lean ====
section
/-! DEFINITION. Reading and writing register fields (R8) and the words they stand in. -/

namespace Sys2Proof.Machine

/-- How many elements a repeated field has. -/
def Fld.count (f : Fld) : Nat :=
  if f.stride = 0 then 1 else
    match f.blk with
    | .gen => 64
    | .vu => if f.off = 0x1000 then 8192 else 4
    | .que => if f.stride = 0x40 then 64 else if f.off = 0x3000 then 96 else 256
    | .chk => 64
    | .mb => 16
    | .uc => 32
    | .bp => 4
    | .tr => 4
    | _ => 1

/-- Where element `idx` of a field of block instance `inst` is stored. -/
def Fld.key (f : Fld) (inst idx : Nat) : RKey := ⟨f.blk, inst, f.off + f.stride * idx, f.lo⟩

/-- The reset value of a field, where the tables let it depend on the element or the instance (Tables 17-10, 14-6). -/
def Fld.resetOf (f : Fld) (inst idx : Nat) : Nat :=
  if f = Fld.tr_TR_GEOM_BASE then 0x20 * idx
  else if f = Fld.tr_TR_FILTER_CLASS_MASK then [0x07, 0x02, 0x08, 0x10].getD idx 0
  else if f = Fld.tr_TR_TRIG_ON_ALARM then (if idx = 0 then 1 else 0)
  else if f = Fld.tr_TR_TRIG_WITH0 then (if idx = 0 then 0 else 1)
  else if f = Fld.mb_MB_CLASS_CLASS_MASK then (if inst < 16 then 1 else if inst < 18 then 2 else if inst < 26 then 4 else 8)
  else f.rst

/-- A field's value. -/
def Ctl.rd (c : Ctl) (f : Fld) (inst : Nat := 0) (idx : Nat := 0) : Nat :=
  Tab.get (f.resetOf inst idx) c.regs (f.key inst idx)

/-- Give a field a value, cut to its width. -/
def Ctl.wr (c : Ctl) (f : Fld) (v : Nat) (inst : Nat := 0) (idx : Nat := 0) : Ctl :=
  { c with regs := c.regs.set (f.key inst idx) (v % 2 ^ f.width) }

/-- Give a one-bit field a value. -/
def Ctl.wrB (c : Ctl) (f : Fld) (b : Bool) (inst : Nat := 0) (idx : Nat := 0) : Ctl := c.wr f (b2n b) inst idx

/-- Is a one-bit field 1? -/
def Ctl.on (c : Ctl) (f : Fld) (inst : Nat := 0) (idx : Nat := 0) : Bool := c.rd f inst idx == 1

/-- Add to a saturating counter. -/
def Ctl.bump (c : Ctl) (f : Fld) (inst : Nat := 0) (idx : Nat := 0) (n : Nat := 1) : Ctl :=
  c.wr f (min (c.rd f inst idx + n) (2 ^ f.width - 1)) inst idx

/-- Add to a counter that wraps. -/
def Ctl.add (c : Ctl) (f : Fld) (n : Nat) (inst : Nat := 0) (idx : Nat := 0) : Ctl :=
  c.wr f (c.rd f inst idx + n) inst idx

/-- Return a field to its Reset entry. -/
def Ctl.unset (c : Ctl) (f : Fld) (inst : Nat := 0) (idx : Nat := 0) : Ctl :=
  { c with regs := c.regs.del (f.key inst idx) }

/-- Return every field of one block instance, or of a block, to its Reset entry. -/
def Ctl.clearBlk (c : Ctl) (b : Blk) (inst : Option Nat) : Ctl :=
  { c with regs := c.regs.filter fun p => !(decide (p.1.blk = b) && (match inst with | none => true | some i => p.1.inst == i)) }

/-- The element of a field that the word at byte offset `off` holds a part of, and whether it is the upper word of a field
wider than 32 bits. -/
def Fld.covers (f : Fld) (off : Nat) : Option (Nat × Bool) :=
  let at' (o : Nat) : Option Nat :=
    if f.stride = 0 then (if o = f.off then some 0 else none)
    else if o < f.off then none
    else if (o - f.off) % f.stride = 0 then
      (let i := (o - f.off) / f.stride
       if i < f.count ∧ ¬ (f = Fld.mb_MB_DATAw_WORD ∧ i = 1) then some i else none)
    else none
  match at' off with
  | some i => some (i, false)
  | none =>
    if f.width ≤ 32 ∨ off < 4 then none
    else match at' (off - 4) with
      | some i => some (i, true)
      | none => none

/-- The word of a block instance at a byte offset. Write-only and reserved bits read 0. -/
def Ctl.rdWord (c : Ctl) (b : Blk) (inst off : Nat) : Nat :=
  (fieldsOf b).foldl (fun w f =>
    match f.covers off with
    | none => w
    | some (i, hi) =>
      if f.acc = .wo then w
      else if hi then w + c.rd f inst i / 2 ^ 32 % 2 ^ 32
      else w + c.rd f inst i % 2 ^ 32 * 2 ^ f.lo) 0

/-- What a word write with no behaviour of its own does (Table 0-4): RW fields take their bits, W1C bits that are written
1 clear, the rest is ignored. -/
def Ctl.wrWord (c : Ctl) (b : Blk) (inst off v : Nat) : Ctl :=
  (fieldsOf b).foldl (fun c f =>
    match f.covers off with
    | none => c
    | some (i, hi) =>
      if hi then c else
        match f.acc with
        | .rw => c.wr f (bitsOf v f.lo f.width) inst i
        | .w1c => c.wr f (c.rd f inst i - (c.rd f inst i &&& bitsOf v f.lo f.width)) inst i
        | _ => c) c

/-- Does the word hold the lower half of a `_LO` and `_HI` pair (R119)? -/
def isLoWord (b : Blk) (off : Nat) : Bool :=
  (fieldsOf b).any fun f => decide (32 < f.width) && (match f.covers off with | some (_, false) => true | _ => false)

/-- Does the word hold the upper half of such a pair? -/
def isHiWord (b : Blk) (off : Nat) : Bool :=
  (fieldsOf b).any fun f => match f.covers off with | some (_, true) => true | _ => false

/-- R119: a read captures the `_HI` word at the `_LO` word, and the next read of that `_HI` word returns what was captured. -/
def Ctl.readCap (c : Ctl) (b : Blk) (inst off : Nat) : Nat × Ctl :=
  if isLoWord b off then
    (c.rdWord b inst off, { c with host := { c.host with latch := c.host.latch.set (b, inst, off + 4) (c.rdWord b inst (off + 4)) } })
  else if isHiWord b off && Tab.has c.host.latch (b, inst, off) then
    (Tab.get 0 c.host.latch (b, inst, off), { c with host := { c.host with latch := c.host.latch.del (b, inst, off) } })
  else (c.rdWord b inst off, c)

end Sys2Proof.Machine
end

