-- ==== Sys2Proof/Machine/Ops.lean ====
section
/-! DEFINITION. The operations every family shares: open values, event stamps, unit counters, trace records, doorbells and
the event ring. -/

namespace Sys2Proof.Machine

/-! ## Guards and lists -/

/-- An effect on the module that leaves the queue of commands alone. Log 6 (DEDUCED). -/
def State.onM (s : State) (f : Module → Module) : State := { s with m := f s.m }

/-- An effect that touches no byte of memory. Log 6 (DEDUCED). -/
def Module.onCtl (m : Module) (f : Ctl → Ctl) : Module := { m with ctl := f m.ctl }

/-- An effect on the control state that reads memory. -/
def Module.onRead (m : Module) (f : List Host.Cell → Ctl → Ctl) : Module := { m with ctl := f m.mem m.ctl }

/-- Insert a number that is not there yet. -/
def addNew (l : List Nat) (x : Nat) : List Nat := if l.contains x then l else l ++ [x]

/-- Remove a number. -/
def without (l : List Nat) (x : Nat) : List Nat := l.filter (fun y => y != x)

/-- Apply a function once for each element of a list, oldest first. -/
def Ctl.each {α : Type} (c : Ctl) (l : List α) (f : Ctl → α → Ctl) : Ctl := l.foldl f c

/-! ## Dies (Table 1-3) -/

def dieLK (n : Nat) : Nat := 0x40 + n
def dieFM (n : Nat) : Nat := 0x48 + n
def dieHB : Nat := 0x50
def dieHD : Nat := 0x58

/-- The logic dies: those with event stamps, trace FIFOs and ageing blocks (R467, R511). -/
def logicDies : List Nat := [0, 1, 2, 3, 4, 5, 6, 7, 0x40, 0x41, 0x42, 0x43, 0x48, 0x49, 0x50, 0x58]

/-! ## Open values and stamps -/

/-- A fresh open value, and the state with the next one due. Log 7 (DESIGN CHOICE). -/
def Ctl.fresh (c : Ctl) : Nat × Ctl := (Config.freeValue c.free, { c with free := c.free + 1 })

/-- A look at a die's event stamp counter (R467): it has advanced by an open number of counts since the last look. Log 8 (DEDUCED). -/
def Ctl.stamp (c : Ctl) (die : Nat) : Nat × Ctl :=
  let t := (Tab.get 0 c.stamps die + Config.stampAdvance c.free) % 2 ^ 64
  (t, { c with stamps := c.stamps.set die t, free := c.free + 1 })

/-- The stamp a die's counter showed at the last look. Log 8 (DEDUCED). -/
def Ctl.lastStamp (c : Ctl) (die : Nat) : Nat := Tab.get 0 c.stamps die

/-! ## Stage -/

/-- `STAGE` of ST_STATE: 0 ROM, 1 BOOT, 2 READY, 3 JOB, 4 HOLD, 5 FAULT. -/
def Ctl.stage (c : Ctl) : Nat := c.rd Fld.st_ST_STATE_STAGE

/-- HD has left reset (Table 18-6, event 4), so what arrives at it is handled. Log 37 (DEDUCED). -/
def Ctl.hdUp (c : Ctl) : Bool := decide (4 ≤ c.pow.event)

/-- Does the function take memory requests of the host? In D3hot it takes configuration requests only. Log 185 (PRESUMED). -/
def Ctl.hostUp (c : Ctl) : Bool := c.hdUp && !c.host.d3

/-- Does HD take an access on a path? -/
def Ctl.portUp (c : Ctl) : Port → Bool
  | .host _ => c.hostUp
  | _ => c.hdUp

/-- A compute die that runs: its number exists and the module has come up (Table 18-6, event 9). -/
def Ctl.dieUp (c : Ctl) (n : Nat) : Bool := decide (n < 8) && c.pow.event == 9

/-- A die's state. -/
def Ctl.die (c : Ctl) (n : Nat) : DieSt := Tab.get DieSt.reset c.dies n

/-- Change a die's state. -/
def Ctl.onDie (c : Ctl) (n : Nat) (f : DieSt → DieSt) : Ctl := { c with dies := c.dies.upd DieSt.reset n f }

/-- A link's state. -/
def Ctl.link (c : Ctl) (x : Nat) : LinkSt := Tab.get LinkSt.reset c.links x

/-- Change a link's state. -/
def Ctl.onLink (c : Ctl) (x : Nat) (f : LinkSt → LinkSt) : Ctl := { c with links := c.links.upd LinkSt.reset x f }

/-- Append to what leaves the module. Log 139 (DESIGN CHOICE). -/
def Ctl.send (c : Ctl) (o : Output) : Ctl := { c with out := c.out ++ [o] }

/-! ## Unit counters (R469, Table 17-2) -/

/-- Count event `i` of Table 17-2 of a compute die's unit. -/
def Ctl.count (c : Ctl) (die unit i : Nat) (n : Nat := 1) : Ctl := c.bump Fld.uc_UCNTi_COUNT (256 * die + unit) i n

/-! ## Trace records (R470, R471, R477, R478) -/

/-- The 64 bytes of a record (Table 17-4), `RING`, `TRIG` and `REMOTE` 0. -/
def traceBytes (stamp die unit type cls coord seq : Nat) (payload : List Nat) : List Nat :=
  le 8 stamp ++ [die, unit] ++ le 2 type ++ [cls, 0] ++ le 2 coord ++ le 4 seq ++ padTo 44 payload

/-- The payload of a LOSS_SUMMARY record (Table 17-5). -/
def lossPayload (first last : Nat) (lost : List Nat) (gap : Bool) : List Nat :=
  le 4 first ++ le 4 last ++ (lost.map (le 4)).flatten ++ [b2n gap]

/-- The position of the newest record of the highest-numbered class above `cls` (R477). -/
def victim (recs : List TraceRec) (cls : Nat) : Option Nat :=
  let top := recs.foldl (fun m r => max m r.cls) 0
  if top ≤ cls then none
  else (recs.zipIdx.filter (fun p => p.1.cls == top)).getLast?.map (·.2)

/-- The records of classes 1 to 4, with those of class 0 beyond their own 16 entries: the shared entries in use. -/
def sharedUsed (recs : List TraceRec) : Nat :=
  let z := (recs.filter (fun r => r.cls == 0)).length
  (recs.length - z) + (z - 16)

/-- Note that a record was shed. -/
def TraceFifo.shed (q : TraceFifo) (r : TraceRec) : TraceFifo :=
  { q with lossDue := true, first := if q.lossDue then min q.first r.seq else r.seq,
           last := if q.lossDue then max q.last r.seq else r.seq,
           lost := updAt q.lost (r.cls - 1) (· + 1) }

/-- A die's trace FIFO. -/
def Ctl.fifo (c : Ctl) (die : Nat) : TraceFifo := Tab.get TraceFifo.reset c.trace.fifos die

/-- Replace a die's trace FIFO. -/
def Ctl.setFifo (c : Ctl) (die : Nat) (q : TraceFifo) : Ctl :=
  { c with trace := { c.trace with fifos := c.trace.fifos.set die q } }

/-- Own coordinates, packed as `SRC` (LS_COORD). -/
def Ctl.coord (c : Ctl) : Nat := c.rd Fld.ls_LS_COORD_OWN

/-- Has a FIFO of `size` records an entry for one of a class? Class 0 has 16 of its own, and takes shared ones besides (R477). -/
def TraceFifo.room (q : TraceFifo) (size cls : Nat) : Bool :=
  if cls = 0 then decide (q.recs.length < size) else decide (sharedUsed q.recs < size - 16)

/-- The summary of every shed since the last one: it is due no more. -/
def TraceFifo.summed (q : TraceFifo) (s : TraceRec) : TraceFifo :=
  { q with recs := q.recs ++ [s], lossDue := false, first := 0, last := 0, lost := [0, 0, 0, 0] }

/-- A record enters a FIFO of `size` records, or is shed, or takes the place of one that is (R477); the class shed, if any. While a
summary is due that finds no entry, nothing goes ahead of it (R478). -/
def TraceFifo.take (q : TraceFifo) (size : Nat) (r : TraceRec) : TraceFifo × Option Nat :=
  if !q.lossDue && q.room size r.cls then ({ q with recs := q.recs ++ [r] }, none)
  else if q.lossDue then (q.shed r, some r.cls)
  else match (victim q.recs r.cls).bind (fun i => (q.recs[i]?).map (fun v => (i, v))) with
    | some (i, v) => ({ (q.shed v) with recs := q.recs.eraseIdx i ++ [r] }, some v.cls)
    | none => (q.shed r, some r.cls)

/-- A record of a class that was shed is counted. -/
def Ctl.shedCount (c : Ctl) (cls : Option Nat) : Ctl := match cls with | some k => c.bump Fld.tr_SHED_CNTc 0 (k - 1) | none => c

/-- The summary that is due enters a die's FIFO where it has room (R478). -/
def Ctl.summarise (c : Ctl) (die stamp : Nat) : Ctl :=
  let q := c.fifo die
  if q.lossDue && q.room 256 0 then
    c.setFifo die { q.summed ⟨0, q.seq, traceBytes stamp die 0xFF 1 0 c.coord (q.seq % 2 ^ 32) (lossPayload q.first q.last q.lost false)⟩ with
      seq := q.seq + 1 }
  else c

/-- A record enters its FIFO now, or is shed (R477). -/
def Ctl.enterFifo (c : Ctl) (die stamp unit type cls : Nat) (payload : List Nat) : Ctl :=
  let q := c.fifo die
  let t := q.take 256 ⟨cls, q.seq, traceBytes stamp die unit type cls c.coord (q.seq % 2 ^ 32) payload⟩
  (c.setFifo die { t.1 with seq := q.seq + 1 }).shedCount t.2

/-- A record enters its FIFO, behind the loss summary that is due (R477, R478). One of class 0 that finds no entry waits with its
producer. Log 188 (DESIGN CHOICE). -/
def Ctl.enqueue (c : Ctl) (die : Nat) (stamp unit type cls : Nat) (payload : List Nat) : Ctl :=
  let c := c.summarise die stamp
  let q := c.fifo die
  if cls = 0 ∧ (q.lossDue || !q.waiting.isEmpty || !q.room 256 0) then c.setFifo die { q with waiting := q.waiting ++ [(unit, type, payload)] }
  else c.enterFifo die stamp unit type cls payload

/-- An entry has become free: the summary that is due, and the oldest record that waits, enter. Log 188 (DESIGN CHOICE). -/
def Ctl.unwait (c : Ctl) (die : Nat) : Ctl :=
  let t := c.stamp die
  if (c.fifo die).waiting.isEmpty && !(c.fifo die).lossDue then c
  else
    let c := t.2.summarise die t.1
    let q := c.fifo die
    match q.waiting with
    | w :: ws =>
      if q.lossDue || !q.room 256 0 then c
      else (c.setFifo die { q with waiting := ws }).enterFifo die t.1 w.1 w.2.1 0 w.2.2
    | [] => c

/-- R471: a source emits a record when its class is enabled; class 0 always. -/
def Ctl.emit (c : Ctl) (die unit type cls : Nat) (payload : List Nat) : Ctl :=
  if cls = 0 ∨ bit (c.rd Fld.tr_TR_SRC_CLASS_EN) cls then
    let (t, c) := c.stamp die
    c.enqueue die t unit type cls payload
  else c

/-! ## Doorbells and in-band interrupts (R409, R417) -/

/-- Is a vector held back: masked itself, by the function mask of the MSI-X capability, or by D3hot? Log 183 (PRESUMED). Log 185 (PRESUMED). -/
def Ctl.msixHeld (c : Ctl) (n : Nat) : Bool := c.host.msixMask.contains n || c.host.msixFmask || c.host.d3

/-- Send the MSI-X message of a vector, or keep it pending while the vector is held back. -/
def Ctl.msix (c : Ctl) (n : Nat) : Ctl :=
  if c.msixHeld n then { c with host := { c.host with msixPend := addNew c.host.msixPend n } } else c.send (.msix n)

/-- The pending messages of vectors no longer held back go out. -/
def Ctl.msixRelease (c : Ctl) : Ctl :=
  let due := (List.range 32).filter (fun n => c.host.msixPend.contains n && !c.msixHeld n)
  ({ c with host := { c.host with msixPend := c.host.msixPend.filter (fun n => !due.contains n) } }).each due (fun c n => c.send (.msix n))

/-- Set a doorbell bit. -/
def Ctl.ring (c : Ctl) (n : Nat) : Ctl :=
  let p := c.rd Fld.db_DB_PEND
  let c' := c.wr Fld.db_DB_PEND (setBit p n true)
  if ! bit p n && ! bit (c.rd Fld.db_DB_MASK) n then c'.msix n else c'

/-- Raise an in-band interrupt where ENEC has enabled it. -/
def Ctl.ibi (c : Ctl) (b : List Nat) : Ctl := if c.on Fld.sb_SB_STATE_IBI_EN then c.send (.ibi b) else c

/-! ## The event ring (R411 to R413, R436) -/

/-- Unread entries. -/
def Ctl.unread (c : Ctl) : Nat := (c.rd Fld.ev_EV_TAIL + 16384 - c.rd Fld.ev_EV_HEAD) % 16384

/-- The free count of R411. -/
def Ctl.freeCount (c : Ctl) : Nat := 16383 - c.unread

/-- The 64 bytes of an event entry (Table 14-13). Log 44 (DEDUCED). -/
def Event.bytes (e : Event) : List Nat :=
  le 2 e.code ++ [e.cls, b2n e.remote] ++ le 4 e.seq ++ le 8 e.stamp ++ [e.die, e.unit] ++ le 2 e.coord ++ [0, 0, 0, 0]
    ++ padTo 40 e.payload

/-- The entry enters the ring at `TAIL`; the ring remembers when its oldest unread entry was written. Log 44 (DEDUCED). -/
def Ctl.putEntry (c : Ctl) (e : Event) : Ctl :=
  let o := if c.unread == 0 then e.stamp else c.host.oldest
  { c with host := { c.host with ring := c.host.ring.set (c.rd Fld.ev_EV_TAIL) e, oldest := o } }

/-- R412: DB0 is set when the unread count reaches `THRESH`. -/
def Ctl.threshBell (c : Ctl) : Ctl :=
  if c.rd Fld.ev_EV_THRESH != 0 && c.unread == c.rd Fld.ev_EV_THRESH then c.ring 0 else c

/-- DB1 and the in-band interrupt of an ALARM entry. -/
def Ctl.alarmBell (c : Ctl) (e : Event) : Ctl := if e.cls == 0 then (c.ring 1).ibi [2] else c

/-- DB2 is set when the free entries fall to 256. -/
def Ctl.lowBell (c : Ctl) : Ctl := if c.freeCount == 256 then c.ring 2 else c

/-- Write an entry at `TAIL`, advance it, and set the doorbells the entry causes (R410 to R412, Table 14-11). -/
def Ctl.writeEntry (c : Ctl) (e : Event) : Ctl :=
  ((((c.putEntry e).wr Fld.ev_EV_TAIL ((c.rd Fld.ev_EV_TAIL + 1) % 16384)).threshBell).alarmBell e).lowBell

/-- The repeat count of bytes 60–63, added to. -/
def Event.repeats (e : Event) (n : Nat) : Event :=
  { e with payload := putAt (padTo 40 e.payload) 36 (le 4 (fieldAt e.payload 36 4 + n)) }

/-- Merge an alarm into a waiting one: the older payload stays, detail that differs becomes 0xFF (R413). -/
def Event.merge (old new : Event) (n : Nat) : Event :=
  { old.repeats n with die := if old.die = new.die then old.die else 0xFF,
                       unit := if old.unit = new.unit then old.unit else 0xFF }

/-- The last position at which a list's element satisfies a test. -/
def lastIdx {α : Type} (l : List α) (p : α → Bool) : Option Nat := (l.zipIdx.filter (fun q => p q.1)).getLast?.map (·.2)

/-- The waiting entry that comes latest among those a later entry shares its code with, and that later entry. -/
def newestPair (q : List Event) : Option (Nat × Nat) :=
  let is := q.zipIdx.filter (fun p => q.zipIdx.any (fun r => decide (p.2 < r.2) && r.1.code == p.1.code))
  match is.getLast? with
  | none => none
  | some (e, i) => (lastIdx q (fun x => x.code == e.code)).map (fun j => (i, j))

/-- An alarm joins the alarms that wait for a full ring (R413). -/
def queueAlarm (q : List Event) (e : Event) : List Event :=
  match lastIdx q (fun x => x.code == e.code && x.die == e.die && x.unit == e.unit) with
  | some i => updAt q i (fun o => o.repeats 1)
  | none =>
    if q.length < 4096 then q ++ [e]
    else match lastIdx q (fun x => x.code == e.code) with
      | some i => updAt q i (fun o => o.merge e 1)
      | none =>
        match newestPair q with
        | some (i, j) =>
          match q[j]? with
          | some n => (updAt q i (fun o => o.merge n (fieldAt n.payload 36 4 + 1))).eraseIdx j ++ [e]
          | none => q
        | none => q

/-- EVENT_COPY (Table 17-5), emitted by HD for every event Mersene raises. Log 45 (DESIGN CHOICE). -/
def Ctl.copyEvent (c : Ctl) (e : Event) : Ctl :=
  c.emit dieHD 0 2 (if e.cls = 0 then 0 else 2) (le 2 e.code ++ [e.unit, e.cls] ++ padTo 40 e.payload)

/-- Raise an event: it takes a `SEQ` and a stamp. -/
def Ctl.raise (c : Ctl) (code cls die unit : Nat) (remote : Option Nat) (payload : List Nat) : Event × Ctl :=
  let (t, c) := c.stamp dieHD
  let e : Event := { code := code, cls := cls, remote := remote.isSome, seq := (c.host.seq + 1) % 2 ^ 32, stamp := t, die := die,
                     unit := unit, coord := remote.getD 0, payload := payload }
  (e, { c with host := { c.host with seq := c.host.seq + 1 } }.copyEvent e)

/-- R413: the loss summary is written before any other entry that is no alarm, once there is room. -/
def Ctl.flushLoss (c : Ctl) : Ctl :=
  match c.host.shedFirst with
  | none => c
  | some f =>
    if c.freeCount ≤ 256 then c
    else
      let (e, c) := c.raise 0x0701 0 dieHD 0xFF none
        (le 4 f ++ le 4 c.host.shedLast ++ (c.host.shed.map (le 4)).flatten)
      { c with host := { c.host with shedFirst := none, shedLast := 0, shed := [0, 0, 0] } }.writeEntry e

/-- Write a raised event into the ring, or shed it, or let it wait (R413). -/
def Ctl.place (c : Ctl) (e : Event) : Ctl :=
  if e.cls = 0 then
    if c.freeCount = 0 then { c with host := { c.host with alarms := queueAlarm c.host.alarms e } } else c.writeEntry e
  else if c.freeCount ≤ 256 then
    ({ c with host := { c.host with
        shedFirst := (match c.host.shedFirst with | none => some e.seq | some f => some f), shedLast := e.seq,
        shed := updAt c.host.shed (e.cls - 1) (· + 1) } }).bump Fld.ev_EV_SHED
  else c.writeEntry e

/-- Where Mersene relays the alarms of this module (R339, R436): a queue that the links take them from. Log 46 (DEDUCED). -/
def Ctl.relay (c : Ctl) (e : Event) : Ctl := { c with host := { c.host with relay := c.host.relay ++ [e] } }

/-- R380: the precursor events NM_UE, FM_UE, LINK_DOWN with cause RETRAIN_FAIL, REPAIR_EXHAUSTED and PROTECT_FAIL. -/
def isPrecursor (code : Nat) (pl : List Nat) : Bool :=
  [0x0401, 0x0402, 0x0409, 0x0606].contains code || (code == 0x0503 && pl.getD 0 0 == 5)

/-- A setting of Table 13-11 in force. -/
def Ctl.gset (c : Ctl) (i : Nat) : Nat := c.gen.set.getD i 0

/-- 1 / M of R380 as a fraction of seconds: M = (num, den). -/
def meanTime (mtbf ratio p : Nat) : Nat × Nat := (mtbf * ratio * 3600000, ratio * 3600000 + p * mtbf)

/-- R380, R392: the precursor events of the last 1,000 hours of operation stay; SG_PRECURSOR shows P, and SG_MTBF M. -/
def Ctl.showPrecursors (c : Ctl) : Ctl :=
  let p := c.gen.precursors.filter (fun h => decide (c.pow.hours < h + 1000))
  let m := meanTime (c.gset 4) (c.gset 5) p.length
  (({ c with gen := { c.gen with precursors := p } }).wr Fld.sg_SG_MTBF (m.1 / m.2)).wr Fld.sg_SG_PRECURSOR (min p.length 65535)

/-- They are kept with their hour of operation. -/
def Ctl.notePrecursor (c : Ctl) (code : Nat) (pl : List Nat) : Ctl :=
  if isPrecursor code pl then ({ c with gen := { c.gen with precursors := c.gen.precursors ++ [c.pow.hours] } }).showPrecursors else c

/-- R436: post an event. Bytes 24–31 hold the step counter, `pl` begins at byte 32. -/
def Ctl.post (c : Ctl) (code cls die unit : Nat) (pl : List Nat) : Ctl :=
  let c := (if cls = 0 then c else c.flushLoss).notePrecursor code pl
  let (e, c) := c.raise code cls die unit none (le 8 c.job.step ++ padTo 28 pl ++ [0, 0, 0, 0])
  let c := c.place e
  if cls = 0 then c.relay e else c

end Sys2Proof.Machine
end

