-- ==== Sys2Proof/Machine/Mem.lean ====
section
/-! DEFINITION. Addressed memory: the device physical address map (Table 11-2), reads and writes of bytes and lines, poison
(R304 to R310), and the events of its errors (Table 11-11). An address that lists nothing reads 0. -/

namespace Sys2Proof.Machine

/-- What an unlisted byte of memory reads as. Log 3 (DESIGN CHOICE). -/
def memDefault : Byte := 0

def nearBase (n : Nat) : Nat := n * 0x2000000000
def nearSize : Nat := 0x1200000000
def sramBase (n : Nat) : Nat := 0x10000000000 + n * 0x10000000
def sramSize : Nat := 0xC000000
def farBase : Nat := 0x100000000000
def farSize : Nat := 0x20000000000
def gib : Nat := 0x40000000

/-- The stack whose near window holds an address. -/
def stackOf (a : Nat) : Option Nat :=
  if a < 8 * 0x2000000000 ∧ a % 0x2000000000 < nearSize then some (a / 0x2000000000) else none

/-- The die whose SRAM holds an address. -/
def sramOf (a : Nat) : Option Nat :=
  if 0x10000000000 ≤ a ∧ a < 0x10000000000 + 8 * 0x10000000 ∧ (a - 0x10000000000) % 0x10000000 < sramSize
  then some ((a - 0x10000000000) / 0x10000000) else none

/-- The far offset of an address in the far window. -/
def farOff (a : Nat) : Option Nat := if farBase ≤ a ∧ a < farBase + farSize then some (a - farBase) else none

/-- R297: does the address name memory? -/
def namesMemory (a : Nat) : Bool := (stackOf a).isSome || (sramOf a).isSome || (farOff a).isSome

/-- The far channel of a far offset (R303). -/
def chanOf (o : Nat) : Nat := bitsOf o 10 6 ^^^ bitsOf o 16 6 ^^^ bitsOf o 22 6

/-- The address within its channel of a far offset (R303). -/
def chanAddr (o : Nat) : Nat := bitsOf o 16 25 * 2 ^ 10 + o % 2 ^ 10

/-- R302: the DRAM die of a near window's offset within its stack, its channel, and the address within the channel. -/
def nearPlace (o : Nat) : Nat × Nat × Nat :=
  let k := o / (12 * gib)
  let p := o - 12 * gib * k
  (k, bitsOf p 8 6 ^^^ bitsOf p 14 6 ^^^ bitsOf p 20 6, bitsOf p 14 20 * 2 ^ 8 + p % 2 ^ 8)

/-- The DRAM die of a near address (R302), by its index of Table 1-3. -/
def dramDie (n a : Nat) : Nat := 0x10 + 6 * n + (nearPlace (a - nearBase n)).1

/-- Is the byte at an address the host's through the BAR2 window (R300)? -/
def Ctl.inBar2 (c : Ctl) (o : Nat) : Bool :=
  let b := c.rd Fld.fl_FL_BAR2_BASE_GIB * gib
  decide (b ≤ o ∧ o < b + c.rd Fld.fl_FL_BAR2_SIZE_GIB * gib)

/-- Does a far offset lie in the window committed before the module reset in progress (R401)? -/
def Ctl.inOldWindow (c : Ctl) (o : Nat) : Bool :=
  match c.host.oldWindow with
  | some (b, n) => decide (b ≤ o ∧ o < b + n)
  | none => false

/-- Is the line that holds an address poisoned? -/
def Ctl.bad (c : Ctl) (a : Nat) : Bool := c.poison.contains (a / 64)

/-- Is any line of a span poisoned? -/
def Ctl.badSpan (c : Ctl) (a len : Nat) : Bool := c.poison.any (fun l => decide (a / 64 ≤ l ∧ l * 64 < a + len))

/-- Mark a line poisoned, or clean. -/
def Ctl.setPoison (c : Ctl) (line : Nat) (p : Bool) : Ctl :=
  { c with poison := if p then addNew c.poison line else without c.poison line }

/-- R309: the lines that a write of `len` bytes covers whole lose their poison, but for those of a row that could not be repaired (R313). -/
def Ctl.cleanSpan (c : Ctl) (a len : Nat) : Ctl :=
  { c with poison := c.poison.filter (fun l => !decide (a ≤ l * 64 ∧ l * 64 + 64 ≤ a + len) || c.pow.dead.contains l) }

/-- A byte of memory. Log 3 (DESIGN CHOICE). -/
def memByte (m : List Host.Cell) (a : Nat) : Nat := (Cells.get memDefault m a).toNat

/-- Bytes of memory. Log 3 (DESIGN CHOICE). -/
def memRead (m : List Host.Cell) (a n : Nat) : List Nat := Cells.read memDefault m a n

/-- Write bytes; whole lines lose their poison, other bytes keep their values (R305, R309). -/
def Module.write (m : Module) (a : Nat) (bs : List Nat) : Module :=
  { mem := Cells.write memDefault m.mem a bs, ctl := m.ctl.cleanSpan a bs.length }

/-- Write one byte. -/
def Module.writeByte (m : Module) (a b : Nat) : Module :=
  { m with mem := Cells.set memDefault m.mem a (BitVec.ofNat 8 b) }

/-- Return every byte whose address satisfies `p` to what an unlisted address reads, with valid check symbols (R316, R317). -/
def Module.zero (m : Module) (p : Nat → Bool) : Module :=
  { mem := Cells.clear p m.mem, ctl := { m.ctl with poison := m.ctl.poison.filter (fun l => !p (l * 64) || m.ctl.pow.dead.contains l) } }

/-- R297: an access at an address that names no memory is raised by the unit that made it. -/
def Ctl.addrInvalid (c : Ctl) (die unit a : Nat) : Ctl :=
  (c.count die unit 23).post 0x0403 2 die unit (le 8 a)

/-- R310: a reading of a poisoned line counts at its stack or channel. -/
def Ctl.poisonCnt (c : Ctl) (a n : Nat) : Ctl :=
  match stackOf a with
  | some s => c.bump Fld.nm_NM_POISON_CNT_COUNT s 0 n
  | none =>
    match farOff a with
    | some o => c.bump Fld.fc_FC_POISON_CNT_COUNT (chanOf o) 0 n
    | none => c

/-- R310: a unit of a compute die consumes a poisoned line. -/
def Ctl.poisonRead (c : Ctl) (die unit a : Nat) (n : Nat := 1) : Ctl := (c.count die unit 22 n).poisonCnt a n

/-- R309: rows with uncorrectable lines wait in the repair log; `PENDING` counts a stack's. Log 21 (DEDUCED). -/
def Ctl.logRepair (c : Ctl) (a : Nat) : Ctl :=
  let c := { c with sec := { c.sec with repairLog := addNew c.sec.repairLog (a / 64 * 64) } }
  match stackOf a with
  | some s => c.wr Fld.nm_NM_REPAIR_PENDING (min 255 (c.sec.repairLog.filter (fun r => stackOf r == some s)).length) s
  | none => c

/-- R308: a correctable error is corrected and counted. Log 21 (DEDUCED). -/
def Ctl.memCe (c : Ctl) (a : Nat) : Ctl :=
  match stackOf a with
  | some s => c.bump Fld.nm_NM_CE_CNT_COUNT s
  | none =>
    match farOff a with
    | some o => c.bump Fld.fc_FC_CE_CNT_COUNT (chanOf o)
    | none => c

/-- R309: an uncorrectable error poisons the line, is counted, posted and logged for repair. Log 21 (DEDUCED). -/
def Ctl.memUe (c : Ctl) (a : Nat) : Ctl :=
  let la := a / 64 * 64
  match stackOf a with
  | some s =>
    (((((c.setPoison (a / 64) true).bump Fld.nm_NM_UE_CNT_COUNT s).wr Fld.nm_NM_LAST_UE_ADDR la s).logRepair a).post
      0x0401 1 (dramDie s a) 0xFF (le 8 la))
  | none =>
    match farOff a with
    | some o =>
      (((((c.setPoison (a / 64) true).bump Fld.fc_FC_UE_CNT_COUNT (chanOf o)).wr Fld.fc_FC_LAST_UE_ADDR la (chanOf o)).logRepair a).post
        0x0402 1 (dieFM (chanOf o / 32)) (chanOf o % 32) (le 8 la))
    | none => c

/-- R401: a back-invalidate snoop goes out before a line of the window changes from the device's side. Log 71 (DEDUCED). -/
def Ctl.snoopLine (c : Ctl) (a : Nat) : Ctl :=
  match farOff a with
  | some o => if (c.inBar2 o && c.host.decoder.isSome) || c.inOldWindow o then c.send (.biSnoop (a / 64)) else c
  | none => c

/-- The symbol errors that a read finds: one is corrected, two or three are not (R307 to R309). A line already poisoned
yields no new error, but for one of a row that could not be repaired (R313). Log 11 (DESIGN CHOICE). -/
def Ctl.memErr (c : Ctl) (e : Nat × Nat) : Ctl :=
  if (c.bad e.1 && !c.pow.dead.contains (e.1 / 64)) || e.2 == 0 then c
  else if e.2 == 1 then c.memCe e.1 else (c.snoopLine e.1).memUe e.1

/-- Every error a command's reads find. Log 11 (DESIGN CHOICE). -/
def Ctl.memErrs (c : Ctl) (l : Errs) : Ctl := c.each l Ctl.memErr

end Sys2Proof.Machine
end

