-- ==== Sys2Proof/Machine/Blocks.lean ====
section
/-! DEFINITION. The register blocks as TELEMETRY, the debug access instruction and the dump address them: block number, die,
unit, byte offset (Table 15-7, R468, R480 to R482, R510, R511). -/

namespace Sys2Proof.Machine

/-- Table 6-1: the role part of a layer record. -/
def RoleStat.bytes (r : RoleStat) : List Nat := le 4 r.amax ++ le 4 r.ovf ++ le 4 r.unf ++ (r.hist.map (le 4)).flatten

/-- R156: a sum field reads as the FP32 value nearest to its register, whose lowest weight is 2^-64. -/
def sumField (v : Nat) : Nat := fp32Round (.fin false ⟨v, 2 ^ 64⟩)

/-- The layer-wide part. -/
def WideStat.bytes (w : WideStat) : List Nat :=
  le 4 w.agTiles ++ le 4 (sumField w.agSum) ++ le 4 w.agMax ++ le 4 (sumField w.dwSq) ++ le 4 (sumField w.wSq)

/-- The 512 bytes of a layer record (Table 6-1). -/
def LayerRec.bytes (l : LayerRec) : List Nat :=
  ((List.range 3).map (fun r =>
    (l.prov.getD r RoleStat.reset).bytes ++ le 4 (l.runmax.getD r 0) ++ (l.comm.getD r RoleStat.reset).bytes)).flatten
    ++ l.pWide.bytes ++ l.cWide.bytes ++ [0, 0, 0, 0]

/-- Three two-bit ranks in one byte. -/
def pack3 (l : List Nat) : Nat := l.getD 0 0 % 4 + 4 * (l.getD 1 0 % 4) + 16 * (l.getD 2 0 % 4)

/-- The 32 bytes of a plan entry (Table 6-4). -/
def Plan.bytes (p : Plan) : List Nat :=
  p.fmt.map (· % 64) ++ p.scale.map (· % 256) ++ p.xbase.map (tcode 8) ++ [tcode 4 p.lrExp,
    pack3 p.ceil + 64 * b2n p.serial + 128 * b2n p.steered, pack3 p.floor + 64 * b2n p.fixedP,
    b2n (p.fellBack.getD 0 false) + 2 * b2n (p.fellBack.getD 1 false) + 4 * b2n (p.fellBack.getD 2 false) + 8 * b2n p.hold,
    0] ++ le 2 p.narrowRun ++ le 4 p.planSeq ++ List.replicate 12 0

/-- The 64 bytes of a step record (Table 10-15). -/
def StepRec.bytes (r : StepRec) : List Nat :=
  let b := le 8 r.step ++ le 8 r.attempt ++ [r.outcome, r.nonfiniteRun] ++ le 2 r.flags ++ le 4 r.planSeq ++ le 4 r.gnorm
    ++ le 4 r.clip ++ le 4 r.loss ++ le 4 r.modules ++ le 8 r.genAdvance ++ le 4 r.genDigest ++ le 4 r.checkUs ++ le 4 r.dropped
  b ++ le 4 (crc32c b)

/-- Where the Lesson store of a die begins (Table 11-3). -/
def lessonStore (n : Nat) : Nat := nearBase n + 0x1180000000

/-- Where the far copy of a die's Lesson image begins: the firmware region holds the eight images in die order (R299). -/
def lessonCopy (n : Nat) : Nat := farBase + n * 0x60000000

/-- The 64 bytes of a descriptor slot: the Lesson descriptor with what `rt.exloop` set in its copy (R229) and, in a rerun,
no wait and no signal (R251). -/
def slotBytes (img : List Nat) (s : Slot) : List Nat :=
  let b := padTo 64 img
  let b := match s.rows with
    | none => b
    | some r => if b.getD 0 0 = 0x10 then putAt b 32 (le 2 r) else if b.getD 0 0 = 0x20 then putAt b 10 (le 2 r) else b
  let b := if s.m0add = 0 then b else putAt b 44 (le 4 ((fieldAt b 44 4 + s.m0add) % 2 ^ 32))
  if s.rerun then putAt b 4 [0] else b

/-- A telemetry block instance. -/
inductive TBlock where
  | regs (b : Blk) (inst size : Nat)
  | lantern (die : Nat)
  | stepRecs
  | dumpArea
  | slots (die queue : Nat)
deriving DecidableEq, Repr

/-- The size of a block in bytes: to the end of its table. -/
def Blk.size : Blk → Nat
  | .gen => 0x200 | .ma => 0x48 | .ln => 0x20 | .vu => 0x9000 | .rt => 0x1C | .que => 0x3208 | .chk => 0x200 | .nm => 0x24
  | .fc => 0x20 | .fl => 0x10 | .lk => 0x48 | .ls => 0x24 | .sg => 0x50 | .st => 0x18 | .mb => 0x54 | .db => 0x8
  | .ev => 0x14 | .sb => 0x10 | .uc => 0x80 | .bp => 0x28 | .tr => 0x120 | .pm => 0x2C | .ag => 0x10

/-- Table 15-7 and the blocks of the later chapters: which instance a block, die and unit name. -/
def tblock (b die unit : Nat) : Option TBlock :=
  let cd (x : Blk) : Option TBlock := if die < 8 ∧ unit = 0 then some (.regs x die x.size) else none
  let one (x : Blk) (d : Nat) : Option TBlock := if die = d ∧ unit = 0 then some (.regs x 0 x.size) else none
  match b with
  | 0x01 => cd .gen
  | 0x02 => if die < 8 ∧ unit < 96 then some (.regs .ma (96 * die + unit) Blk.ma.size) else none
  | 0x03 => if die < 8 ∧ unit = 0 then some (.lantern die) else none
  | 0x04 => if die < 8 ∧ unit < 16 then some (.regs .vu (16 * die + unit) Blk.vu.size) else none
  | 0x05 => cd .rt
  | 0x06 => cd .que
  | 0x07 => cd .chk
  | 0x08 => cd .nm
  | 0x09 => if (die = 0x48 ∨ die = 0x49) ∧ unit < 32 then some (.regs .fc (32 * (die - 0x48) + unit) Blk.fc.size) else none
  | 0x0A => one .fl dieHB
  | 0x0B => if 0x40 ≤ die ∧ die < 0x44 ∧ unit < 9 then some (.regs .lk (9 * (die - 0x40) + unit) Blk.lk.size) else none
  | 0x0C => one .ls dieHB
  | 0x0D => one .sg dieHB
  | 0x0E => if die = dieHD ∧ unit = 0 then some .stepRecs else none
  | 0x0F => one .st dieHD
  | 0x10 => one .tr dieHD
  | 0x11 => if die = dieHD ∧ unit = 0 then some .dumpArea else none
  | 0x12 => if die < 8 ∧ unit < 64 then some (.slots die unit) else none
  | 0x13 => if die < 8 ∧ unit < 4 then some (.regs .bp (4 * die + unit) Blk.bp.size) else none
  | 0x14 => if die < 8 ∧ unit ≤ 0x76 then some (.regs .uc (256 * die + unit) Blk.uc.size) else none
  | 0x15 => one .pm dieHD
  | 0x16 => if logicDies.contains die ∧ unit = 0 then some (.regs .ag die Blk.ag.size) else none
  | _ => none

/-- A queue of a die. -/
def Ctl.queue (c : Ctl) (die q : Nat) : QueueSt := Tab.get QueueSt.reset (c.die die).queues q

/-- The bytes a block holds from its start, and how many. The register blocks are read by word. -/
def TBlock.size (m : Module) : TBlock → Nat
  | .regs _ _ n => n
  | .lantern _ => 0x210000
  | .stepRecs => 0x40200
  | .dumpArea => 4 * gib
  | .slots die q => 64 * m.ctl.rd Fld.que_Q_SLOTS die q

/-- Where the Lesson descriptors of a die lie. -/
def descAddr (c : Ctl) (die i : Nat) : Nat :=
  lessonStore die + (match (c.die die).lesson with | some l => l.descOff | none => 0) + 64 * i

/-- The 32-bit word at a byte offset of a block, as it stands. -/
def TBlock.word (m : Module) (t : TBlock) (off : Nat) : Nat :=
  match t with
  | .regs b i _ => m.ctl.rdWord b i off
  | .lantern d =>
    if off < 0x100000 then m.ctl.rdWord .ln d off
    else if off < 0x200000 then
      fieldAt (Tab.get LayerRec.reset (m.ctl.die d).layers ((off - 0x100000) / 512)).bytes (off % 512) 4
    else fieldAt (Tab.get Plan.reset (m.ctl.die d).plan ((off - 0x200000) / 32)).bytes (off % 32) 4
  | .stepRecs =>
    if off < 0x40000 then
      fieldAt (match m.ctl.job.recs.find? (fun p => p.1 == off / 64) with | some p => p.2.bytes | none => []) (off % 64) 4
    else if off = 0x40000 then m.ctl.job.recNext % 4096
    else if 0x40100 ≤ off then fieldAt (m.ctl.job.affectMaps.getLastD []) (off - 0x40100) 4
    else 0
  | .dumpArea => unle (memRead m.mem (farBase + 0x300000000 + off) 4)
  | .slots die q =>
    match (m.ctl.queue die q).slots.find? (fun p => p.1 == off / 64) with
    | some p => fieldAt (slotBytes (memRead m.mem (descAddr m.ctl die p.2.desc) 64) p.2) (off % 64) 4
    | none => 0

/-- The module status block shows the HD event stamp of the moment it is read; a `_HI` word that no `_LO` read has captured shows it too. -/
def Ctl.readStatus (c : Ctl) (o : Nat) : Nat × Ctl :=
  if o == 0x10 || (o == 0x14 && !Tab.has c.host.latch (.st, 0, 0x14)) then
    let r := c.stamp dieHD
    (r.2.wr Fld.st_ST_STAMP r.1).readCap .st 0 o
  else c.readCap .st 0 o

/-- R119 holds for the register blocks: a read of a `_LO` word captures its `_HI` word. Log 143 (DEDUCED). -/
def TBlock.read (m : Module) (t : TBlock) (off : Nat) : Nat × Ctl :=
  match t with
  | .regs .st _ _ => m.ctl.readStatus off
  | .regs b i _ => m.ctl.readCap b i off
  | _ => (t.word m off, m.ctl)

/-- The words of a block from an offset, read in ascending offset (R435). Log 143 (DEDUCED). -/
def TBlock.readMany (t : TBlock) : Nat → Module → Nat → List Nat × Module
  | 0, m, _ => ([], m)
  | n + 1, m, off =>
    let r := t.read m off
    let q := TBlock.readMany t n { m with ctl := r.2 } (off + 4)
    (r.1 :: q.1, q.2)

end Sys2Proof.Machine
end

