-- ==== Sys2Proof/Machine/Trace.lean ====
section
/-! DEFINITION. Trace rings, triggers and snapshots, breakpoints, fabric Echo, and the dump (R472 to R486). -/

namespace Sys2Proof.Machine

/-! ## Rings -/

/-- The slots of a ring, S. -/
def Ctl.ringS (c : Ctl) (r : Nat) : Nat := c.rd Fld.tr_TR_GEOM_SIZE 0 r * 4096

/-- The slots from the trigger on, P. -/
def Ctl.ringP (c : Ctl) (r : Nat) : Nat := c.ringS r * c.rd Fld.tr_TR_CTRL_POST 0 r / 64

/-- Do rings `r` and `q` share a slot? Log 63 (DESIGN CHOICE). -/
def Ctl.overlap (c : Ctl) (r q : Nat) : Bool :=
  let b i := c.rd Fld.tr_TR_GEOM_BASE 0 i
  let z i := c.rd Fld.tr_TR_GEOM_SIZE 0 i
  decide (b r < b q + z q) && decide (b q < b r + z r)

/-- R472: may ring `r` be enabled, given the rings below it? -/
def Ctl.ringFits (c : Ctl) (r : Nat) : Bool :=
  decide (c.rd Fld.tr_TR_GEOM_BASE 0 r + c.rd Fld.tr_TR_GEOM_SIZE 0 r ≤ 128) &&
    (List.range r).all (fun q => !(c.on Fld.tr_TR_CTRL_ENABLE 0 q && c.overlap r q))

/-- A ring's records. -/
def Ctl.tring (c : Ctl) (r : Nat) : TraceRing := Tab.get TraceRing.reset c.trace.rings r

def Ctl.setTring (c : Ctl) (r : Nat) (x : TraceRing) : Ctl :=
  { c with trace := { c.trace with rings := c.trace.rings.set r x } }

/-- The first slot of a ring in the trace buffer. -/
def Ctl.ringBase (c : Ctl) (r : Nat) : Nat := c.rd Fld.tr_TR_GEOM_BASE 0 r * 4096

/-- A ring with nothing in it, armed. Log 63 (DESIGN CHOICE). -/
def Ctl.rearm (c : Ctl) (r : Nat) : Ctl :=
  let b := c.ringBase r
  let n := c.ringS r
  let c := { c with trace := { c.trace with buf := c.trace.buf.filter (fun p => !decide (b ≤ p.1 ∧ p.1 < b + n)) } }
  ((((c.setTring r TraceRing.reset).wr Fld.tr_TR_STATUS_STATE 1 0 r).wr Fld.tr_TR_STATUS_WRAPPED 0 0 r).wr
    Fld.tr_TR_WPTR 0 0 r).wr Fld.tr_TR_TPTR 0 0 r

/-- After a write of the control block: a ring that may not be enabled reads `ENABLE` 0 and is DISABLED; a ring newly enabled
is armed (R472, R473). Log 63 (DESIGN CHOICE). -/
def Ctl.settleRing (c : Ctl) (r : Nat) : Ctl :=
  if c.on Fld.tr_TR_CTRL_ENABLE 0 r && c.ringFits r then
    if c.rd Fld.tr_TR_STATUS_STATE 0 r == 0 then c.rearm r else c
  else (c.wr Fld.tr_TR_CTRL_ENABLE 0 0 r).wr Fld.tr_TR_STATUS_STATE 0 0 r

def Ctl.settleRings (c : Ctl) : Ctl := c.each [0, 1, 2, 3] Ctl.settleRing

/-- Put a record in a slot of the trace buffer. -/
def Ctl.putSlot (c : Ctl) (r pos : Nat) (b : List Nat) : Ctl :=
  { c with trace := { c.trace with buf := c.trace.buf.set (c.ringBase r + pos) b } }

/-- `RING` and `TRIG` of a record as a ring holds it. -/
def stampRing (b : List Nat) (r : Nat) (trig : Bool) : List Nat :=
  putAt (putAt b 13 [r]) 12 [setBit (b.getD 12 0) 4 trig]

/-- R474: does a record fire a ring? -/
def Ctl.fires (c : Ctl) (r : Nat) (b : List Nat) : Bool :=
  let copy := fieldAt b 10 2 == 2
  (c.on Fld.tr_TR_TRIG_ON_ALARM 0 r && copy && b.getD 12 0 % 8 == 0) ||
  (c.rd Fld.tr_TR_TRIG_CODE 0 r != 0 && copy && fieldAt b 20 2 == c.rd Fld.tr_TR_TRIG_CODE 0 r) ||
  (c.tring r).due

/-- R472: does a ring's filter accept a record? -/
def Ctl.filterOk (c : Ctl) (r : Nat) (b : List Nat) : Bool :=
  c.on Fld.tr_TR_CTRL_ENABLE 0 r && bit (c.rd Fld.tr_TR_FILTER_CLASS_MASK 0 r) (b.getD 12 0 % 8) &&
    (c.rd Fld.tr_TR_FILTER_DIE 0 r == 0xFF || c.rd Fld.tr_TR_FILTER_DIE 0 r == b.getD 8 0)

/-- A record enters the last P slots; the ring stops when they are full. -/
def Ctl.writePost (c : Ctl) (r : Nat) (b : List Nat) : Ctl :=
  let x := c.tring r
  let c := (c.putSlot r (c.ringS r - c.ringP r + x.post) b).setTring r { x with post := x.post + 1 }
  let c := c.wr Fld.tr_TR_WPTR (c.ringS r - c.ringP r + x.post + 1) 0 r
  if x.post + 1 == c.ringP r then c.wr Fld.tr_TR_STATUS_STATE 3 0 r else c

/-- A record enters the first S - P slots. -/
def Ctl.writePre (c : Ctl) (r : Nat) (b : List Nat) : Ctl :=
  let x := c.tring r
  let n := c.ringS r - c.ringP r
  let c := (c.putSlot r (x.pre % n) b).setTring r { x with pre := x.pre + 1 }
  let c := c.wr Fld.tr_TR_WPTR ((x.pre + 1) % n) 0 r
  if x.pre + 1 == n then c.wr Fld.tr_TR_STATUS_WRAPPED 1 0 r else c

/-- Firing (R474): DB3, the trigger slot, and POST; with no slot for it, the ring stops. -/
def Ctl.fireRing (c : Ctl) (r : Nat) (b : List Nat) : Ctl :=
  let c := (c.ring 3).wr Fld.tr_TR_TPTR (c.ringS r - c.ringP r) 0 r
  let c := c.setTring r { c.tring r with due := false }
  if c.ringP r == 0 then c.wr Fld.tr_TR_STATUS_STATE 3 0 r
  else (c.wr Fld.tr_TR_STATUS_STATE 2 0 r).writePost r (stampRing b r true)

/-- One ring takes a record. -/
def Ctl.ringTake (c : Ctl) (b : List Nat) (r : Nat) : Ctl :=
  if !c.filterOk r b then c
  else
    let st := c.rd Fld.tr_TR_STATUS_STATE 0 r
    let f := c.fires r b
    if st == 1 then (if f then c.fireRing r b else c.writePre r (stampRing b r false))
    else
      let c := if f then c.bump Fld.tr_TR_COUNTS_RETRIG 0 r else c
      if st == 2 then c.writePost r (stampRing b r false)
      else if st == 3 then c.bump Fld.tr_TR_COUNTS_MISSED 0 r else c

/-- R474: when ring 0 has fired, the armed rings with `WITH0` fire on their next record; in POST and STOPPED it is a match that fires
nothing. -/
def Ctl.with0 (c : Ctl) : Ctl :=
  c.each [1, 2, 3] (fun c r =>
    if !c.on Fld.tr_TR_TRIG_WITH0 0 r then c
    else match c.rd Fld.tr_TR_STATUS_STATE 0 r with
      | 0 => c
      | 1 => c.setTring r { c.tring r with due := true }
      | _ => c.bump Fld.tr_TR_COUNTS_RETRIG 0 r)

/-- Every ring takes a record. -/
def Ctl.ringsTake (c : Ctl) (b : List Nat) : Ctl :=
  let st0 := c.rd Fld.tr_TR_STATUS_STATE
  let c' := c.each [0, 1, 2, 3] (fun c r => c.ringTake b r)
  let c' := if fieldAt b 10 2 == 1 then c'.bump Fld.tr_LOSS_CNT_COUNT else c'
  if st0 == 1 && c'.rd Fld.tr_TR_STATUS_STATE != 1 then c'.with0 else c'

/-- R478: the loss summary for a gap in a source's `SRC_SEQ`. Log 65 (DEDUCED). -/
def gapRecord (b : List Nat) (want : Nat) : List Nat :=
  padTo 64 (b.take 8 ++ [b.getD 8 0, 0xFF, 1, 0, 8 * (b.getD 12 0 / 8 % 2), 0] ++ (b.drop 14).take 2 ++ le 4 want
    ++ lossPayload want (fieldAt b 16 4 - 1) [0, 0, 0, 0] true)

/-- The collector takes a record of a source: the gap before it, then the record (R472, R478). Of a source not heard of before no
record is expected. Log 13 (DESIGN CHOICE). Log 65 (DEDUCED). -/
def Ctl.collect (c : Ctl) (b : List Nat) : Ctl :=
  let src := (fieldAt b 14 2, b.getD 8 0)
  let want := Tab.get 0 c.trace.expect src
  let gap := Tab.has c.trace.expect src && decide (want < fieldAt b 16 4)
  let c := if gap then c.ringsTake (gapRecord b want) else c
  let c := { c with trace := { c.trace with expect := c.trace.expect.set src (fieldAt b 16 4 + 1) } }
  c.ringsTake b

/-- The summary of the records shed on the way to another module: of HD's collector, with the number that is expected of HD next, so
that it tells of no gap itself. Log 194 (DESIGN CHOICE). -/
def Ctl.fwdSummary (c : Ctl) : Ctl :=
  let q := c.trace.fwd
  if q.lossDue && q.room 4096 0 then
    let t := c.stamp dieHD
    let n := Tab.get 0 c.trace.expect (c.coord, dieHD)
    let s : TraceRec := ⟨0, n, traceBytes t.1 dieHD 6 1 0 c.coord (n % 2 ^ 32) (lossPayload q.first q.last q.lost false)⟩
    { t.2 with trace := { t.2.trace with fwd := q.summed s } }
  else c

/-- R476, R477: an own record joins the records to be forwarded, in a FIFO of 4,096. -/
def Ctl.joinFwd (c : Ctl) (r : TraceRec) : Ctl :=
  let c := c.fwdSummary
  let t := c.trace.fwd.take 4096 r
  ({ c with trace := { c.trace with fwd := t.1 } }).shedCount t.2

/-- An accepted record enters a ring and, with `FWD_EN`, waits for the module at `FWD_COORD` (R476). -/
def Ctl.takeIn (c : Ctl) (r : TraceRec) : Ctl :=
  let c := c.collect r.bytes
  if c.on Fld.tr_TR_FWD_FWD_EN then c.joinFwd r else c

/-- Must the collector wait with a record of class 0: the FIFO of those to be forwarded has no entry for it (R477)? -/
def Ctl.fwdFull (c : Ctl) (cls : Nat) : Bool :=
  cls == 0 && c.on Fld.tr_TR_FWD_FWD_EN && !(c.trace.fwd.room (if c.trace.fwd.lossDue then 4095 else 4096) 0)

/-- TRACE_RECORD_ACCEPT (R472 to R478): the next record of a die's FIFO, or the summary of its losses when it is empty. -/
def Ctl.acceptRecord (c : Ctl) (die : Nat) : Ctl :=
  let q := c.fifo die
  match q.recs with
  | r :: t => if c.fwdFull r.cls then c else ((c.setFifo die { q with recs := t }).unwait die).takeIn r
  | [] =>
    if q.lossDue && !c.fwdFull 0 then
      let (t, c) := c.stamp die
      let b := traceBytes t die 0xFF 1 0 c.coord (q.seq % 2 ^ 32) (lossPayload q.first q.last q.lost false)
      ((c.setFifo die { TraceFifo.reset with seq := q.seq + 1, waiting := q.waiting }).unwait die).takeIn ⟨0, q.seq, b⟩
    else c

def execTraceRecordAccept (die : Nat) (s : State) : Host.Outcome State Fault Refusal :=
  if s.m.ctl.hdUp then .next (s.onM (·.onCtl (·.acceptRecord die))) else .next s

/-- The 64-byte records of a frame. -/
def chop64 : Nat → List Nat → List (List Nat)
  | 0, _ => []
  | n + 1, l => if l.length < 64 then [] else l.take 64 :: chop64 n (l.drop 64)

/-- TRACE_FRAME_RECEIVE (R476): forwarded records get `REMOTE` and pass the own filters and triggers. -/
def Ctl.traceFrame (c : Ctl) (bytes : List Nat) : Ctl :=
  c.each (chop64 63 bytes) (fun c b => c.collect (putAt b 12 [setBit (b.getD 12 0) 3 true]))

def execTraceFrameReceive (_src : Nat) (bytes : List Nat) (s : State) : Host.Outcome State Fault Refusal :=
  if s.m.ctl.hdUp then .next (s.onM (·.onCtl (·.traceFrame bytes))) else .next s

/-! ## Snapshots (R475) -/

/-- Where the dump area lies (R480). -/
def dumpBase : Nat := farBase + 0x300000000

/-- Where trace snapshot slot `i` lies. -/
def snapAddr (i : Nat) : Nat := dumpBase + 2 * gib + 0x4000000 * i

/-- A ring's slots from the oldest record written. -/
def Ctl.ringOrder (c : Ctl) (r : Nat) : List Nat :=
  let x := c.tring r
  let n := c.ringS r - c.ringP r
  let k := min x.pre n
  (List.range k).map (fun i => (x.pre - k + i) % n) ++ (List.range x.post).map (fun i => n + i)

/-- The bytes of a slot of the trace buffer. -/
def Ctl.slot (c : Ctl) (i : Nat) : List Nat := padTo 64 (Tab.get [] c.trace.buf i)

/-- RING_SNAPSHOT (R475): a stopped ring is copied, cleared and armed again, and TRACE_STOPPED is posted. -/
def Module.snapshot (m : Module) (r : Nat) : Module :=
  let c := m.ctl
  let order := c.ringOrder r
  let data := (order.map (fun i => c.slot (c.ringBase r + i))).flatten
  let missed := c.rd Fld.tr_TR_COUNTS_MISSED 0 r
  let i := c.rd Fld.tr_SNAP_SNAP_NEXT
  let st := c.stamp dieHD
  let head := padTo 64 ([0x53, 0x4E, 0x50, 0x30, r, 0, 0, 0] ++ le 4 (c.ringP r) ++ le 4 order.length ++ le 4 missed ++ le 4 0
    ++ le 8 st.1 ++ le 4 (crc32c data))
  let m := { m with ctl := st.2 }.write (snapAddr i) (head ++ data)
  m.onCtl (fun c =>
    ((((c.wr Fld.tr_SNAP_SNAP_NEXT ((i + 1) % 8)).bump Fld.tr_SNAP_SNAPS).rearm r).post 0x0901 2 dieHD 0xFF
      ([r, i, 0, 0] ++ le 4 missed)))

def execRingSnapshot (ring : Nat) (s : State) : Host.Outcome State Fault Refusal :=
  if ring < 4 ∧ s.m.ctl.rd Fld.tr_TR_STATUS_STATE 0 ring = 3 then .next (s.onM (·.snapshot ring)) else .next s

/-! ## The dump (R480 to R482) -/

/-- The sections of a dump: block, die and unit. Log 64 (DESIGN CHOICE). -/
def dumpSections : List (Nat × Nat × Nat) :=
  let cds := List.range 8
  let per (b : Nat) (dies : List Nat) (units : Nat) : List (Nat × Nat × Nat) :=
    (dies.map (fun d => (List.range units).map (fun u => (b, d, u)))).flatten
  per 0x01 cds 1 ++ per 0x02 cds 96 ++ per 0x03 cds 1 ++ per 0x04 cds 16 ++ per 0x05 cds 1 ++ per 0x06 cds 1
    ++ per 0x07 cds 1 ++ per 0x08 cds 1 ++ per 0x09 [0x48, 0x49] 32 ++ per 0x0A [dieHB] 1
    ++ per 0x0B [0x40, 0x41, 0x42, 0x43] 9 ++ per 0x0C [dieHB] 1 ++ per 0x0D [dieHB] 1 ++ per 0x0E [dieHD] 1
    ++ per 0x0F [dieHD] 1 ++ per 0x10 [dieHD] 1 ++ per 0x12 cds 64 ++ per 0x13 cds 4 ++ per 0x14 cds 0x77
    ++ per 0x15 [dieHD] 1 ++ per 0x16 logicDies 1

/-- The bytes of a section: a register block's words; the trace buffer and the event ring follow them. -/
def sectionBytes (m : Module) (x : Nat × Nat × Nat) : List Nat :=
  match tblock x.1 x.2.1 x.2.2 with
  | some t => unwords ((List.range (t.size m / 4)).map (fun i => t.word m (4 * i)))
  | none => []

/-- The trace buffer as bytes. -/
def Ctl.traceBuffer (c : Ctl) : List Nat := ((List.range 524288).map c.slot).flatten

/-- The event ring as bytes. -/
def Ctl.ringBytes (c : Ctl) : List Nat :=
  ((List.range 16384).map (fun i => match c.host.ring.find? (fun p => p.1 == i) with
    | some p => p.2.bytes | none => List.replicate 64 0)).flatten

/-- Section entries and data: the offset of each section's data, rising by 64. Log 64 (DESIGN CHOICE). -/
def layoutSections (stamp : Nat) : Nat → List ((Nat × Nat × Nat) × List Nat) → List Nat × List Nat
  | _, [] => ([], [])
  | off, (x, d) :: t =>
    let r := layoutSections stamp (off + up64 d.length) t
    ([x.1, x.2.1, x.2.2, 0] ++ le 4 off ++ le 4 d.length ++ le 4 stamp ++ r.1, padTo (up64 d.length) d ++ r.2)

/-- The bytes of a dump (R482). The spec gives the sections of the trace buffer and of the event ring no block number: theirs
is an open value. -/
def dumpBytes (m : Module) (cause slot seq t0 t1 : Nat) : List Nat :=
  let secs := dumpSections.map (fun x => (x, sectionBytes m x))
    ++ [((Config.openValue 1 [0] % 256, dieHD, 0xFF), m.ctl.traceBuffer), ((Config.openValue 1 [1] % 256, dieHD, 0xFF), m.ctl.ringBytes)]
  let n := secs.length
  let body := layoutSections (t0 % 2 ^ 32) (up64 (128 + 16 * n)) secs
  let data := padTo (up64 (16 * n + 128) - 128) body.1 ++ body.2
  let head (crc : Nat) : List Nat := padTo 128 ([0x44, 0x4D, 0x50, 0x30, 4, 0, cause, slot] ++ le 4 (128 + data.length) ++ le 4 crc
    ++ le 4 seq ++ le 4 n ++ le 8 m.ctl.sec.moduleId ++ le 8 m.ctl.job.step ++ le 4 (m.ctl.rd Fld.st_ST_FW_VERSION)
    ++ le 4 (m.ctl.rdWord .st 0 8) ++ le 8 t0 ++ le 8 t1)
  head (crc32c (head 0 ++ data)) ++ data

/-- Write a dump to slot `DUMP_SEQ` mod 2 (R481); DUMP_WRITTEN waits for READY. Log 19 (DEDUCED). Log 64 (DESIGN CHOICE). -/
def Module.dump (m : Module) (cause : Nat) : Module :=
  let t0 := m.ctl.stamp dieHD
  let t1 := t0.2.stamp dieHD
  let seq := m.ctl.trace.dumpSeq
  let m' := { m with ctl := t1.2 }.write (dumpBase + gib * (seq % 2)) (dumpBytes m cause (seq % 2) seq t0.1 t1.1)
  m'.onCtl (fun c => { c with trace := { c.trace with dumpSeq := seq + 1, dumps := c.trace.dumps ++ [(seq % 2, cause, seq)] } })

/-- DUMP_WRITTEN for every dump not yet announced. -/
def Ctl.announceDumps (c : Ctl) : Ctl :=
  ({ c with trace := { c.trace with dumps := [] } }).each c.trace.dumps
    (fun c d => c.post 0x0902 1 dieHD 0xFF ([d.1, d.2.1, 0, 0] ++ le 4 d.2.2))

/-! ## Breakpoints (R483 to R485) -/

/-- The descriptors of a core's queues fetched and not yet recorded. -/
def Ctl.coreWaiting (c : Ctl) (die core : Nat) : Nat :=
  ((List.range 64).filter (fun q => c.rd Fld.que_Q_CTRL_OWNER die q == core && c.on Fld.que_Q_CTRL_ENABLE die q)).foldl
    (fun n q => n + (c.queue die q).live.length) 0

/-- `WAITING` and `DRAINED` of a core. -/
def Ctl.settleCore (c : Ctl) (x : Nat) : Ctl :=
  let n := c.coreWaiting (x / 4) (x % 4)
  (c.wr Fld.bp_BP_STATE_WAITING (min n 65535) x).wrB Fld.bp_BP_STATE_DRAINED (c.on Fld.bp_BP_STATE_HALTED x && n == 0) x

/-- The cores in a breakpoint's scope. -/
def bpScope (x scope : Nat) : List Nat :=
  if scope == 1 then (List.range 4).map (4 * (x / 4) + ·) else if scope == 2 then List.range 32 else [x]

/-- A core halts for a hit of core `x`. -/
def Ctl.haltCore (c : Ctl) (x slot y : Nat) : Ctl :=
  let c := { c with trace := { c.trace with halts := c.trace.halts ++ [(y, x)] } }
  let c := if y == x then (c.wr Fld.bp_BP_STATE_SLOT slot x).wr Fld.bp_BP_STATE_EXT 0 x
           else if c.on Fld.bp_BP_STATE_HALTED y then c else c.wr Fld.bp_BP_STATE_EXT 1 y
  (c.wr Fld.bp_BP_STATE_HALTED 1 y).settleCore y

/-- R484, R485: breakpoints of a core that hit at one instant, in ascending order, halt every core in their scopes; on a core
already halted they only count. Log 66 (DESIGN CHOICE). -/
def Ctl.breakHits (c : Ctl) (x : Nat) (slots : List Nat) : Ctl :=
  match slots with
  | [] => c
  | slot :: _ =>
    let was := c.on Fld.bp_BP_STATE_HALTED x
    let c := c.bump Fld.bp_BP_HITS_COUNT x 0 slots.length
    if was then c
    else
      let scope (i : Nat) : Nat := c.rd Fld.bp_BPn_CTRL_SCOPE x i
      let c' := c.each ((slots.map (fun i => bpScope x (scope i))).flatten.foldl addNew []) (fun c y => c.haltCore x slot y)
      c'.each slots (fun c i => c.post 0x0903 1 (x / 4) (0x70 + x % 4) [x / 4, x % 4, i, scope i])

/-- R485: release every core that a core's breakpoints halted. Log 67 (DEDUCED). -/
def Ctl.breakResume (c : Ctl) (x : Nat) : Ctl :=
  let mine := (c.trace.halts.filter (fun h => h.2 == x)).map (·.1)
  let rest := c.trace.halts.filter (fun h => h.2 != x)
  ({ c with trace := { c.trace with halts := rest } }).each mine (fun c y =>
    if rest.any (fun h => h.1 == y) then c
    else ((c.wr Fld.bp_BP_STATE_HALTED 0 y).wr Fld.bp_BP_STATE_EXT 0 y).settleCore y)

/-- BREAKPOINT_RESUME (R485). -/
def execBreakpointResume (die core : Nat) (s : State) : Host.Outcome State Fault Refusal :=
  if die < 8 ∧ core < 4 then .next (s.onM (·.onCtl (·.breakResume (4 * die + core)))) else .next s

/-! ## Breakpoints (R483) -/

/-- The armed breakpoints of a core of a kind that satisfy a test, in ascending order. -/
def Ctl.bpMatch (c : Ctl) (x kind : Nat) (p : Nat → Bool) : List Nat :=
  (List.range 4).filter (fun i => c.on Fld.bp_BPn_CTRL_EN x i && c.rd Fld.bp_BPn_CTRL_KIND x i == kind && p i)

/-- FETCH: the queue would fetch descriptor `index`. Log 67 (DEDUCED). -/
def Ctl.bpFetch (c : Ctl) (x q index : Nat) : List Nat :=
  c.bpMatch x 0 (fun i => c.rd Fld.bp_BPn_CTRL_QUEUE x i == q && c.rd Fld.bp_BPn_VAL x i == index)

/-- The local address of a word of a block: the spec gives a die's local address space no layout. Log 66 (DESIGN CHOICE). -/
def localAddr (block inst off : Nat) : Nat := Config.openValue 5 [block, inst, off] % 2 ^ 32

/-- PC: a core would execute an instruction. The spec gives the cores no instructions, so the program counter is open at each; where no
such breakpoint is armed nothing depends on it. Log 66 (DESIGN CHOICE). -/
def Ctl.pcHits (c : Ctl) (x : Nat) : List Nat × Ctl :=
  if (c.bpMatch x 1 (fun _ => true)).isEmpty then ([], c)
  else
    let f := c.fresh
    (c.bpMatch x 1 (fun i => c.rd Fld.bp_BPn_VAL x i == f.1 % 2 ^ 32), f.2)

/-- WATCH: a core has written a word. Log 66 (DESIGN CHOICE). -/
def Ctl.watch (c : Ctl) (die core block inst off : Nat) : Ctl :=
  let x := 4 * die + core
  c.breakHits x (c.bpMatch x 2 (fun i => c.rd Fld.bp_BPn_VAL x i == localAddr block inst off))

/-- WATCH for a write whose command does not say which core made it: that is open, and asked only where such a breakpoint is armed.
Log 66 (DESIGN CHOICE). -/
def Ctl.watchOpen (c : Ctl) (die block inst off : Nat) : Ctl :=
  if (List.range 4).all (fun k => (c.bpMatch (4 * die + k) 2 (fun _ => true)).isEmpty) then c
  else
    let f := c.fresh
    f.2.watch die (f.1 % 4) block inst off

/-! ## Echo over the fabric (R486) -/

/-- The payload of an ECHO record (Table 17-6). -/
def echoPayload (a1 b1 b2 a2 flags link peerLink peerDie coord : Nat) : List Nat :=
  le 8 a1 ++ le 8 b1 ++ le 8 b2 ++ le 8 a2 ++ [flags, link, peerLink, peerDie] ++ le 2 coord

/-- One exchange with a die. -/
def Ctl.echoFabric (c : Ctl) (die : Nat) : Ctl :=
  let a1 := c.stamp dieHB
  let b1 := a1.2.stamp die
  let b2 := b1.2.stamp die
  let a2 := b2.2.stamp dieHB
  a2.2.emit dieHB 2 0x10 1 (echoPayload a1.1 b1.1 b2.1 a2.1 1 0xFF 0xFF die c.coord)

/-- ECHO_FABRIC_EXCHANGE (R486): HB with CD0 to CD7, LK0 to LK3, FM0, FM1 and HD. -/
def execEchoFabricExchange (s : State) : Host.Outcome State Fault Refusal :=
  if s.m.ctl.hdUp then .next (s.onM (·.onCtl (fun c => c.each (logicDies.filter (· != dieHB)) Ctl.echoFabric))) else .next s

end Sys2Proof.Machine
end

