-- ==== Sys2Proof/Machine/Lantern.lean ====
section
/-! DEFINITION. The Lantern of a compute die: merges, commit and discard (R153 to R161). -/

namespace Sys2Proof.Machine

/-- The largest value of a Lantern counter. -/
def cntMax : Nat := 0xFFFFFFFF

/-- R156: the clamp of a sum, 2^64 in units of 2^-64. -/
def sumTop : Nat := 2 ^ 128

/-- A Lantern sum after a contribution: truncated to 2^-64, clamped at 2^64; a NaN is left out (R156). -/
def sumAdd (s : Nat) : Val → Nat
  | .nan => s
  | .inf _ => sumTop
  | .fin _ m => min sumTop (s + m.num * 2 ^ 64 / m.den)

/-- Two lists of counters, added with saturation. -/
def addCounts : List Nat → List Nat → List Nat
  | a :: l, b :: m => min cntMax (a + b) :: addCounts l m
  | l, _ => l

/-- A merge into the provisional part of a role block (R154). -/
def RoleStat.merge (r d : RoleStat) : RoleStat :=
  { amax := max r.amax d.amax, ovf := min cntMax (r.ovf + d.ovf), unf := min cntMax (r.unf + d.unf),
    hist := addCounts r.hist d.hist }

/-- Does a merge pass the largest count? -/
def RoleStat.passes (r d : RoleStat) : Bool :=
  decide (cntMax < r.ovf + d.ovf) || decide (cntMax < r.unf + d.unf) || (r.hist.zip d.hist).any (fun p => decide (cntMax < p.1 + p.2))

/-- A merge into the provisional layer-wide area. -/
def WideStat.merge (r d : WideStat) : WideStat :=
  { agTiles := min cntMax (r.agTiles + d.agTiles), agSum := min sumTop (r.agSum + d.agSum), agMax := max r.agMax d.agMax,
    dwSq := min sumTop (r.dwSq + d.dwSq), wSq := min sumTop (r.wSq + d.wSq) }

/-- A merge into the provisional bank of a record: the role (1 ACT, 2 GRAD, 3 WGT; 0 none), and the layer-wide area. -/
def LayerRec.merge (l : LayerRec) (role : Nat) (d : RoleStat) (w : WideStat) : LayerRec :=
  { l with prov := if role = 0 then l.prov else updAt l.prov (role - 1) (·.merge d), pWide := l.pWide.merge w }

/-- Does a merge pass the largest count? -/
def LayerRec.passes (l : LayerRec) (role : Nat) (d : RoleStat) (w : WideStat) : Bool :=
  (role != 0 && (l.prov.getD (role - 1) RoleStat.reset).passes d) || decide (cntMax < l.pWide.agTiles + w.agTiles)

/-- A merge by a descriptor issued at an epoch: it waits behind a commit or discard that was written before (R158). Log 97 (DEDUCED). -/
def Ctl.mergeAt (c : Ctl) (die epoch layer role : Nat) (d : RoleStat) (w : WideStat) : Ctl :=
  let x := c.die die
  let held := x.fence.isSome && epoch == x.epoch
  let l := Tab.get LayerRec.reset (if held then x.late else x.layers) layer
  let c := if l.passes role d w then c.wr Fld.ln_LN_STATUS_CNT_SAT 1 die else c
  c.onDie die (fun x =>
    if held then { x with late := x.late.set layer (l.merge role d w) }
    else { x with layers := x.layers.set layer (l.merge role d w) })

/-- R154: what the Lantern makes of a merge. Log 97 (DEDUCED). -/
def Ctl.lanternMerge (c : Ctl) (die epoch layer role : Nat) (d : RoleStat) (w : WideStat) : Ctl :=
  if !c.on Fld.ln_LN_CTRL_ENABLE die then c
  else if c.rd Fld.ln_LN_LAYERS_COUNT die ≤ layer then c.bump Fld.ln_LN_BADLAYER_COUNT die
  else c.mergeAt die epoch layer role d w

/-- A merge of captures and events of a role; a descriptor without a role is invisible (R153). -/
def Ctl.roleMerge (c : Ctl) (die epoch layer role : Nat) (d : RoleStat) : Ctl :=
  if role = 0 then c else c.lanternMerge die epoch layer role d WideStat.reset

/-- A merge into the layer-wide area. -/
def Ctl.wideMerge (c : Ctl) (die epoch layer : Nat) (w : WideStat) : Ctl :=
  c.lanternMerge die epoch layer 0 RoleStat.reset w

/-! ## The histogram (R155) -/

/-- floor(log2) of a nonzero finite FP32 code. -/
def fp32Log (v : Nat) : Int := (fp32.magOf (v % 2 ^ 31)).log2

/-- The bin of a capture value in a block of maximum `mb`: none for zero. -/
def binOf (mb v : Nat) : Option Nat :=
  if v = 0 then none
  else if v = 0x7F800000 then some 0
  else if mb = 0x7F800000 then some 15
  else some (min 15 (fp32Log mb - fp32Log v).toNat)

/-- The captures of one block, binned against their own maximum. -/
def histBlock (l : List Nat) : List Nat :=
  let mb := l.foldl max 0
  (l.filterMap (binOf mb)).foldl (fun h b => updAt h b (· + 1)) (List.replicate 16 0)

/-- The captures of a conversion, each with the block it lies in. -/
def histOf (l : List (Nat × Nat)) : List Nat :=
  ((l.map (·.1)).foldl addNew []).foldl
    (fun h b => addCounts h (histBlock ((l.filter (fun p => p.1 == b)).map (·.2)))) (List.replicate 16 0)

/-- The statistics of captures (block, value) and events. -/
def statOf (l : List (Nat × Nat)) (ovf unf : Nat) : RoleStat :=
  { amax := (l.map (·.2)).foldl max 0, ovf := ovf, unf := unf, hist := histOf l }

/-! ## Commit and discard (R158, R159) -/

/-- `C_RUNMAX` × (1 − 2^−d), rounded upward; nothing remains of it with d = 0. -/
def decayed (d v : Nat) : Nat :=
  if d = 0 then 0
  else match fp32Val v with
    | .fin _ m => fp32RoundUp (m.mul ⟨2 ^ d - 1, 2 ^ d⟩)
    | _ => v

/-- The committed running maxima. -/
def runMaxes (d : Nat) : List RoleStat → List Nat → List Nat
  | p :: l, r :: m => max p.amax (decayed d r) :: runMaxes d l m
  | _, _ => []

/-- The provisional bank, cleared. -/
def LayerRec.clear (l : LayerRec) : LayerRec :=
  { l with prov := List.replicate 3 RoleStat.reset, pWide := WideStat.reset }

/-- R159: COMMIT on a record. -/
def LayerRec.commit (d : Nat) (l : LayerRec) : LayerRec :=
  { l with comm := l.prov, runmax := runMaxes d l.prov l.runmax, cWide := l.pWide }.clear

/-- The provisional bank that merges of later descriptors have begun. -/
def withLate (late : Tab Nat LayerRec) (t : Tab Nat LayerRec) : Tab Nat LayerRec :=
  late.foldl (fun t p =>
    t.set p.1 { (Tab.get LayerRec.reset t p.1) with prov := p.2.prov, pWide := p.2.pWide }) t

/-- A commit or a discard on every layer of a die. -/
def lanternEnd (commit : Bool) (d : Nat) (x : DieSt) : DieSt :=
  { x with
    layers := withLate x.late (x.layers.map (fun p => (p.1, if commit then p.2.commit d else p.2.clear)))
    late := []
    fence := none }

/-- A descriptor issued before the present epoch whose merges have not landed. -/
def DieSt.before (x : DieSt) : Bool :=
  x.queues.any (fun q =>
    q.2.ring.any (fun s => decide (s.epoch < x.epoch))
      || q.2.live.any (fun d => decide (d.slot.epoch < x.epoch) && d.stage != .done))

/-- The effect of a commit or discard that waits for no merge any more. Log 97 (DEDUCED). Log 124 (DEDUCED). -/
def Ctl.fenceEffect (c : Ctl) (die : Nat) : Ctl :=
  match (c.die die).fence with
  | none => c
  | some commit =>
    let c := c.onDie die (lanternEnd commit (c.rd Fld.ln_LN_DECAY_SHIFT die))
    let c := (c.wr Fld.ln_LN_STATUS_FENCE 0 die).wr Fld.ln_LN_STATUS_CNT_SAT 0 die
    if commit then c.bump Fld.ln_LN_COMMITS_COUNT die else c.bump Fld.ln_LN_DISCARDS_COUNT die

/-- A write of `COMMIT` or `DISCARD`, ignored while `FENCE` is 1. Log 124 (DEDUCED). -/
def Ctl.fenceWrite (c : Ctl) (die : Nat) (commit : Bool) : Ctl :=
  if (c.die die).fence.isSome then c
  else (c.onDie die (fun x => { x with fence := some commit, epoch := x.epoch + 1 })).wr Fld.ln_LN_STATUS_FENCE 1 die

def execCommit (die : Nat) (s : State) : Host.Outcome State Fault Refusal :=
  if s.m.ctl.dieUp die then .next (s.onM (·.onCtl (fun c => (c.fenceWrite die true).watchOpen die 0x03 die 0))) else .next s

def execDiscard (die : Nat) (s : State) : Host.Outcome State Fault Refusal :=
  if s.m.ctl.dieUp die then .next (s.onM (·.onCtl (fun c => (c.fenceWrite die false).watchOpen die 0x03 die 0))) else .next s

/-- LANTERN_FENCE_EFFECT: once the merges of every earlier descriptor have landed. -/
def execLanternFenceEffect (die : Nat) (s : State) : Host.Outcome State Fault Refusal :=
  if s.m.ctl.dieUp die && !(s.m.ctl.die die).before then .next (s.onM (·.onCtl (·.fenceEffect die))) else .next s

end Sys2Proof.Machine
end

