-- ==== Sys2Proof/Machine/Cow.lean ====
section
/-! DEFINITION. Writes of the module's own units: the copy-on-write of a generation that drains, and the granules written in a
step (R306, R363, R370). Memory always holds the newest contents; a pool entry holds a line as it stood at the seal. -/

namespace Sys2Proof.Machine

/-- A line that a slot's drain has still to copy. -/
def GenSlot.marked (g : GenSlot) (line : Nat) : Bool := g.todo.any (fun p => p.2 == line)

/-- The stack whose pool a line takes space of. -/
def lineStack (line : Nat) : Nat :=
  match stackOf (line * 64) with
  | some n => n
  | none => (sramOf (line * 64)).getD 0

/-- Lines held in a stack's pool. Log 128 (DEDUCED). -/
def Ctl.poolUsed (c : Ctl) (n : Nat) : Nat :=
  c.gen.slots.foldl (fun k g => k + (g.pool.filter (fun (p : Nat × (List Nat × Bool)) => lineStack p.1 == n)).length) 0

/-- Is a stack's pool full (Table 11-3)? -/
def Ctl.poolFull (c : Ctl) (n : Nat) : Bool := decide (c.rd Fld.fl_FL_COW_GIB * gib ≤ c.poolUsed n * 64)

/-- Must a write to this line save it first, for a slot? -/
def GenSlot.needsPool (g : GenSlot) (line : Nat) : Bool := g.marked line && !Tab.has g.pool line

/-- The same, for any slot. -/
def Ctl.needsPool (c : Ctl) (line : Nat) : Bool := c.gen.slots.any (·.needsPool line)

/-- Is a line still to be drained, for any slot? -/
def Ctl.marked (c : Ctl) (line : Nat) : Bool := c.gen.slots.any (·.marked line)

/-- Change every slot. -/
def Ctl.onSlots (c : Ctl) (f : GenSlot → GenSlot) : Ctl := { c with gen := { c.gen with slots := c.gen.slots.map f } }

/-- Change one slot. -/
def Ctl.onSlot (c : Ctl) (k : Nat) (f : GenSlot → GenSlot) : Ctl := { c with gen := { c.gen with slots := updAt c.gen.slots k f } }

/-- A slot. -/
def Ctl.gslot (c : Ctl) (k : Nat) : GenSlot := c.gen.slots.getD k GenSlot.reset

/-- The lines a span touches. -/
def spanLines (a len : Nat) : List Nat := if len = 0 then [] else (List.range ((a + len - 1) / 64 - a / 64 + 1)).map (a / 64 + ·)

/-- Entries that saving a line adds to its pool: one for each slot that still drains it. -/
def Ctl.poolNeed (c : Ctl) (line : Nat) : Nat := (c.gen.slots.filter (·.needsPool line)).length

/-- R306: the first of some lines to be written that finds its pool full, once those before it have been saved (`taken`: stack and
entries). -/
def Ctl.cowFirst (c : Ctl) : List (Nat × Nat) → List Nat → Option Nat
  | _, [] => none
  | taken, l :: t =>
    let n := lineStack l
    let k := c.poolUsed n + ((taken.filter (fun p => p.1 == n)).map (·.2)).foldl (· + ·) 0
    if !c.needsPool l then c.cowFirst taken t
    else if c.rd Fld.fl_FL_COW_GIB * gib < (k + c.poolNeed l) * 64 then some l
    else c.cowFirst (taken ++ [(n, c.poolNeed l)]) t

/-- R306: the line, if any, whose drain a write of some spans must wait for. -/
def Ctl.cowBlock (c : Ctl) (spans : List (Nat × Nat)) : Option Nat :=
  c.cowFirst [] ((spans.map (fun (p : Nat × Nat) => spanLines p.1 p.2)).flatten.foldl addNew [])

/-- Save a line as it stands; the writer has waited until its pool has room (R306). Log 127 (DESIGN CHOICE). -/
def Module.saveLine (m : Module) (l : Nat) : Module :=
  if m.ctl.needsPool l then
    let b := (memRead m.mem (l * 64) 64, m.ctl.bad (l * 64))
    m.onCtl (·.onSlots (fun g => if g.needsPool l then { g with pool := g.pool.set l b } else g))
  else m

/-- The granules a span touches (R363). -/
def Ctl.noteWritten (c : Ctl) (a len : Nat) : Ctl :=
  if len = 0 then c
  else { c with gen := { c.gen with
    written := (List.range ((a + len - 1) / 65536 - a / 65536 + 1)).foldl (fun l i => addNew l (a / 65536 + i)) c.gen.written } }

/-- A write by a unit of the module. -/
def Module.store (m : Module) (a : Nat) (b : List Nat) : Module :=
  let m := (spanLines a b.length).foldl Module.saveLine m
  (m.onCtl (·.noteWritten a b.length)).write a b

/-- The line that a waiting write needs moves to the head of the drain order (R306). -/
def Ctl.drainFirst (c : Ctl) (line : Nat) : Ctl :=
  c.onSlots (fun g => { g with todo := g.todo.filter (fun p => p.2 == line) ++ g.todo.filter (fun p => p.2 != line) })

/-- COW_WAIT: counted at the stack of the line that is written, whichever die writes it. Log 201 (DESIGN CHOICE). -/
def Ctl.cowWait (c : Ctl) (line : Nat) : Ctl := (c.bump Fld.nm_NM_COW_CNT_COUNT (lineStack line)).drainFirst line

/-! ## Where images lie -/

/-- Where a slot begins: the region of R299 has two halves (R365). Log 125 (DESIGN CHOICE). -/
def Ctl.slotBase (c : Ctl) (k : Nat) : Nat :=
  let n := c.rd Fld.fl_FL_GEN_GIB * gib
  farBase + farSize - n + k * (n / 2)

/-- w of R241 gives the bytes of a row, and the bytes of the scale array. -/
def imageRow (t : Tensor) : Nat :=
  let w := if t.steered && decide (0x31 ≤ t.decl) && decide (t.decl ≤ 0x3F) then 16 else (match Fmt.ofCode t.decl with | some f => f.bits | none => 0)
  (t.cols * w + 7) / 8
def imageScales (t : Tensor) : Nat :=
  if !t.scaled then 0
  else if t.innerRows then t.cols * ((t.rows + t.bsize - 1) / t.bsize) else t.rows * ((t.cols + t.bsize - 1) / t.bsize)

/-- The bytes of an image before padding (R364). -/
def imageLen (t : Tensor) : Nat := t.rows * imageRow t + imageScales t

/-- R364: where the rows and the scale bytes of an image lie at home, how many bytes each has, and their offset in the image. -/
def imageSpans (t : Tensor) : List (Nat × Nat × Nat) :=
  (List.range t.rows).map (fun r => (t.base + r * t.stride, imageRow t, r * imageRow t))
    ++ (if t.scaled then [(t.scaleBase, imageScales t, t.rows * imageRow t)] else [])

/-- The part of a span inside a memory line: its first and last byte within the line, and the offset of the first. -/
def spanIn (l : Nat) (p : Nat × Nat × Nat) : Option (Nat × Nat × Nat) :=
  let a := max p.1 (l * 64)
  let e := min (p.1 + p.2.1) (l * 64 + 64)
  if a < e then some (a - l * 64, e - l * 64, p.2.2 + (a - p.1)) else none

/-! ## The drain of one line (R306, R368, R370, R371) -/

/-- What the drain reads of a line: as it stood at the seal; one that names no memory reads poisoned (R297). Log 127 (DESIGN CHOICE). -/
def Module.sealedLine (m : Module) (g : GenSlot) (l : Nat) : List Nat × Bool :=
  Tab.get (memRead m.mem (l * 64) 64, m.ctl.bad (l * 64) || !namesMemory (l * 64)) g.pool l

/-- Bytes of a line enter an image in the slot; a poisoned line poisons the lines it enters. -/
def Module.putPiece (m : Module) (a : Nat) (b : List Nat) (bad : Bool) (x : Nat × Nat × Nat) : Module :=
  let m := m.write (a + x.2.2) ((b.drop x.1).take (x.2.1 - x.1))
  if bad then m.onCtl (fun c => c.each (spanLines (a + x.2.2) (x.2.1 - x.1)) (fun c l => c.setPoison l true)) else m

/-- R371: the first poisoned line of an image. -/
def Ctl.imagePoisoned (c : Ctl) (k i : Nat) (x : Image) (gen : Nat) : Ctl :=
  if x.bad then c
  else
    let c := (c.onSlot k (fun g => { g with
      flags := setBit g.flags 0 true
      images := updAt g.images i (fun y => { y with bad := true }) })).bump Fld.sg_SG_POISON_CNT_COUNT
    c.post 0x0605 2 dieHB 0xFF (le 4 gen ++ [x.die, 0, 0, 0] ++ le 4 x.key)

/-! ### The record of a slot (Tables 13-6 and 13-7) -/

/-- Table 13-7. -/
def Image.bytes (x : Image) : List Nat :=
  le 4 x.key ++ [if x.isSect then 0x50 else x.die, x.kind, b2n x.bad + 2 * b2n x.unchanged, 0] ++ le 2 x.tensor ++ le 2 x.rset
    ++ le 4 x.crc ++ le 8 x.off ++ le 8 x.len

def GenSlot.directory (g : GenSlot) : List Nat := (g.images.map Image.bytes).flatten

/-- Bytes of images and sections. -/
def GenSlot.captureBytes (g : GenSlot) : Nat := g.images.foldl (fun n x => n + x.len) 0

/-- Where the directory's contents end. -/
def GenSlot.endOfs (g : GenSlot) : Nat := g.images.foldl (fun n x => max n (x.off + x.len)) (up64 (256 + 32 * g.images.length))

def stripLen : Nat := 4194304
def extentLen : Nat := 1048576

/-- Where the parity area lies in a slot: after the mirrors (R365). -/
def GenSlot.parityOfs (g : GenSlot) : Nat := g.endOfs + 64 * g.mirror.length

/-- Where the parity area ends. -/
def GenSlot.heldEnd (g : GenSlot) : Nat := g.parityOfs + stripLen * g.parity.length

/-- Table 13-6, its `CRC` given. Log 125 (DESIGN CHOICE). -/
def GenSlot.recordWith (g : GenSlot) (crc : Nat) : List Nat :=
  let d := g.directory
  padTo 256 ([0x53, 0x43, 0x48, 0x30, 4, 0, 0, 0] ++ le 4 crc ++ [g.state, g.flags] ++ le 2 g.rank ++ le 4 g.gen ++ le 4 g.base ++ le 8 g.step
    ++ le 8 g.jobId ++ le 4 g.planSeq ++ le 4 g.rcSeq ++ le 8 g.sealStamp ++ le 8 g.localStamp ++ le 4 g.images.length ++ le 4 (crc32c d)
    ++ le 8 g.captureBytes ++ le 8 g.endOfs ++ le 8 (64 * g.mirror.length) ++ le 8 g.parityOfs ++ le 8 (stripLen * g.parity.length)
    ++ le 4 g.digest
    ++ (g.lessonIds.map (le 8)).flatten ++ le 8 g.ttId)

def GenSlot.record (g : GenSlot) : List Nat := g.recordWith (crc32c (g.recordWith 0))

/-- The record and the directory of a slot are written; a slot being built for a replacement has none yet (R386). -/
def Module.putRecord (m : Module) (k : Nat) : Module :=
  let g := m.ctl.gslot k
  m.write (m.ctl.slotBase k) (padTo (up64 (256 + 32 * g.images.length)) (g.record ++ g.directory))

/-- A line of an image is copied into the slot; the pool forgets the line once no image of the slot needs it; the record
follows an entry that takes `POISONED`. Log 127 (DESIGN CHOICE). -/
def Module.copyLine (m : Module) (k : Nat) (x : Nat × Nat) : Module :=
  let g := m.ctl.gslot k
  match g.images[x.1]? with
  | none => m
  | some y =>
    let b := m.sealedLine g x.2
    let todo := g.todo.erase x
    let m := ((imageSpans y.t).filterMap (spanIn x.2)).foldl
      (fun m p => m.putPiece (m.ctl.slotBase k + y.off) b.1 b.2 p) m
    let m := m.onCtl (fun c =>
      let c := c.onSlot k (fun g => { g with
        todo := todo
        pool := if todo.any (fun p => p.2 == x.2) then g.pool else g.pool.del x.2 })
      let c := c.add Fld.sg_SG_DRAIN_BYTES 64
      let c := if namesMemory (x.2 * 64) then c else c.addrInvalid dieHB 0xFF (x.2 * 64)
      if b.2 then (c.poisonCnt (x.2 * 64) 1).imagePoisoned k x.1 y g.gen else c)
    if b.2 && !y.bad then m.putRecord k else m

/-- Every slot's copy of a line. -/
def Module.copyLines (m : Module) (l : Nat) : Module :=
  [0, 1].foldl (fun m k => ((m.ctl.gslot k).todo.filter (fun p => p.2 == l)).foldl (fun m x => m.copyLine k x) m) m

/-- COW_WAIT of a write by a unit that has no step of its own to wait in: once for its descriptor, where it has one (R306). -/
def Ctl.cowOnce (c : Ctl) (die : Nat) (who : Option (Nat × Nat)) (line : Nat) : Ctl :=
  match who with
  | none => c.bump Fld.nm_NM_COW_CNT_COUNT (lineStack line)
  | some (q, seq) =>
    if (Tab.get QueueSt.reset (c.die die).queues q).live.any (fun d => d.seq == seq && d.cowRaised) then c
    else (c.bump Fld.nm_NM_COW_CNT_COUNT (lineStack line)).onDie die (fun x => { x with queues := x.queues.upd QueueSt.reset q (fun y =>
      { y with live := y.live.map (fun d => if d.seq = seq then { d with cowRaised := true } else d) }) })

/-- R306 for a unit that has no step of its own to wait in: the drain copies first each line that finds its pool full; the others are
saved. -/
def Module.makeWay (m : Module) (die : Nat) (who : Option (Nat × Nat)) (spans : List (Nat × Nat)) : Module :=
  let ls := (spans.map (fun (p : Nat × Nat) => spanLines p.1 p.2)).flatten.foldl addNew []
  let m := match m.ctl.cowFirst [] ls with
    | some l => m.onCtl (·.cowOnce die who l)
    | none => m
  ls.foldl (fun m l => if (m.ctl.cowFirst [] [l]).isSome then m.copyLines l else Module.saveLine m l) m

/-- A write whose lines each name memory or not: those that do not are discarded, each with ADDR_INVALID (R297). -/
def Module.storeNamed (m : Module) (die unit a : Nat) (b : List Nat) : Module :=
  (spanLines a b.length).foldl (fun m l =>
    let lo := max a (l * 64)
    let hi := min (a + b.length) (l * 64 + 64)
    if namesMemory (l * 64) then m.write lo ((b.drop (lo - a)).take (hi - lo)) else m.onCtl (·.addrInvalid die unit (l * 64))) m

end Sys2Proof.Machine
end

