-- ==== Sys2Proof/Machine/Lesson.lean ====
section
/-! DEFINITION. The Lesson image, its load checks and what a load writes (R238 to R246, R252, R301, R362). -/

namespace Sys2Proof.Machine

/-! ## The image (R238) -/

/-- A section entry. -/
structure Sect where
  type : Nat
  rsv : Nat
  count : Nat
  off : Nat
  len : Nat
deriving DecidableEq, Repr

/-- A section entry's 16 bytes. -/
def sectOf (b : List Nat) : Sect := ⟨fieldAt b 0 2, fieldAt b 2 2, fieldAt b 4 4, fieldAt b 8 4, fieldAt b 12 4⟩

/-- The section entries of an image. -/
def imgSects (img : List Nat) : List Sect := (List.range (fieldAt img 16 2)).map (fun i => sectOf (bytesAt img (64 + 16 * i) 16))

/-- A section by its type. -/
def imgSect (img : List Nat) (t : Nat) : Option Sect := (imgSects img).find? (fun x => x.type == t)

/-- The records of a section. -/
def imgRecs (img : List Nat) (t size : Nat) : List (List Nat) :=
  match imgSect img t with
  | some x => (List.range x.count).map (fun i => bytesAt img (x.off + size * i) size)
  | none => []

def imgLayers (img : List Nat) : Nat := fieldAt img 20 4
def imgId (img : List Nat) : Nat := fieldAt img 24 8

/-- The INIT blocks: address, reserved bytes, data. The walk takes at most `n` blocks. -/
def initBlocks : Nat → List Nat → List (Nat × Nat × List Nat × Nat)
  | 0, _ => []
  | n + 1, b =>
    let len := fieldAt b 8 4
    let size := 16 + (len + 15) / 16 * 16
    (fieldAt b 0 8, fieldAt b 12 4, bytesAt b 16 len, size) :: initBlocks n (b.drop size)

/-- The INIT blocks of an image. -/
def imgInit (img : List Nat) : List (Nat × Nat × List Nat × Nat) :=
  match imgSect img 9 with
  | some x => initBlocks x.count (bytesAt img x.off x.len)
  | none => []

/-! ## Check 2 (Tables 9-1 to 9-3) -/

/-- Record size (0: variable), least and greatest `COUNT`, and whether the section is required. -/
def sectLimits : Nat → Option (Nat × Nat × Nat × Bool)
  | 1 => some (64, 0, 65536, true)
  | 2 => some (64, 0, 16777216, true)
  | 3 => some (32, 0, 64, true)
  | 4 => some (8, 0, 16777216, true)
  | 5 => some (16, 0, 6144, false)
  | 6 => some (4, 0, 16777216, false)
  | 7 => some (4, 256, 256, false)
  | 8 => some (16, 1, 1, false)
  | 9 => some (0, 0, 4096, false)
  | _ => none

/-- One section entry of an image of a size. -/
def sectOk (size nsect : Nat) (x : Sect) : Bool :=
  match sectLimits x.type with
  | none => false
  | some (rs, lo, hi, _) =>
    x.rsv == 0 && decide (lo ≤ x.count ∧ x.count ≤ hi) && x.off % 64 == 0 && decide (64 + 16 * nsect ≤ x.off)
      && decide (x.off + x.len ≤ size) && (rs == 0 || x.len == x.count * rs)

/-- Do two sections overlap: they share a byte, or one of length 0 lies strictly inside the other? Log 199 (DESIGN CHOICE). -/
def sectsMeet (x y : Sect) : Bool := decide (x.off < y.off + y.len ∧ y.off < x.off + x.len)

/-- Every section alone, and no two of one type or overlapping. -/
def sectsOk (size nsect : Nat) : List Sect → Bool
  | [] => true
  | x :: t => sectOk size nsect x && t.all (fun y => y.type != x.type && !sectsMeet x y) && sectsOk size nsect t

/-- The sections that must be there. -/
def sectsPresent (l : List Sect) : Bool :=
  [1, 2, 3, 4].all (fun t => l.any (fun x => x.type == t)) && (!l.any (fun x => x.type == 5) || l.any (fun x => x.type == 6))

/-- An INIT block lies inside the die's SRAM or near window. -/
def initOk (die : Nat) (b : Nat × Nat × List Nat × Nat) : Bool :=
  let a := b.1
  let n := b.2.2.1.length
  b.2.1 == 0 && decide (a < 2 ^ 52) &&
    ((decide (nearBase die ≤ a) && decide (a + n ≤ nearBase die + nearSize))
      || (decide (sramBase die ≤ a) && decide (a + n ≤ sramBase die + sramSize)))

/-- INIT's own length is that of its blocks. -/
def initLen (img : List Nat) : Bool :=
  match imgSect img 9 with
  | some x => x.len == ((imgInit img).map (fun b => b.2.2.2)).foldl (· + ·) 0
  | none => true

/-- The header's constants. -/
def headerOk (img : List Nat) (blen : Nat) : Bool :=
  img.take 8 == [0x4C, 0x53, 0x4E, 0x30, 4, 0, 0, 0] && decide (fieldAt img 8 4 ≤ blen) && decide (fieldAt img 8 4 ≤ 0x60000000)
    && decide (4 ≤ fieldAt img 16 2 ∧ fieldAt img 16 2 ≤ 9) && fieldAt img 18 2 == 0 && decide (imgLayers img ≤ 2048)
    && (bytesAt img 32 32).all (· == 0)

/-- Check 2: LESSON_FORMAT. -/
def formatOk (img : List Nat) (blen die : Nat) : Bool :=
  let size := fieldAt img 8 4
  let n := fieldAt img 16 2
  headerOk img blen && decide (64 + 16 * n ≤ size) && sectsOk size n (imgSects img) && sectsPresent (imgSects img) && initLen img
    && (imgInit img).all (initOk die)

/-- Check 3: LESSON_CRC. -/
def lessonCrcOk (img : List Nat) : Bool :=
  crc32c (putAt (img.take (fieldAt img 8 4)) 12 [0, 0, 0, 0]) == fieldAt img 12 4

/-! ## Check 4: tensor table entries (R240, R241, R301, R362) -/

/-- A tensor table entry, its format as declared (Table 9-4). -/
def tensorOf (idx : Nat) (b : List Nat) : Tensor :=
  let k := b.getD 8 0
  let f := b.getD 9 0
  { idx := idx, base := fieldAt b 0 8 % 2 ^ 52, decl := k % 64, fmt := k % 64, steered := bit k 6, frozen := bit k 7,
    bsize := if bit f 0 then 32 else 16, scaled := bit f 1, innerRows := bit f 2, masterEn := bit f 3, inTb := bit f 4,
    tb := bitsOf f 5 2, tbVu := b.getD 10 0 % 16, wlayer := fieldAt b 12 2 % 2048, wrole := bitsOf (fieldAt b 12 2) 11 2,
    master := fieldAt b 14 2, rows := fieldAt b 16 4, cols := fieldAt b 20 4, stride := fieldAt b 24 4,
    scaleBase := fieldAt b 32 8 % 2 ^ 52 }

/-- Storage width of a format code, 0 where the code is reserved. -/
def fmtBits (code : Nat) : Nat := match Fmt.ofCode code with | some f => f.bits | none => 0

/-- Is a code one of the Ib formats? -/
def isIb (code : Nat) : Bool := decide (0x31 ≤ code) && decide (code ≤ 0x3F)

/-- Is a code on the ladder (Table 6-3)? -/
def onLadder (code : Nat) : Bool := code == 0x04 || code == 0x05 || code == 0x09 || code == 0x0C

/-- w of R241. -/
def entryWidth (t : Tensor) : Nat := if t.steered && isIb t.decl then 16 else fmtBits t.decl

/-- Bytes of a row, packed. -/
def rowBytes (cols w : Nat) : Nat := (cols * w + 7) / 8

/-- Does a span lie inside one region that Lesson tensors may use (R301)? -/
def Ctl.tensorSpan (c : Ctl) (a n : Nat) : Bool :=
  let last := a + n - 1
  match stackOf a with
  | some s => decide (last < nearBase s + 70 * gib - c.rd Fld.fl_FL_COW_GIB * gib)
  | none =>
    match sramOf a with
    | some d => decide (last < sramBase d + sramSize)
    | none =>
      match farOff a with
      | some o =>
        let b := c.rd Fld.fl_FL_BAR2_BASE_GIB * gib
        let z := c.rd Fld.fl_FL_BAR2_SIZE_GIB * gib
        decide (16 * gib ≤ o) && decide (o + n ≤ farSize - c.rd Fld.fl_FL_GEN_GIB * gib) && (z == 0 || decide (o + n ≤ b) || decide (b + z ≤ o))
      | none => false

/-- The reserved bits of an entry. -/
def entryReserved (b : List Nat) : Bool :=
  decide (fieldAt b 0 8 < 2 ^ 52) && !bit (b.getD 9 0) 7 && decide (b.getD 10 0 < 16) && b.getD 11 0 == 0
    && decide (fieldAt b 12 2 < 2 ^ 13) && fieldAt b 28 4 == 0 && decide (fieldAt b 32 8 < 2 ^ 52) && (bytesAt b 48 16).all (· == 0)

/-- R362: `GEN_ATTR` of an entry. Log 81 (DEDUCED). -/
def attrOk (b : List Nat) : Bool :=
  let g := fieldAt b 40 8
  let m := g % 8
  decide (m ≤ 4) && bitsOf g 3 5 == 0 && bitsOf g 24 8 == 0 && !(bit (b.getD 9 0) 4 && m != 0)
    && !(m == 1 && bitsOf g 8 16 == 0)

/-- The format of an entry (R26, R240, R241). -/
def entryFormat (t : Tensor) : Bool :=
  match Fmt.ofCode t.decl with
  | none => false
  | some f => t.decl != 0x0F && (!t.scaled || f.scalable) && (!t.steered || onLadder t.decl || isIb t.decl)

/-- The extent of an entry (R241, R301). -/
def Ctl.entrySpan (c : Ctl) (t : Tensor) : Bool :=
  let rb := rowBytes t.cols (entryWidth t)
  decide (1 ≤ t.rows) && decide (1 ≤ t.cols) && decide (rb ≤ t.stride) &&
    (if t.inTb then t.base == 0 && decide (t.stride ≤ 65536) else c.tensorSpan t.base ((t.rows - 1) * t.stride + rb))

/-- One entry. -/
def Ctl.entryOk (c : Ctl) (b : List Nat) : Bool :=
  let t := tensorOf 0 b
  entryReserved b && attrOk b && entryFormat t && c.entrySpan t

/-- The keys of the entries that a generation holds. -/
def tkeys (l : List (List Nat)) : List Nat := (l.filter (fun b => fieldAt b 40 8 % 8 != 0)).map (fun b => fieldAt b 44 4)

/-- Are the elements of a list distinct? -/
def distinct : List Nat → Bool
  | [] => true
  | x :: t => !t.contains x && distinct t

/-- Check 4: LESSON_TENSOR. -/
def Ctl.tensorsOk (c : Ctl) (img : List Nat) : Bool := (imgRecs img 1 64).all c.entryOk && distinct (tkeys (imgRecs img 1 64))

/-! ## Check 5: queue records and programs (R245, R246) -/

/-- A program word of kind ISSUE, DRAIN or END, among `ndesc` descriptors. -/
def wordOk (ndesc w : Nat) : Bool :=
  match w % 16 with
  | 1 => bitsOf w 4 4 == 0 && bitsOf w 56 8 == 0 && decide (bitsOf w 24 32 + bitsOf w 8 16 ≤ ndesc)
  | 2 => w == 2
  | 3 => w == 3
  | _ => false

/-- A program: END is its last word and no other. -/
def programOk (ndesc : Nat) : List Nat → Bool
  | [] => false
  | [w] => w == 3
  | w :: t => wordOk ndesc w && w % 16 != 3 && programOk ndesc t

/-- The PROGRAM words of an image. -/
def imgProgram (img : List Nat) : List Nat := (imgRecs img 4 8).map unle

/-- How many descriptors an image holds. -/
def imgDescs (img : List Nat) : Nat := match imgSect img 2 with | some x => x.count | none => 0

/-- A power of two from 16 to 1,024. -/
def slotsOk (n : Nat) : Bool := [16, 32, 64, 128, 256, 512, 1024].contains n

/-- A QUEUES record. -/
def queueRecOk (img b : List Nat) : Bool :=
  let first := fieldAt b 4 4
  let n := fieldAt b 8 4
  decide (b.getD 0 0 < 64) && decide (b.getD 1 0 < 4) && decide (b.getD 2 0 < 2) && b.getD 3 0 == 0 && slotsOk (fieldAt b 12 2)
    && (bytesAt b 14 18).all (· == 0) && decide (first + n ≤ (imgProgram img).length)
    && programOk (imgDescs img) (((imgProgram img).drop first).take n)

/-- Check 5: LESSON_PROGRAM. -/
def programsOk (img : List Nat) : Bool :=
  let qs := imgRecs img 3 32
  qs.all (queueRecOk img) && distinct (qs.map (fun b => b.getD 0 0)) && (imgProgram img).all (wordOk (imgDescs img))

/-! ## Check 6: groups (R252) -/

/-- The descriptor indices that GROUP_INDEX lists. -/
def imgIndex (img : List Nat) : List Nat := (imgRecs img 6 4).map unle

/-- The operation code of an image's descriptor. -/
def imgOpc (img : List Nat) (i : Nat) : Nat := match imgSect img 2 with | some x => img.getD (x.off + 64 * i) 0 | none => 0

/-- The indices a GROUPS record selects. -/
def groupDescs (img b : List Nat) : List Nat := ((imgIndex img).drop (fieldAt b 4 4)).take (fieldAt b 8 4)

/-- A GROUPS record. -/
def groupRecOk (img b : List Nat) : Bool :=
  decide (fieldAt b 0 2 < 2 ^ 13) && b.getD 3 0 == 0 && (bytesAt b 12 4).all (· == 0) && decide (fieldAt b 0 2 % 2048 < imgLayers img)
    && decide (fieldAt b 4 4 + fieldAt b 8 4 ≤ (imgIndex img).length)
    && (groupDescs img b).all (fun i => decide (i < imgDescs img) && imgOpc img i == 0x10)

/-- Check 6: LESSON_GROUP. -/
def groupsOk (img : List Nat) : Bool :=
  let g := imgRecs img 5 16
  g.all (groupRecOk img) && distinct (g.map (fun b => fieldAt b 0 2))

/-! ## Check 7: placement (R243) -/

/-- The use mask of an image: every array where it has no ARRAYS section. -/
def imgMask (img : List Nat) : Nat := match imgRecs img 8 16 with | b :: _ => fieldAt b 0 12 | [] => 2 ^ 96 - 1

/-- Is a physical array of a die enabled? -/
def Ctl.arrayEnabled (c : Ctl) (die p : Nat) : Bool := !c.on Fld.ma_MA_REPAIR_RETIRED (96 * die + p)

/-- The second pass: each unmapped logical array takes the lowest enabled array that is neither used nor taken. -/
def placeRest (free : List Nat) : List Nat → Option (List (Nat × Nat))
  | [] => some []
  | n :: t =>
    match free with
    | [] => none
    | p :: f => (placeRest f t).map ((n, p) :: ·)

/-- The placement map of a die for a use mask. -/
def Ctl.placement (c : Ctl) (die mask : Nat) : Option (List (Nat × Nat)) :=
  let used := (List.range 96).filter (bit mask)
  let direct := used.filter (c.arrayEnabled die)
  let rest := used.filter (fun n => !c.arrayEnabled die n)
  let free := (List.range 96).filter (fun p => c.arrayEnabled die p && !bit mask p)
  (placeRest free rest).map (fun l => direct.map (fun n => (n, n)) ++ l)

/-- Check 7: LESSON_ARRAYS. -/
def Ctl.arraysOk (c : Ctl) (die : Nat) (img : List Nat) : Bool :=
  (match imgRecs img 8 16 with | b :: _ => fieldAt b 12 4 == 0 | [] => true) && (c.placement die (imgMask img)).isSome

/-! ## The outcome, and what a load writes (R239) -/

/-- A queue holds a descriptor whose record is not yet written. -/
def Ctl.dieBusy (c : Ctl) (die : Nat) : Bool :=
  (c.die die).queues.any (fun p => !p.2.live.isEmpty || !p.2.ring.isEmpty)

/-- The outcome of Table 9-3 as a status code, 0 where the load passes. -/
def Ctl.lessonCheck (c : Ctl) (die blen : Nat) (img : List Nat) : Nat :=
  if c.dieBusy die then 0x20
  else if !formatOk img blen die then 0x21
  else if !lessonCrcOk img then 0x22
  else if !c.tensorsOk img then 0x23
  else if !programsOk img then 0x24
  else if !groupsOk img then 0x25
  else if !c.arraysOk die img then 0x26
  else 0

/-- The Lesson a die holds, read from its image. -/
def lessonOf (img : List Nat) : Lesson :=
  let sect (t : Nat) : Nat × Nat := match imgSect img t with | some x => (x.off, x.count) | none => (0, 0)
  { id := imgId img, size := fieldAt img 8 4, descOff := (sect 2).1, descCount := (sect 2).2, progOff := (sect 4).1,
    progCount := (sect 4).2, layers := imgLayers img, tensors := imgRecs img 1 64,
    groups := (imgRecs img 5 16).map (fun b => ⟨fieldAt b 0 2 % 2048, fieldAt b 0 2 / 2048 % 4, b.getD 2 0, groupDescs img b⟩),
    seminit := (imgRecs img 7 4).map unle }

/-- R251: the semaphores from SEMINIT. -/
def Ctl.setSems (c : Ctl) (die : Nat) (l : Lesson) : Ctl :=
  c.each (List.range 256) (fun c s => c.wr Fld.que_SEMs_COUNT (l.seminit.getD s 0) die s)

/-- The placement map. -/
def Ctl.setPlacement (c : Ctl) (die : Nat) (p : List (Nat × Nat)) : Ctl :=
  let c := c.each (List.range 96) (fun c n => (c.wr Fld.que_PLACE_MAPn_PHYS 0 die n).wr Fld.que_PLACE_MAPn_VALID 0 die n)
  c.each p (fun c x => (c.wr Fld.que_PLACE_MAPn_PHYS x.2 die x.1).wr Fld.que_PLACE_MAPn_VALID 1 die x.1)

/-- A queue's registers with nothing in it. -/
def Ctl.clearQueueRegs (c : Ctl) (die q : Nat) : Ctl :=
  let c := ((((c.wr Fld.que_Q_CTRL_ENABLE 0 die q).wr Fld.que_Q_CTRL_STOP_ON_ERROR 0 die q).wr Fld.que_Q_CTRL_STOPPED 0 die q).wr
    Fld.que_Q_CTRL_OWNER 0 die q).wr Fld.que_Q_SLOTS 0 die q
  let c := (((c.wr Fld.que_Q_TAIL 0 die q).wr Fld.que_Q_HEAD 0 die q).wr Fld.que_Q_CTAIL 0 die q).wr Fld.que_Q_CHEAD 0 die q
  c.wr Fld.que_Q_SEQ 0 die q

/-- Every queue of a die disabled, and empty. -/
def Ctl.clearQueues (c : Ctl) (die : Nat) : Ctl :=
  (c.each (List.range 64) (fun c q => c.clearQueueRegs die q)).onDie die (fun d =>
    { d with queues := [], waiters := [], falls := [], doneGroups := [], step := StepRun.reset })

/-- One queue's configuration (R245). -/
def Ctl.setQueue (c : Ctl) (die : Nat) (b : List Nat) : Ctl :=
  let q := b.getD 0 0
  let c := (((c.wr Fld.que_Q_CTRL_ENABLE 1 die q).wr Fld.que_Q_CTRL_OWNER (b.getD 1 0) die q).wr Fld.que_Q_CTRL_STOP_ON_ERROR
    (b.getD 2 0 % 2) die q).wr Fld.que_Q_SLOTS (fieldAt b 12 2) die q
  c.onDie die (fun d => { d with queues := d.queues.set q { QueueSt.reset with progFirst := fieldAt b 4 4, progWords := fieldAt b 8 4 } })

/-- What a load that passes does to the control state. -/
def Ctl.takeLesson (c : Ctl) (die : Nat) (img : List Nat) : Ctl :=
  let l := lessonOf img
  let c := (c.clearQueues die).onDie die (fun d => { d with lesson := some l })
  let c := (c.setSems die l).setPlacement die ((c.placement die (imgMask img)).getD [])
  let c := (c.wr Fld.ln_LN_LAYERS_COUNT l.layers die).wr Fld.ln_LN_CTRL_ENABLE 1 die
  c.each (imgRecs img 3 32) (fun c b => c.setQueue die b)

/-- The image enters the Lesson store and the far firmware region, the INIT blocks their addresses. -/
def Module.takeLesson (m : Module) (die : Nat) (img : List Nat) : Module :=
  let b := img.take (fieldAt img 8 4)
  let m := (m.write (lessonStore die) b).write (lessonCopy die) b
  let m := (imgInit img).foldl (fun m x => (m.makeWay die none [(x.1, x.2.2.1.length)]).store x.1 x.2.2.1) m
  m.onCtl (·.takeLesson die img)

/-- R429: a die without a Lesson, its queues disabled and the Lantern closed. -/
def Ctl.dropLesson (c : Ctl) (die : Nat) : Ctl :=
  ((c.clearQueues die).onDie die (fun d => { d with lesson := none })).wr Fld.ln_LN_CTRL_ENABLE 0 die

/-- R251, R388: a restore restarts the Lesson a die holds: semaphores from SEMINIT, queues empty. -/
def Ctl.restartLesson (c : Ctl) (die : Nat) : Ctl :=
  match (c.die die).lesson with
  | none => c
  | some l =>
    let c := (c.each (List.range 64) (fun c q =>
      ((((c.wr Fld.que_Q_CTRL_STOPPED 0 die q).wr Fld.que_Q_TAIL 0 die q).wr Fld.que_Q_HEAD 0 die q).wr Fld.que_Q_CTAIL 0 die q).wr
        Fld.que_Q_CHEAD 0 die q)).setSems die l
    c.onDie die (fun d => { d with
      queues := d.queues.map (fun p => (p.1, { QueueSt.reset with progFirst := p.2.progFirst, progWords := p.2.progWords, lost := p.2.lost })),
      waiters := [], falls := [], doneGroups := [], step := StepRun.reset })

end Sys2Proof.Machine
end

