-- ==== Sys2Proof/Machine/Tens.lean ====
section
/-! DEFINITION. Tensors in memory and in tile buffers: where an element and its scale lie, reading them with what the reading
raises (R27, R41 to R44, R297, R310, R535), and writing them (R192, R305, R306). -/

namespace Sys2Proof.Machine

/-- ceil(a / b). -/
def cdiv (a b : Nat) : Nat := (a + b - 1) / b

/-! ## Where things lie -/

/-- The vector unit of a die. -/
def Ctl.vu (c : Ctl) (die v : Nat) : VuSt := Tab.get VuSt.reset (c.die die).vus v

/-- Change a vector unit. -/
def Ctl.onVu (c : Ctl) (die v : Nat) (f : VuSt → VuSt) : Ctl :=
  c.onDie die (fun d => { d with vus := d.vus.upd VuSt.reset v f })

/-- R192: slots of a tile buffer for a slot size. -/
def tbSlots (stride : Nat) : Nat := min 512 (65536 / stride)

/-- The slot that holds row `r` of a tile buffer tensor. -/
def Tensor.slot (t : Tensor) (r : Nat) : Nat := r % tbSlots t.stride

/-- The first byte of an element, and how many bytes hold it (R27). -/
def elemOff (w c : Nat) : Nat := w * c / 8
def elemLen (w c : Nat) : Nat := (w * c % 8 + w + 7) / 8

/-- The address of a byte of a row. -/
def Tensor.addr (t : Tensor) (r off : Nat) : Nat := t.base + r * t.stride + off

/-- The width of the format in force. -/
def Tensor.width (t : Tensor) : Nat := fmtBits t.fmt

/-- R41: the address of the scale byte of an element. -/
def Tensor.scaleAddr (t : Tensor) (r c : Nat) : Nat :=
  if t.innerRows then t.scaleBase + c * cdiv t.rows t.bsize + r / t.bsize
  else t.scaleBase + r * cdiv t.cols t.bsize + c / t.bsize

/-- Table row and column of an outer index and an inner position (R240). Log 87 (DEDUCED). -/
def Tensor.at (t : Tensor) (outer inner : Nat) : Nat × Nat := if t.innerRows then (inner, outer) else (outer, inner)

/-- How many outer indices and inner positions a tensor has. Log 87 (DEDUCED). -/
def Tensor.outers (t : Tensor) : Nat := if t.innerRows then t.cols else t.rows
/-- Log 87 (DEDUCED). -/
def Tensor.inners (t : Tensor) : Nat := if t.innerRows then t.rows else t.cols

/-- Does a line read as poisoned: it is marked, or it names no memory (R297)? -/
def Ctl.lineBad (c : Ctl) (line : Nat) : Bool := c.poison.contains line || !namesMemory (line * 64)

/-! ## Reading -/

/-- Bytes of a row of a tensor. -/
def Module.rowRead (m : Module) (die : Nat) (t : Tensor) (r off n : Nat) : List Nat :=
  if t.inTb then
    let s := Tab.get TbSlot.reset (m.ctl.vu die t.tbVu).slots (t.tb, t.slot r)
    (List.range n).map (fun i => Tab.get 0 s.bytes (off + i))
  else memRead m.mem (t.addr r off) n

/-- The code of an element. -/
def Module.elemCode (m : Module) (die : Nat) (t : Tensor) (r c : Nat) : Nat :=
  bitsOf (unle (m.rowRead die t r (elemOff t.width c) (elemLen t.width c))) (t.width * c % 8) t.width

/-- The memory lines that hold an element. -/
def Tensor.elemLines (t : Tensor) (r c : Nat) : List Nat :=
  if t.inTb then [] else spanLines (t.addr r (elemOff t.width c)) (elemLen t.width c)

/-- Is an element poisoned? -/
def Ctl.elemBad (c : Ctl) (t : Tensor) (r k : Nat) : Bool := (t.elemLines r k).any c.lineBad

/-- The scale byte of an element: 0xFF where its line is poisoned. Log 89 (DEDUCED). -/
def Module.scaleByte (m : Module) (t : Tensor) (r c : Nat) : Nat :=
  let a := t.scaleAddr r c
  if m.ctl.lineBad (a / 64) then 0xFF else memByte m.mem a

/-- What a consumer's reading raises: CODE_INVALID and BLOCK_INVALID events, the poisoned lines it read, the addresses it
read that name no memory. -/
structure Seen where
  code : Nat
  block : Nat
  lines : List Nat
  wild : List Nat
deriving DecidableEq, Repr

def Seen.none : Seen := ⟨0, 0, [], []⟩

def Seen.add (a b : Seen) : Seen := ⟨a.code + b.code, a.block + b.block, a.lines ++ b.lines, a.wild ++ b.wild⟩

/-- The events of a unit's reading are counted and posted (R297, R310, R535). Log 88 (DEDUCED). -/
def Ctl.saw (c : Ctl) (die unit : Nat) (x : Seen) : Ctl :=
  let c := if x.code = 0 then c else c.count die unit 4 x.code
  let c := if x.block = 0 then c else c.count die unit 5 x.block
  let c := c.each x.lines (fun c l => c.poisonRead die unit (l * 64))
  c.each x.wild (fun c a => c.addrInvalid die unit a)

/-- What reading lines raises. -/
def Ctl.seenLines (c : Ctl) (l : List Nat) : Seen :=
  ⟨0, 0, l.filter (fun x => c.poison.contains x), (l.filter (fun x => !namesMemory (x * 64))).map (· * 64)⟩

/-- An element as read: its code, whether it is poisoned, the scale byte in force: 0x78, which is 1.0, where the operand has
no scale, 0xFF where its block is invalid. -/
structure Elem where
  code : Nat
  poison : Bool
  scale : Nat
deriving DecidableEq, Repr

/-- R42, R43: an element that takes no part, and one that decodes as +0. -/
def Elem.masked (e : Elem) : Bool := e.scale == 0xFF

/-- How the scales of an operand are given: by block, or one for all (R126). -/
inductive ScaleOf where
  | block
  | all (code : Nat)
deriving DecidableEq, Repr

/-- An element whose code is known. -/
def Module.elemAs (m : Module) (t : Tensor) (s : ScaleOf) (code r c : Nat) : Elem :=
  { code := code, poison := m.ctl.elemBad t r c,
    scale := (match s with | .block => m.scaleByte t r c | .all k => if k = 0xFF then 0x78 else k) }

/-- Read an element. -/
def Module.elem (m : Module) (die : Nat) (t : Tensor) (s : ScaleOf) (r c : Nat) : Elem := m.elemAs t s (m.elemCode die t r c) r c

/-- The code of an element that is sent as it stands: an element of a poisoned line acts as a NaN and is sent as its format writes one
(R50, R310). Log 165 (DESIGN CHOICE). -/
def Module.sentCode (m : Module) (die : Nat) (t : Tensor) (r c : Nat) : Nat :=
  if m.ctl.elemBad t r c then (match Fmt.ofCode t.fmt with | some f => (specialCode f false .nan).code | none => 0)
  else m.elemCode die t r c

/-- What an element is worth (R37, R42 to R45, R310): a masked one adds nothing. -/
def elemVal (fmt : Nat) (e : Elem) : Val :=
  if e.scale = 0xFF then Val.zero
  else if e.poison then .nan
  else if e.scale = 0 then Val.zero
  else match Fmt.ofCode fmt with
    | none => Val.zero
    | some f => (decodeElem f e.code).1.mul (.fin false (s8Mag e.scale))

/-- Is an element T2's invalid code, in a block that takes part and whose scale is not zero (R30, R42, R43)? -/
def elemInvalid (fmt : Nat) (e : Elem) : Bool := fmt == 0 && !e.poison && !e.masked && e.scale != 0 && e.code % 4 == 2

/-- Elements of a list that differ from the one before them. -/
def changes : List Nat → List Nat
  | [] => []
  | [x] => [x]
  | x :: y :: t => if x = y then changes (y :: t) else x :: changes (y :: t)

/-- The distinct elements of a list. -/
def dedup (l : List Nat) : List Nat := l.foldl addNew []

/-- What one reading of elements with the codes `code` raises: each line, block and element once. Log 88 (DEDUCED). -/
def Module.seenWith (m : Module) (code : Nat → Nat → Nat) (t : Tensor) (s : ScaleOf) (at' : List (Nat × Nat)) : Seen :=
  let ls := m.ctl.seenLines (dedup (at'.map (fun p => t.elemLines p.1 p.2)).flatten)
  let sc := match s with
    | .block =>
      let as := dedup (at'.map (fun p => t.scaleAddr p.1 p.2))
      (m.ctl.seenLines (dedup (as.map (· / 64)))).add
        ⟨0, (as.filter (fun a => m.ctl.lineBad (a / 64) || memByte m.mem a == 0xFF)).length, [], []⟩
    | .all _ => Seen.none
  let codes := (at'.filter (fun p => elemInvalid t.fmt (m.elemAs t s (code p.1 p.2) p.1 p.2))).length
  (ls.add sc).add ⟨if t.fmt = 0 then codes else 0, 0, [], []⟩

/-- The same, of the codes as they stand. -/
def Module.seenAt (m : Module) (die : Nat) (t : Tensor) (s : ScaleOf) (at' : List (Nat × Nat)) : Seen := m.seenWith (m.elemCode die t) t s at'

/-! ## Writing -/

/-- An element to write: its table row, its column and its code. -/
structure Out where
  row : Nat
  col : Nat
  code : Nat
deriving DecidableEq, Repr

/-- Elements that lie side by side in one row, gathered. -/
def runs : List Out → List (Nat × Nat × List Nat)
  | [] => []
  | o :: t =>
    match runs t with
    | (r, c, l) :: rest => if r = o.row ∧ c = o.col + 1 then (r, o.col, o.code :: l) :: rest else (o.row, o.col, [o.code]) :: (r, c, l) :: rest
    | [] => [(o.row, o.col, [o.code])]

/-- Codes of width `w` as the number whose bits they are. -/
def packCodes (w : Nat) : List Nat → Nat
  | [] => 0
  | c :: t => c % 2 ^ w + 2 ^ w * packCodes w t

/-- The bytes from `off` on that codes at column `c` give, merged with the bytes that stand there (R202, R305). -/
def mergeCodes (w c : Nat) (codes old : List Nat) : List Nat :=
  let lo := w * c % 8
  let n := w * codes.length
  let v := unle old
  le old.length (v % 2 ^ lo + 2 ^ lo * packCodes w codes + v / 2 ^ (lo + n) * 2 ^ (lo + n))

/-- How many bytes a run of elements covers. -/
def runLen (w c n : Nat) : Nat := (w * c % 8 + w * n + 7) / 8

/-- Write bytes of a tile buffer slot. -/
def TbSlot.put (s : TbSlot) (off : Nat) (b : List Nat) : TbSlot :=
  { s with bytes := b.zipIdx.foldl (fun t (p : Nat × Nat) => Tab.set t (off + p.2) p.1) s.bytes }

/-- Write bytes of a row of a tensor. -/
def Module.rowWrite (m : Module) (die : Nat) (t : Tensor) (r off : Nat) (b : List Nat) : Module :=
  if t.inTb then m.onCtl (·.onVu die t.tbVu (fun v =>
    { v with slots := v.slots.upd TbSlot.reset (t.tb, t.slot r) (·.put off b) }))
  else m.store (t.addr r off) b

/-- Write one run. -/
def Module.runWrite (m : Module) (die : Nat) (t : Tensor) (x : Nat × Nat × List Nat) : Module :=
  let off := elemOff t.width x.2.1
  let old := m.rowRead die t x.1 off (runLen t.width x.2.1 x.2.2.length)
  m.rowWrite die t x.1 off (mergeCodes t.width x.2.1 x.2.2 old)

/-- Write elements. -/
def Module.put (m : Module) (die : Nat) (t : Tensor) (l : List Out) : Module :=
  (runs l).foldl (fun m x => m.runWrite die t x) m

/-- Write scale bytes by address; one that names no memory is discarded and raises ADDR_INVALID (R297). -/
def Module.putScales (m : Module) (die unit : Nat) (l : List (Nat × Nat)) : Module :=
  l.foldl (fun m p => if namesMemory p.1 then m.store p.1 [p.2] else m.onCtl (·.addrInvalid die unit p.1)) m

/-- The spans of memory that elements and scale bytes are written to. -/
def putSpans (t : Tensor) (l : List Out) (scales : List (Nat × Nat)) : List (Nat × Nat) :=
  (if t.inTb then [] else (runs l).map (fun x => (t.addr x.1 (elemOff t.width x.2.1), runLen t.width x.2.1 x.2.2.length)))
    ++ scales.map (fun (p : Nat × Nat) => (p.1, 1))

/-- The line, if any, that the writes of elements and scale bytes must wait for (R306). -/
def Ctl.putBlock (c : Ctl) (t : Tensor) (l : List Out) (scales : List (Nat × Nat)) : Option Nat :=
  c.cowBlock (putSpans t l scales)

/-- A write by a unit that has no step of its own to wait in, for a descriptor by its queue and number (R306). -/
def Module.putThrough (m : Module) (die unit : Nat) (who : Option (Nat × Nat)) (t : Tensor) (l : List Out) (scales : List (Nat × Nat)) :
    Module :=
  ((m.makeWay die who (putSpans t l scales)).put die t l).putScales die unit scales

/-- The row and column of an element in row-major order. -/
def Tensor.flat (t : Tensor) (i : Nat) : Nat × Nat := (i / t.cols, i % t.cols)

/-- How many elements a tensor has. -/
def Tensor.size (t : Tensor) : Nat := t.rows * t.cols

/-- `n` elements from element `i` on, and whether one of them is poisoned. -/
def Module.record (m : Module) (die : Nat) (t : Tensor) (i n : Nat) : List Nat × Bool :=
  let ps := (List.range n).map (fun k => t.flat (i + k))
  (ps.map (fun p => m.elemCode die t p.1 p.2), ps.any (fun p => m.ctl.elemBad t p.1 p.2))

/-- Elements to write from element `i` on. Log 87 (DEDUCED). -/
def Tensor.outsAt (t : Tensor) (i : Nat) (l : List Nat) : List Out :=
  l.zipIdx.map (fun (p : Nat × Nat) => ⟨(t.flat (i + p.2)).1, (t.flat (i + p.2)).2, p.1⟩)

/-- What reading elements in row-major order raises. -/
def Module.recordSeen (m : Module) (die : Nat) (t : Tensor) (i n : Nat) : Seen :=
  m.seenAt die t (.all 0xFF) ((List.range n).map (fun k => t.flat (i + k)))

/-! ## The FULL rules of tile buffers (R192) -/

/-- Is the slot of a row full? -/
def Ctl.tbFull (c : Ctl) (die : Nat) (t : Tensor) (r : Nat) : Bool :=
  (Tab.get TbSlot.reset (c.vu die t.tbVu).slots (t.tb, t.slot r)).full

/-- Slots of a buffer that are full. -/
def VuSt.fullSlots (v : VuSt) (tb : Nat) : Nat := (v.slots.filter (fun p => p.1.1 == tb && p.2.full)).length

/-- Set or clear `FULL` of the slot of a row; the unit's status shows it. `SLOTS` takes the slot count of the tensor whose row it is,
and reads 0 before. Log 85 (DEDUCED). Log 191 (DESIGN CHOICE). -/
def Ctl.setFull (c : Ctl) (die : Nat) (t : Tensor) (r : Nat) (b : Bool) : Ctl :=
  let c := c.onVu die t.tbVu (fun v => { v with slots := v.slots.upd TbSlot.reset (t.tb, t.slot r) (fun s => { s with full := b }) })
  (c.wr Fld.vu_TBn_STATE_FULL_SLOTS ((c.vu die t.tbVu).fullSlots t.tb) (16 * die + t.tbVu) t.tb).wr
    Fld.vu_TBn_STATE_SLOTS (tbSlots t.stride) (16 * die + t.tbVu) t.tb

/-- May a producer write a row? Log 85 (DEDUCED). -/
def Ctl.mayWrite (c : Ctl) (die : Nat) (t : Tensor) (r : Nat) : Bool := !t.inTb || !c.tbFull die t r

/-- May a consumer read a row? -/
def Ctl.mayRead (c : Ctl) (die : Nat) (t : Tensor) (r : Nat) : Bool := !t.inTb || c.tbFull die t r

/-- A producer has written a row. Log 85 (DEDUCED). -/
def Ctl.wrote (c : Ctl) (die : Nat) (t : Tensor) (r : Nat) : Ctl := if t.inTb then c.setFull die t r true else c

/-- Do two rows stand in one slot of one tile buffer? -/
def rowsClash (p q : Tensor × Nat) : Bool :=
  q.1.inTb && q.1.tbVu == p.1.tbVu && q.1.tb == p.1.tb && q.1.slot q.2 == p.1.slot p.2 && q.2 != p.2

/-- How many rows, in their order, a consumer may read now: as long as each is full and none needs the slot of one before it. -/
def Ctl.readyRun (c : Ctl) (die : Nat) : List (Tensor × Nat) → List (Tensor × Nat) → Nat
  | _, [] => 0
  | before, p :: t =>
    if !p.1.inTb then 1 + c.readyRun die before t
    else if c.mayRead die p.1 p.2 && !before.any (rowsClash p) then 1 + c.readyRun die (p :: before) t
    else 0

/-- May a consumer read all of some rows at once? Log 85 (DEDUCED). -/
def Ctl.readable (c : Ctl) (die : Nat) (l : List (Tensor × Nat)) : Bool := c.readyRun die [] l == l.length

/-- A consumer has read a row. Log 85 (DEDUCED). -/
def Ctl.took (c : Ctl) (die : Nat) (t : Tensor) (r : Nat) : Ctl := if t.inTb then c.setFull die t r false else c

/-- A consumer has read rows. Log 85 (DEDUCED). -/
def Ctl.rowsTook (c : Ctl) (die : Nat) (t : Tensor) (rows : List Nat) : Ctl := if t.inTb then c.each rows (fun c r => c.took die t r) else c

/-- The rows that `n` elements from element `e0` on lie in. -/
def Tensor.rowSpan (t : Tensor) (e0 n : Nat) : List Nat :=
  if n = 0 then [] else (List.range ((e0 + n - 1) / t.cols + 1 - e0 / t.cols)).map (e0 / t.cols + ·)

end Sys2Proof.Machine
end

