-- ==== Sys2Proof/Machine/Convert.lean ====
section
/-! DEFINITION. Conversion: `CVTCTL`, the random bits' windows, and the steps of Table 3-2 over the elements that one conversion
writes together (R58 to R80, R154, R155, R533). -/

namespace Sys2Proof.Machine

/-- Table 3-1. -/
def Cvt.ofWord (v : Nat) : Cvt :=
  { tgt := v % 64, rmode := bitsOf v 6 3, ovf := bit v 9, intsat := bitsOf v 10 2, scaleSrc := bitsOf v 12 2, sidEn := bit v 14,
    amaxEn := bit v 15, amaxSlot := bitsOf v 16 6, amaxClr := bit v 22, oscale := bitsOf v 32 8, sid := bitsOf v 48 16 }

/-- The reserved bits of a control word. -/
def cvtReserved (v : Nat) : Bool := bitsOf v 23 9 == 0 && bitsOf v 40 8 == 0

/-- R26, R40, R49, R59: what of a control word stands by itself. -/
def Cvt.ok (cv : Cvt) : Bool :=
  match Fmt.ofCode cv.tgt, RMode.ofCode cv.rmode with
  | some f, some r =>
    cv.tgt != 0x0F && cv.intsat != 3 && (cv.scaleSrc == 0 || f.scalable) && !(r.isSr && cv.tgt == 0x0B)
  | _, _ => false

/-- R59: what of it the output tensor decides. -/
def Cvt.fits (cv : Cvt) (t : Tensor) : Bool := (decide (cv.scaleSrc < 2) || t.scaled) && cv.tgt == t.fmt

def Cvt.fmt (cv : Cvt) : Fmt := (Fmt.ofCode cv.tgt).getD .fp32
def Cvt.mode (cv : Cvt) : RMode := (RMode.ofCode cv.rmode).getD .rn

/-! ## Windows (R73 to R78) -/

/-- The stream a conversion draws from. -/
def Cvt.stream (cv : Cvt) : Nat := if cv.sidEn then cv.sid else 0

/-- R76: a tensor claims a stream; a second tensor shares it. -/
def Ctl.claimStream (c : Ctl) (die unit s : Nat) (t : Option Nat) : Ctl :=
  match t with
  | none => c
  | some t =>
    let e := Tab.get Stream.reset (c.die die).streams s
    if s = 0 then c
    else if !e.owned then c.onDie die (fun d => { d with streams := d.streams.set s { e with owner := t % 65536, owned := true } })
    else if e.owner = t % 65536 then c
    else
      let c := c.onDie die (fun d => { d with streams := d.streams.set s { e with shared := true } })
      let c := (c.bump Fld.gen_SHARED_CNT die).count die unit 13
      (c.wr Fld.gen_LAST_SHARED_SID s die).wr Fld.gen_LAST_SHARED_TENSOR t die

/-- R74, R77: a window of `n` elements a lane: its base, and the table after it. `t` is the output tensor, if any. -/
def Ctl.window (c : Ctl) (die unit : Nat) (cv : Cvt) (t : Option Nat) (n : Nat) : Nat × Ctl :=
  if !cv.mode.isSr then (0, c)
  else
    let s := cv.stream
    let c := c.claimStream die unit s t
    let e := Tab.get Stream.reset (c.die die).streams s
    let w := cdiv n 4
    let c := c.onDie die (fun d => { d with streams := d.streams.set s { e with next := (e.next + w) % 2 ^ 64 } })
    let c := { c with job := { c.job with streamAdvance := c.job.streamAdvance + w } }
    (e.next, if 2 ^ 64 < e.next + w then (c.bump Fld.gen_WRAP_CNT die).count die unit 14 else c)

/-- The job seed, as the die's registers hold it. -/
def Ctl.seedOf (c : Ctl) (die : Nat) : Nat := c.rd Fld.gen_GEN_SEED_SEED_LO die

/-- The slice of a lane's k-th element. -/
def Ctl.slice (c : Ctl) (die unit : Nat) (cv : Cvt) (base lane k : Nat) : Nat :=
  if cv.mode.isSr then genSlice (c.seedOf die) cv.stream die unit lane base k else 0

/-- R65: the slot cleared before the first merge. -/
def Ctl.amaxFirst (c : Ctl) (die : Nat) (cv : Cvt) : Ctl :=
  if cv.amaxClr then c.wr Fld.gen_AMAXnn_VALUE 0 die cv.amaxSlot else c

/-! ## One conversion's elements -/

/-- What enters Table 3-2: a value, or a value past range of unknown magnitude (R533). -/
inductive CIn where
  | val (v : Val)
  | past (neg : Bool)
deriving DecidableEq, Repr

/-- An element of a conversion: where it goes, what it is, whether it takes part or is a FILL position (R202), its slice, and
the run of 32 it lies in (R155). -/
structure CElem where
  row : Nat
  col : Nat
  x : CIn
  part : Bool
  fill : Bool
  slice : Nat
  run : Nat
deriving DecidableEq, Repr

/-- R63: the output scale of a block. -/
inductive OScale where
  | one | zero | bad | mag (m : Mag)
deriving DecidableEq, Repr

/-- The scale a byte of a scale array gives. -/
def OScale.ofByte (b : Nat) : OScale := if b = 0xFF then .bad else if b = 0 then .zero else .mag (s8Mag b)

/-- The per-tensor scale. -/
def OScale.ofTensor (b : Nat) : OScale := if b = 0xFF then .one else if b = 0 then .zero else .mag (s8Mag b)

/-- Does a magnitude stay within the target's largest under the scale 2^(e - 15)? -/
def fitsScale (f : Fmt) (m : Mag) (e : Nat) : Bool :=
  let s : Int := (e : Int) - 15
  match f.float, f.intRange with
  | some ff, _ => m.le (ff.maxMag.scale s)
  | none, some (_, hi) => m.le ((Mag.ofNat hi.toNat).scale s)
  | none, none => Mag.le ⟨m.num ^ 16, m.den ^ 16⟩ (Mag.dyadic 1 (63 + 16 * s))

/-- The smallest exponent that fits, 30 where none does (R63, R165). -/
def fitExp (f : Fmt) (m : Mag) : Nat := (((List.range 30).map (· + 1)).find? (fitsScale f m)).getD 30

/-- The magnitude of an input, none for NaN; an infinity or a value past range has none either. -/
def CIn.mag : CIn → Option Mag
  | .val (.fin _ m) => some m
  | _ => none

def CIn.isNan : CIn → Bool | .val .nan => true | _ => false
def CIn.isInf : CIn → Bool | .val (.inf _) => true | .past _ => true | _ => false

/-- BLOCK_FIT: the code of a block from its participating elements. -/
def blockCode (f : Fmt) (l : List CIn) : Nat :=
  if l.isEmpty then 0xFF
  else if l.any CIn.isInf then 240
  else
    let m := (l.filterMap CIn.mag).foldl Mag.max (Mag.ofNat 0)
    if m.isZero then (if l.any CIn.isNan then 8 else 0) else 8 * fitExp f m

/-- What one element gives: its code, its events (as the unit counters number them), its capture value, and its quotient
where that is finite and past the target's range. -/
structure COut where
  code : Nat
  ev : List Nat
  cap : Option Nat
  q : Option (Bool × Mag)
deriving DecidableEq, Repr

/-- The unit counter of a conversion's event (Table 17-2). -/
def CvtEvent.idx : CvtEvent → Nat
  | .sat => 0 | .ovf => 1 | .unf => 2 | .nanIn => 3

/-- A code with its events and a capture. -/
def COut.of (o : CvtOut) (cap : Option Nat) : COut := ⟨o.code, o.events.map CvtEvent.idx, cap, none⟩

/-- Steps 5 to 8 for a finite value. -/
def Cvt.finite (cv : Cvt) (slice : Nat) (neg : Bool) (q : Mag) (cap : Option Nat) : COut :=
  let f := cv.fmt
  { COut.of (roundFinite f cv.mode cv.ovf cv.intsat slice neg q) cap with
    q := if !f.isInt && pastRange f q then some (neg, q) else none }

/-- Steps 2 to 8 of Table 3-2. Under the scale 0x00 a finite element gives +0 (R63); in a block that BLOCK_FIT found all zero an
element keeps its sign (R36). -/
def Cvt.elem (cv : Cvt) (s : OScale) (slice : Nat) (x : CIn) : COut :=
  let f := cv.fmt
  let plus0 (cap : Option Nat) : COut := ⟨zeroCode f false, [], cap, none⟩
  match x with
  | .past neg =>
    if s = .bad then plus0 (some 0x7F800000)
    else if f.isInt then COut.of (specialCode f cv.ovf (.inf neg)) (some 0x7F800000)
    else COut.of (overflowCode f cv.ovf neg) (some 0x7F800000)
  | .val .nan => if s = .bad then plus0 none else COut.of (specialCode f cv.ovf .nan) none
  | .val (.inf n) => if s = .bad then plus0 (some 0x7F800000) else COut.of (specialCode f cv.ovf (.inf n)) (some 0x7F800000)
  | .val (.fin n m) =>
    match s with
    | .bad => plus0 (some (fp32RoundUp m))
    | .zero => ⟨zeroCode f (n && m.isZero && cv.scaleSrc == 3), [], some (fp32RoundUp m), none⟩
    | .one => cv.finite slice n m (some (fp32RoundUp m))
    | .mag k => cv.finite slice n (m.div k) (some (fp32RoundUp m))

/-- Where a conversion writes: its tensor, or a vector register. -/
def blockKey (t : Option Tensor) (e : CElem) : Nat :=
  match t with
  | some t => if t.scaled then t.scaleAddr e.row e.col else e.run
  | none => e.run

/-- The scale byte of each block, where the conversion has one for each. -/
def Module.blockScales (m : Module) (cv : Cvt) (t : Option Tensor) (l : List CElem) : List (Nat × Nat) :=
  let keys := dedup (l.map (blockKey t))
  if cv.scaleSrc = 2 then keys.map (fun a => (a, if m.ctl.lineBad (a / 64) then 0xFF else memByte m.mem a))
  else if cv.scaleSrc = 3 then
    keys.map (fun a => (a, blockCode cv.fmt ((l.filter (fun e => e.part && blockKey t e == a)).map (·.x))))
  else []

/-- The output scale of a block. -/
def Cvt.scaleOf (cv : Cvt) (bs : List (Nat × Nat)) (key : Nat) : OScale :=
  match cv.scaleSrc with
  | 0 => .one
  | 1 => OScale.ofTensor cv.oscale
  | _ => OScale.ofByte ((bs.find? (fun p => p.1 == key)).map (·.2) |>.getD 0xFF)

/-- The result of a conversion's elements: for each its outcome (none where nothing is written), and what the reading and the
writing of scales raise and give. -/
structure CRes where
  outs : List (CElem × COut)
  scales : List (Nat × Nat)
  seen : Seen
deriving DecidableEq, Repr

/-- An element of a conversion that takes part or is filled. A FILL position raises no event and merges nothing; in a block
without participating elements it is written as +0 (R202). -/
def Cvt.one (cv : Cvt) (bs : List (Nat × Nat)) (t : Option Tensor) (e : CElem) : Option (CElem × COut) :=
  if e.part then some (e, cv.elem (cv.scaleOf bs (blockKey t e)) e.slice e.x)
  else if e.fill then
    let o := cv.elem (cv.scaleOf bs (blockKey t e)) e.slice e.x
    some (e, { o with ev := [], cap := none, q := none })
  else none

/-- Convert elements together. Under `SCALE_SRC` ARRAY every block of the elements raises its BLOCK_INVALID, one of which every position is
masked too. Log 198 (DESIGN CHOICE). -/
def Module.convert (m : Module) (cv : Cvt) (t : Option Tensor) (l : List CElem) : CRes :=
  let bs := m.blockScales cv t l
  { outs := l.filterMap (cv.one bs t)
    scales := if cv.scaleSrc = 3 then bs else []
    seen := if cv.scaleSrc = 2 then
        (m.ctl.seenLines (dedup (bs.map (fun p => p.1 / 64)))).add ⟨0, (bs.filter (fun p => p.2 == 0xFF)).length, [], []⟩
      else Seen.none }

/-! ## Its effect -/

/-- The writes of a result. -/
def CRes.writes (r : CRes) : List Out := r.outs.map (fun p => ⟨p.1.row, p.1.col, p.2.code⟩)

/-- How often an event was raised. -/
def countOf (l : List Nat) (i : Nat) : Nat := (l.filter (fun x => x == i)).length

/-- R154: events that count toward a layer's overflow and underflow. -/
def ovfCount (ev : List Nat) : Nat := countOf ev 0 + countOf ev 1 + countOf ev 6 + countOf ev 8 + countOf ev 10
def unfCount (ev : List Nat) : Nat := countOf ev 2 + countOf ev 7

/-- Events are counted in the unit counters. -/
def Ctl.countAll (c : Ctl) (die unit : Nat) (ev : List Nat) : Ctl := c.each ev (fun c i => c.count die unit i)

/-- The captures of a result, each with its block. -/
def CRes.caps (r : CRes) (t : Option Tensor) : List (Nat × Nat) :=
  r.outs.filterMap (fun p => p.2.cap.map (fun v => (blockKey t p.1, v)))

/-- The events of a result. -/
def CRes.events (r : CRes) : List Nat := (r.outs.map (fun p => p.2.ev)).flatten

/-- Step 3: the capture slot. -/
def Ctl.amaxMerge (c : Ctl) (die : Nat) (cv : Cvt) (caps : List Nat) : Ctl :=
  if cv.amaxEn then
    c.wr Fld.gen_AMAXnn_VALUE (caps.foldl max (c.rd Fld.gen_AMAXnn_VALUE die cv.amaxSlot)) die cv.amaxSlot
  else c

/-- What a conversion counts and merges into the Lantern; `caps` are the captures of the blocks that are complete. Log 97 (DEDUCED). -/
def Ctl.tallyWith (c : Ctl) (die unit epoch layer role : Nat) (cv : Cvt) (r : CRes) (slot caps : List (Nat × Nat)) : Ctl :=
  let c := ((c.saw die unit r.seen).countAll die unit r.events).amaxMerge die cv (slot.map (·.2))
  c.roleMerge die epoch layer role (statOf caps (ovfCount r.events) (unfCount r.events))

/-- The same where every block is complete with these elements. -/
def Ctl.tally (c : Ctl) (die unit epoch layer role : Nat) (cv : Cvt) (t : Option Tensor) (r : CRes) : Ctl :=
  c.tallyWith die unit epoch layer role cv r (r.caps t) (r.caps t)

def execAmaxClr (die slot : Nat) (s : State) : Host.Outcome State Fault Refusal :=
  if s.m.ctl.dieUp die && decide (slot < 64) then .next (s.onM (·.onCtl (fun c => (c.wr Fld.gen_AMAXnn_VALUE 0 die slot).watchOpen die 0x01 die 0x20))) else .next s

end Sys2Proof.Machine
end

