-- ==== Sys2Proof/Machine/Desc.lean ====
section
/-! DEFINITION. Descriptors: the common header, the tensors and plan values in force, and the decode checks of array pass groups
and of data movement (R124 to R130, R136 to R149, R164, R186, R240 to R242, R250, R256, R259, R262, R534, Tables 5-1 to 5-3,
9-7, 9-10). -/

namespace Sys2Proof.Machine

/-! ## The header (Table 9-7) -/

/-- The common descriptor header. -/
structure Hdr where
  opc : Nat
  queue : Nat
  role : Nat
  waitSem : Nat
  sigSem : Nat
  waitCnt : Nat
  sigCnt : Nat
  prio : Nat
  fence : Bool
  layer : Nat
  rsv : Nat
deriving DecidableEq, Repr

/-- The header of a descriptor's bytes. -/
def hdrOf (b : List Nat) : Hdr :=
  let v := fieldAt b 0 8
  { opc := v % 256, queue := bitsOf v 8 6, role := bitsOf v 14 2, waitSem := bitsOf v 16 8, sigSem := bitsOf v 24 8,
    waitCnt := bitsOf v 32 4, sigCnt := bitsOf v 36 4, prio := bitsOf v 40 3, fence := bit v 43, layer := bitsOf v 44 11,
    rsv := bitsOf v 55 9 }

/-- Are `n` bytes from `off` all 0? -/
def zeroBytes (b : List Nat) (off n : Nat) : Bool := (bytesAt b off n).all (· == 0)

/-! ## Queues and the descriptors in them -/

/-- Change a queue. -/
def Ctl.onQueue (c : Ctl) (die q : Nat) (f : QueueSt → QueueSt) : Ctl :=
  c.onDie die (fun d => { d with queues := d.queues.upd QueueSt.reset q f })

/-- Is this the descriptor that was fetched with a sequence number? One that was flushed unfetched counts those fetched before it and has
no number of its own (R249, R258). -/
def Desc.is (d : Desc) (seq : Nat) : Bool := d.seq == seq && !(d.stage == .done && d.err == 7)

/-- A descriptor between fetch and record, by its sequence number. -/
def Ctl.desc (c : Ctl) (die q seq : Nat) : Option Desc := (c.queue die q).live.find? (·.is seq)

/-- Change it. -/
def Ctl.onDesc (c : Ctl) (die q seq : Nat) (f : Desc → Desc) : Ctl :=
  c.onQueue die q (fun x => { x with live := x.live.map (fun d => if d.is seq = true then f d else d) })

/-- Slots enter a ring, at its tail or at its head, each with the number of its issue. -/
def Ctl.enqueueSlots (c : Ctl) (die q : Nat) (l : List Slot) (atHead : Bool) : Ctl :=
  let n := (c.die die).issued
  let l := l.zipIdx.map (fun (p : Slot × Nat) => { p.1 with tick := n + p.2 })
  (c.onDie die (fun x => { x with issued := n + l.length })).onQueue die q (fun x =>
    { x with ring := if atHead then l ++ x.ring else x.ring ++ l })

/-- The control core that owns a queue (R245). -/
def Ctl.coreOf (c : Ctl) (die q : Nat) : Nat := c.rd Fld.que_Q_CTRL_OWNER die q

/-- A write of a descriptor must wait for the drain: COW_WAIT, once for each descriptor (R306). -/
def Ctl.cowStall (c : Ctl) (die q seq line : Nat) : Ctl :=
  let raised := match c.desc die q seq with | some d => d.cowRaised | none => true
  let c := if raised then c.drainFirst line else c.cowWait line
  c.onDesc die q seq (fun d => { d with cowWait := some line, cowRaised := true })

/-- Does a descriptor wait for the drain? -/
def Ctl.cowWaits (c : Ctl) (die q seq : Nat) : Bool := match c.desc die q seq with | some d => d.cowWait.isSome | none => false

/-! ## What the plan and the tensor table give -/

/-- The plan entry of a layer. -/
def DieSt.planOf (d : DieSt) (layer : Nat) : Plan := Tab.get Plan.reset d.plan layer

/-- R242: the format in force of a tensor, and whether a plan gives it. -/
def DieSt.planFmt (d : DieSt) (t : Tensor) : Option Nat :=
  if t.steered && t.wrole != 0 && (d.planOf t.wlayer).steered then (d.planOf t.wlayer).fmt[t.wrole - 1]? else none

/-- A tensor table entry as a descriptor reads it. -/
def DieSt.tensor (d : DieSt) (idx : Nat) : Option Tensor :=
  match d.lesson with
  | none => none
  | some l => l.tensors[idx]?.map (fun b =>
      let t := tensorOf idx b
      { t with fmt := (d.planFmt t).getD t.decl })

/-- A tensor, where the index is known to be in the table. -/
def DieSt.tens (d : DieSt) (idx : Nat) : Tensor := (d.tensor idx).getD Tensor.none

/-- R164: does the plan rule a descriptor? -/
def DieSt.ruled (d : DieSt) (layer role : Nat) : Bool := role != 0 && (d.planOf layer).steered

/-- R164: the conversion as decode adjusts it. -/
def DieSt.planCvt (d : DieSt) (layer role : Nat) (cv : Cvt) : Cvt :=
  if d.ruled layer role then
    let p := d.planOf layer
    let f := p.fmt.getD (role - 1) 0
    { cv with tgt := f, oscale := if cv.scaleSrc = 1 then p.scale.getD (role - 1) 0 else cv.oscale,
              scaleSrc := if f = 0x0C then 0 else cv.scaleSrc }
  else cv

/-- R242: may a descriptor of this layer and role write this tensor? -/
def writerOk (t : Tensor) (layer role : Nat) : Bool := !t.steered || (t.wlayer == layer && t.wrole == role)

/-- R241: does a tensor lie where a die's descriptors reach? -/
def localTensor (die : Nat) (t : Tensor) : Bool := t.inTb || stackOf t.base == some die || sramOf t.base == some die

/-! ## The outcome of decode -/

/-- What decode makes of a descriptor: it is rejected with an `ERR`, it is a no-op, or it goes on with its work, its power units
and its `EST_BEATS`. -/
inductive Decoded where
  | reject (err : Nat)
  | noop
  | go (w : Work) (units beats : Nat)
deriving DecidableEq, Repr

/-- `ERR` codes of Table 9-9. -/
def errOpc : Nat := 1
def errLen : Nat := 2
def errField : Nat := 3
def errArray : Nat := 4
def errFrame : Nat := 5
def errTensor : Nat := 6
def errFlushed : Nat := 7

/-- The first check that fails decides (R256). -/
def firstFail : List (Bool × Nat) → Option Nat
  | [] => none
  | (ok, e) :: t => if ok then firstFail t else some e

/-! ## Shapes (Tables 4-1, 5-3) -/

/-- The cells a multiply-accumulate takes. -/
inductive ArrMode where
  | fixed | ext | log | serial
deriving DecidableEq, Repr

/-- gr × gc of a pair of formats (R46, R85), none where they do not pair (R48). -/
def groupOf (fa fb : Fmt) : Option (Nat × Nat) :=
  if fa = .l8 ∨ fb = .l8 then (if fa = fb then some (1, 2) else none)
  else if fa.isSerial then (if fb.isSerial then none else fb.cls.map (fun _ => (1, 4)))
  else match fa.cls, fb.cls with
    | some a, some b => if a = 4 ∧ b < 4 then some (4, 2) else if a < 4 ∧ b = 4 then some (2, 4) else some (a, b)
    | _, _ => none

/-- Is a format summed as an extended float (R47)? -/
def isExt (f : Fmt) : Bool := f == .bf16 || f == .fp16

/-- The mode of a pair (R47, R89). -/
def modeOf (fa fb : Fmt) : ArrMode :=
  if fa.isSerial then .serial else if fa = .l8 then .log else if isExt fa || isExt fb then .ext else .fixed

/-- Does the accumulator hold extended floats (R47)? -/
def accExt (fa fb : Fmt) : Bool := isExt fa || isExt fb

/-- Logical inner positions for each stored one: 1, 2 (2:4) or 4 (1:4). -/
def sparsity (s : Nat) : Nat := match s with | 1 => 2 | 2 => 4 | _ => 1

/-- 128, 64 or 32 (Table 4-4). -/
def packOf (p : Nat) : Nat := match p with | 1 => 64 | 2 => 32 | _ => 128

/-- The shape of a pass group: its cell group, inner positions of a k-chunk, columns of an n-tile, rows at most, load beats,
the feeder factor (Tables 4-9, 5-3, R113, R128, R130). -/
structure Shape where
  gr : Nat
  gc : Nat
  kc : Nat
  nc : Nat
  mmax : Nat
  l : Nat
  c : Nat
deriving DecidableEq, Repr

/-- The shape of formats, sparsity and packing. -/
def shapeOf (fa fb : Fmt) (sparse h w : Nat) : Option Shape :=
  (groupOf fa fb).map (fun g =>
    let base := match modeOf fa fb with | .log => 1024 | .serial => 128 | _ => 512
    { gr := g.1, gc := g.2, kc := 128 / g.1 * sparsity sparse * h / 128, nc := 128 / g.2 * w / 128, mmax := 128 * g.2 * h / 128,
      l := 128 / g.1, c := cdiv (base * (128 / w) * sparsity sparse) 1024 })

def PassDesc.fa (d : PassDesc) : Fmt := (Fmt.ofCode d.ta.fmt).getD .fp32
def PassDesc.fb (d : PassDesc) : Fmt := (Fmt.ofCode d.tb.fmt).getD .fp32

/-- The shape of a decoded group. A pair of formats that has none takes the limits of 128, which the LEN_EXCEEDS checks meet before the
pair is rejected. Log 158 (DESIGN CHOICE). -/
def PassDesc.shape (d : PassDesc) : Shape := (shapeOf d.fa d.fb d.sparse d.h d.w).getD ⟨1, 1, 128, 128, 128, 128, 1⟩

def PassDesc.mode (d : PassDesc) : ArrMode := modeOf d.fa d.fb

/-- R130: how many problems. -/
def PassDesc.problems (d : PassDesc) : Nat := (128 / d.h) * (128 / d.w)

def PassDesc.tiles (d : PassDesc) : Nat := cdiv d.n d.shape.nc
def PassDesc.chunks (d : PassDesc) : Nat := cdiv d.k d.shape.kc

/-- Bits a streamed element presents. -/
def serialBits : Fmt → Nat
  | .ub b => b
  | .ib b => b
  | _ => 1

/-- Bp of Table 5-3's notes: the beats of a pass. -/
def PassDesc.bp (d : PassDesc) : Nat :=
  match d.mode with
  | .serial => d.m * serialBits d.fa
  | _ => d.m * d.shape.c * (if d.op = 2 then 2 else 1)

/-! ## The block bitmap (R143, R144) -/

/-- A bit of the bitmap: 1 where its byte is poisoned (Table 11-5). Byte b of a map of several rows is its element b in row-major
order, whatever its `INNER_ROWS`. Log 159 (DEDUCED). -/
def Module.mapBit (m : Module) (die : Nat) (t : Tensor) (i : Nat) : Bool :=
  let r := i / 8 / t.cols
  let c := i / 8 % t.cols
  m.ctl.elemBad t r c || bit (m.elemCode die t r c) (i % 8)

/-- The 32-blocks that meet [a, b). -/
def blocks32 (a b : Nat) : List Nat := if b ≤ a then [] else (List.range ((b - 1) / 32 - a / 32 + 1)).map (a / 32 + ·)

/-- The range of inner positions of a k-chunk and of columns of an n-tile of problem `p` in B. Log 86 (DEDUCED). -/
def PassDesc.kRange (d : PassDesc) (chunk : Nat) : Nat × Nat :=
  (d.k0 + chunk * d.shape.kc, d.k0 + min d.k ((chunk + 1) * d.shape.kc))
def PassDesc.nRange (d : PassDesc) (p tile : Nat) : Nat × Nat :=
  (d.n0 + p * d.n + tile * d.shape.nc, d.n0 + p * d.n + min d.n ((tile + 1) * d.shape.nc))

/-- The bitmap indices of the blocks of problem `p` in a pass. -/
def PassDesc.mapBits (d : PassDesc) (p tile chunk : Nat) : List Nat :=
  let k := d.kRange chunk
  let n := d.nRange p tile
  ((blocks32 k.1 k.2).map (fun kb => (blocks32 n.1 n.2).map (fun nb => kb * cdiv d.tb.outers 32 + nb))).flatten

/-- Does problem `p` take part in a pass? -/
def Module.marked (m : Module) (d : PassDesc) (p tile chunk : Nat) : Bool :=
  !d.bskip || (d.mapBits p tile chunk).any (m.mapBit d.die d.tmap)

/-- R144: is a pass issued? Log 91 (DEDUCED). -/
def Module.issues (m : Module) (d : PassDesc) (tile chunk : Nat) : Bool := (List.range d.problems).any (fun p => m.marked d p tile chunk)

/-- The passes of a group in the order of R121. -/
def PassDesc.grid (d : PassDesc) : List (Nat × Nat) :=
  ((List.range d.tiles).map (fun j => (List.range d.chunks).map (fun i => (j, i)))).flatten

/-- T of R129 for n-tiles of a group, over the passes that will be issued; an n-tile skipped whole adds its readout where no issued
pass follows it. -/
def Module.beatsOf (m : Module) (d : PassDesc) (tiles : List Nat) : Nat :=
  let g := d.grid.filter (fun p => tiles.contains p.1 && m.issues d p.1 p.2)
  let p := g.length
  let j := (dedup (g.map (·.1))).length
  let r := if d.accOut then d.m else 0
  if p = 0 then tiles.length * r
  else
    let trailing := (tiles.filter (fun t => decide ((g.map (·.1)).foldl max 0 < t))).length
    d.shape.l + (p - 1) * max d.bp d.shape.l + d.bp + (j - 1) + r + trailing * r

/-- `EST_BEATS` of a group (R259). -/
def Module.estBeats (m : Module) (d : PassDesc) : Nat := m.beatsOf d (List.range d.tiles)

/-! ## Array pass groups (Table 5-1, R124 to R130) -/

/-- Is a format an integer of width class 1 or 2 (R136)? -/
def distFmt (f : Fmt) : Bool := [Fmt.t2, .i2, .i4, .u4, .i8, .u8].contains f

/-- The formats of Table 5-2's side lane and R145's outliers. -/
def smallFmt (c : Nat) : Bool := c == 0x04 || c == 0x05 || c == 0x06

/-- A group's fields and tensors, with what R164 puts in force. -/
def DieSt.passOf (x : DieSt) (die phys : Nat) (b : List Nat) : PassDesc :=
  let h := hdrOf b
  let o := b.getD 9 0
  let p := b.getD 10 0
  let t (off : Nat) : Tensor := x.tens (fieldAt b off 2)
  let cv := x.planCvt h.layer h.role (Cvt.ofWord (fieldAt b 48 8))
  let ruled := x.ruled h.layer h.role
  let ta := t 16
  { die := die, logical := b.getD 8 0 % 128, phys := phys, op := o % 8, accInit := bit o 3, accOut := bit o 4, zskip := bit o 5,
    loadT := bit o 6,
    sideEn := bit o 7 && !((x.planFmt ta).isSome && !smallFmt ta.fmt),
    h := packOf (p % 4), w := packOf (p / 4 % 4), sparse := bitsOf p 4 2, bskip := bit p 6,
    outx := bit p 7 && !(ruled && !smallFmt cv.tgt),
    xbase := if ruled then (x.planOf h.layer).xbase.getD (h.role - 1) 0 else sext 8 (b.getD 11 0),
    scaleA := b.getD 12 0, scaleB := b.getD 13 0, blkA := bit (b.getD 14 0) 0, blkB := bit (b.getD 14 0) 1,
    ta := ta, tb := t 18, tc := t 20, tmeta := t 22, tmap := t 24, tsin := t 26, tsout := t 28,
    m := fieldAt b 32 2, n := fieldAt b 36 4, k := fieldAt b 40 4, m0 := fieldAt b 44 4, n0 := fieldAt b 56 4, k0 := fieldAt b 60 4,
    cvt := cv, layer := h.layer, role := h.role, steered := ruled }

/-- The tensor fields a group reads. -/
def PassDesc.reads (d : PassDesc) (b : List Nat) : List Nat :=
  [fieldAt b 16 2, fieldAt b 18 2] ++ (if d.accOut then [fieldAt b 20 2] else []) ++ (if d.sparse = 0 then [] else [fieldAt b 22 2])
    ++ (if d.bskip then [fieldAt b 24 2] else []) ++ (if d.sideEn then [fieldAt b 26 2] else [])
    ++ (if d.outx then [fieldAt b 28 2] else [])

/-- The tensors it reads, but for the bitmap's and the side records' own checks. -/
def PassDesc.tensors (d : PassDesc) : List Tensor :=
  [d.ta, d.tb] ++ (if d.accOut then [d.tc] else []) ++ (if d.sparse = 0 then [] else [d.tmeta])
    ++ (if d.bskip then [d.tmap] else []) ++ (if d.sideEn then [d.tsin] else []) ++ (if d.outx then [d.tsout] else [])

/-- Stored inner positions of B up to a logical position, and metadata elements (R139, R140). -/
def PassDesc.stored (d : PassDesc) (k : Nat) : Nat := match d.sparse with | 1 => cdiv k 4 * 2 | 2 => cdiv k 4 | _ => k
def PassDesc.metaLen (d : PassDesc) (k : Nat) : Nat := match d.sparse with | 1 => cdiv k 4 | 2 => cdiv (cdiv k 4) 4 | _ => 0

/-- R124, R130, R143, R534: the LEN_EXCEEDS checks. Log 96 (DEDUCED). -/
def PassDesc.lens (d : PassDesc) : Bool :=
  let rows := d.m0 + d.problems * d.m
  let cols := d.n0 + d.problems * d.n
  let kk := d.k0 + d.k
  decide (d.m ≤ d.shape.mmax) && decide (rows ≤ d.ta.outers) && decide (kk ≤ d.ta.inners) && decide (cols ≤ d.tb.outers)
    && decide (d.stored kk ≤ d.tb.inners)
    && (!d.accOut || (decide (rows ≤ d.tc.outers) && decide (d.n0 + d.n ≤ d.tc.inners)))
    && (d.sparse == 0 || (decide (cols ≤ d.tmeta.outers) && decide (d.metaLen kk ≤ d.tmeta.inners)))
    && (!d.bskip || decide (((kk - 1) / 32 * cdiv d.tb.outers 32 + (cols - 1) / 32) / 8 < d.tmap.rows * d.tmap.cols))
    && (!d.sideEn || (decide (rows ≤ d.tsin.rows) && decide (((kk - 1) / 32 + 1) * 8 ≤ d.tsin.cols)))
    && (!d.outx || (decide (rows ≤ d.tsout.rows) && decide (((d.n0 + d.n - 1) / 32 + 1) * 8 ≤ d.tsout.cols)))
    && (!(d.accInit || !d.accOut) || decide (d.tiles ≤ 1))

/-- R126 for one operand. Log 96 (DEDUCED). -/
def scaleOk (scale : Nat) (blk : Bool) (t : Tensor) : Bool := if scale = 0xFF then !blk else !blk || t.scaled

/-- Is a side tensor as R534 asks? -/
def sideOk (t : Tensor) : Bool := t.fmt == 0x08 && !t.innerRows && !t.scaled

/-- Table 5-2. -/
def PassDesc.features (d : PassDesc) : Bool :=
  let packed := d.h != 128 || d.w != 128
  let g := (d.shape.gr, d.shape.gc)
  if d.op = 0 then
    (d.mode != .serial || (d.scaleA == 0xFF && !d.blkA))
      && (d.sparse == 0 || ((d.mode == .fixed || d.mode == .ext) && decide (g.1 ≤ 2) && decide (g.2 ≤ 2)))
      && (!d.sideEn || ((d.mode == .fixed || d.mode == .ext) && smallFmt d.ta.fmt && !packed))
  else
    distFmt d.fa && distFmt d.fb && d.scaleA == 0xFF && !d.blkA && d.scaleB == 0xFF && !d.blkB && d.sparse == 0 && !d.bskip
      && !d.sideEn && !d.outx

/-- R186: log mode. -/
def PassDesc.logOk (d : PassDesc) : Bool := d.mode != .log || (d.role == 1 && d.ta.frozen && d.tb.frozen)

/-- R143, R145: the alignment of skipped blocks and of outliers. -/
def PassDesc.aligned (d : PassDesc) : Bool :=
  (!d.bskip || (d.k0 % 32 == 0 && d.n0 % 32 == 0 && (d.problems == 1 || d.n % 32 == 0)))
    && (!d.outx || (d.accOut && smallFmt d.cvt.tgt && d.n0 % 32 == 0))

/-- The reserved bits of a group's descriptor. -/
def passReserved (b : List Nat) : Bool :=
  (hdrOf b).rsv == 0 && !bit (b.getD 8 0) 7 && decide (b.getD 9 0 % 8 < 6) && b.getD 10 0 % 4 != 3 && b.getD 10 0 / 4 % 4 != 3
    && bitsOf (b.getD 10 0) 4 2 != 3 && decide (b.getD 14 0 < 4) && b.getD 15 0 == 0 && zeroBytes b 30 2 && zeroBytes b 34 2
    && cvtReserved (fieldAt b 48 8)

/-- R26, R48, R59, R126, R127, R241, R242: the FIELD_INVALID checks. Log 96 (DEDUCED). -/
def PassDesc.fields (d : PassDesc) (b : List Nat) : Bool :=
  passReserved b && (shapeOf d.fa d.fb d.sparse d.h d.w).isSome && scaleOk d.scaleA d.blkA d.ta && scaleOk d.scaleB d.blkB d.tb
    && d.features && d.logOk && d.aligned && d.cvt.ok && (!d.accOut || (d.cvt.fits d.tc && writerOk d.tc d.layer d.role))
    && (d.sparse == 0 || d.tmeta.fmt == (if d.sparse = 1 then 0x03 else 0x08)) && (!d.bskip || d.tmap.fmt == 0x08)
    && (!d.sideEn || sideOk d.tsin) && (!d.outx || (sideOk d.tsout && writerOk d.tsout d.layer d.role))
    && d.tensors.all (localTensor d.die)

/-- Table 9-10: the units of a pass group. -/
def PassDesc.units (d : PassDesc) : Nat :=
  if d.op != 0 then 4
  else match groupOf d.fa d.fb with
    | some (1, 1) => 5
    | some (1, 4) => if d.mode = .serial then 3 else 4
    | _ => 4

/-- The physical array of a logical array, where the map has one that is enabled (R127, R243). -/
def Ctl.physOf (c : Ctl) (die n : Nat) : Option Nat :=
  if n < 96 && c.on Fld.que_PLACE_MAPn_VALID die n then
    let p := c.rd Fld.que_PLACE_MAPn_PHYS die n
    if c.arrayEnabled die p then some p else none
  else none

/-- Decode of an array pass group. -/
def Module.decodePass (m : Module) (die : Nat) (b : List Nat) : Decoded :=
  let x := m.ctl.die die
  let ph := m.ctl.physOf die (b.getD 8 0 % 128)
  let d := x.passOf die (ph.getD 0) b
  if d.m = 0 ∨ d.n = 0 ∨ d.k = 0 then .noop
  else match firstFail [((d.reads b).all (fun i => (x.tensor i).isSome), errTensor), (d.lens, errLen), (d.fields b, errField),
      (ph.isSome, errArray)] with
    | some e => .reject e
    | none => .go (.pass d) d.units (m.estBeats d)

/-! ## nop and dm.copy (R262, Table 9-11) -/

/-- Decode of a nop. Log 96 (DEDUCED). -/
def decodeNop (b : List Nat) : Decoded :=
  if (hdrOf b).rsv == 0 && zeroBytes b 8 56 then .go .none 0 0 else .reject errField

/-- Decode of a data movement. -/
def Ctl.decodeCopy (c : Ctl) (die : Nat) (b : List Nat) : Decoded :=
  let x := c.die die
  let h := hdrOf b
  let rows := fieldAt b 16 4
  let s := x.tens (fieldAt b 8 2)
  let t := x.tens (fieldAt b 10 2)
  let sc := bit (b.getD 12 0) 0
  if rows = 0 then .noop
  else match firstFail [
      ((x.tensor (fieldAt b 8 2)).isSome && (x.tensor (fieldAt b 10 2)).isSome, errTensor),
      (decide (fieldAt b 20 4 + rows ≤ s.rows) && decide (fieldAt b 24 4 + rows ≤ t.rows), errLen),
      (h.rsv == 0 && decide (b.getD 12 0 < 2) && zeroBytes b 13 3 && zeroBytes b 28 36 && s.fmt == t.fmt && s.cols == t.cols
        && (!sc || (s.scaled && t.scaled)) && writerOk t h.layer h.role, errField)] with
    | some e => .reject e
    | none => .go (.copy s t sc rows (fieldAt b 20 4) (fieldAt b 24 4) ⟨0⟩) 0 0

end Sys2Proof.Machine
end

