-- ==== Sys2Proof/Machine/Digits.lean ====
section
/-! DEFINITION. What one beat of an array computes: decomposition, the window, the accumulator in its three kinds, and the
operations of Table 5-8 (R45, R84 to R110, R136 to R142, R148, R149). The digit products of R84 and R87 sum to the exact
product of the two operands, which is what is formed here. -/

namespace Sys2Proof.Machine

/-! ## Decomposition (R93, R94, R149) -/

/-- Table 4-5a: kmin and D of a format. -/
def frameOf : Fmt → Int × Int
  | .t2 => (0, 1) | .i2 => (0, 2) | .i4 => (0, 4) | .u4 => (0, 4) | .i8 => (0, 8) | .u8 => (0, 8)
  | .ub b => (0, b) | .ib b => (0, b)
  | .f4 => (-1, 4) | .f6a => (-4, 9) | .f6b => (-3, 6) | .f8a => (-9, 18) | .f8b => (-16, 32)
  | _ => (0, 0)

/-- The frame of a group: kmin of the broadcast side, kmin of the stationary side, Q and H (R94, R136, R149). -/
structure FrameQ where
  ka : Int
  kb : Int
  q : Int
  h : Int
deriving DecidableEq, Repr

def PassDesc.frameQ (d : PassDesc) : FrameQ :=
  let a := frameOf d.fa
  let b := frameOf d.fb
  let ka := if d.sideEn then min a.1 (-9) else a.1
  let da := if d.sideEn then max a.2 18 else a.2
  if d.op = 0 then ⟨ka, b.1, ka + b.1 + d.xbase, 71 - da - b.2⟩ else ⟨0, 0, 0, 71⟩

/-- gs and xs of a scale code (R93). -/
def scaleG (c : Nat) : Int := if c / 8 = 0 then (c % 8 : Nat) else (8 + c % 8 : Nat)
def scaleX (c : Nat) : Int := if c / 8 = 0 then -17 else (c / 8 : Nat) - 18

/-- An exact value as an integer in units of 2^k; the value is a multiple of that unit. -/
def inUnits (k : Int) : Val → Int
  | .fin n m =>
    let s := m.scale (-k)
    let v : Int := (s.num / s.den : Nat)
    if n then -v else v
  | _ => 0

/-! ## Special states (R45) -/

/-- What a product contributes beside its number. -/
def specialOf : Val → Special
  | .nan => .nan
  | .inf n => .inf n
  | .fin _ _ => .none

/-- A sum's special state. -/
def Special.add : Special → Special → Special
  | .nan, _ | _, .nan => .nan
  | .inf a, .inf b => if a = b then .inf a else .nan
  | .inf a, .none => .inf a
  | .none, x => x

/-! ## Terms -/

/-- A product that reaches an entry: its inner block, its exact value in units of the frame without its scales (gs, xs of both
operands), and its special state. -/
structure Term where
  blk : Nat
  p : Int
  gs : Int
  xs : Int
  sp : Special
deriving DecidableEq, Repr

/-- The value of an element without its scale: NaN where poisoned. -/
def bareVal (f : Fmt) (code : Nat) (poison : Bool) : Val := if poison then .nan else (decodeElem f code).1

/-- The product of a broadcast element and a stationary element, none where either is masked (R42). A scale of zero makes its
element +0 (R43); poison acts as NaN all the same (R310). Log 89 (DEDUCED). -/
def termOf (fr : FrameQ) (blk : Nat) (fa fb : Fmt) (a : Elem) (s : Stat) : Option Term :=
  if a.scale = 0xFF ∨ s.scale = 0xFF then none
  else
    let va := if a.scale = 0 ∧ ¬ a.poison then Val.zero else bareVal fa a.code a.poison
    let vb := if s.scale = 0 ∧ ¬ s.poison then Val.zero else bareVal fb s.code s.poison
    some { blk := blk, p := inUnits fr.ka va * inUnits fr.kb vb, gs := scaleG a.scale * scaleG s.scale,
           xs := scaleX a.scale + scaleX s.scale, sp := specialOf (va.mul vb) }

/-! ## Fixed mode -/

/-- The blocks of terms, each with its contribution: gs × the sum of its products, and X + XBASE. -/
def gather : List Term → List (Nat × Int × Int)
  | [] => []
  | t :: l =>
    let g := gather l
    match g.find? (fun x => x.1 == t.blk && x.2.2 == t.xs) with
    | some _ => g.map (fun x => if x.1 = t.blk ∧ x.2.2 = t.xs then (x.1, x.2.1 + t.p * t.gs, x.2.2) else x)
    | none => (t.blk, t.p * t.gs, t.xs) :: g

/-- An entry and the events raised on it. -/
abbrev Merge := AccEntry × List Nat

/-- R98: a fixed sum in its 96 bits. -/
def accClamp (e : AccEntry) (v : Int) : Merge :=
  if e.clamped then (e, [])
  else if (2 ^ 95 : Nat) ≤ v then ({ e with fixed := (2 ^ 95 : Nat) - 1, clamped := true }, [8])
  else if v < -(2 ^ 95 : Nat) then ({ e with fixed := -(2 ^ 95 : Nat), clamped := true }, [8])
  else ({ e with fixed := v }, [])

/-- One block's contribution: added in the window, flags above it, nothing below (R94 to R97). The first component is what is
to be added. -/
def blockInto (fr : FrameQ) (xbase : Int) (e : AccEntry) (b : Nat × Int × Int) : Int × Merge :=
  let x := b.2.2 - xbase
  if b.2.1 = 0 then (0, e, [])
  else if fr.h < x then
    (0, if 0 < b.2.1 then { e with xp := true } else { e with xn := true }, if e.xp || e.xn then [] else [6])
  else if x < 0 then (0, e, [7])
  else (b.2.1 * (2 ^ x.toNat : Nat), e, [])

/-- Every block of a beat. Log 95 (DEDUCED). -/
def blocksInto (fr : FrameQ) (xbase : Int) : AccEntry → List (Nat × Int × Int) → Int × Merge
  | e, [] => (0, e, [])
  | e, b :: t =>
    let r := blockInto fr xbase e b
    let q := blocksInto fr xbase r.2.1 t
    (r.1 + q.1, q.2.1, r.2.2 ++ q.2.2)

/-- The special state after terms. -/
def AccEntry.mark (e : AccEntry) (l : List Term) : AccEntry := { e with special := (l.map (·.sp)).foldl Special.add e.special }

/-- A beat's terms in fixed mode. -/
def mergeFixed (fr : FrameQ) (xbase : Int) (e : AccEntry) (l : List Term) : Merge :=
  let r := blocksInto fr xbase (e.mark l) (gather l)
  let c := accClamp r.2.1 (r.2.1.fixed + r.1)
  (c.1, r.2.2 ++ c.2)

/-! ## Extended float (R100, R101) -/

/-- A term's exact value in units of 2^-400. -/
def extUnits (v : Val) : Int := inUnits (-400) v

/-- A beat's exact products, added and rounded once. An entry in a special state keeps it (R45): no number is added to it. -/
def mergeExt (e : AccEntry) (l : List Val) : Merge :=
  let sp := (l.map specialOf).foldl Special.add e.special
  let sum := (l.map extUnits).foldl (· + ·) 0
  let acc : Int := match e.ext with | .fin m x => m * (2 ^ (x + 400).toNat : Nat) | _ => 0
  if sp ≠ .none then ({ e with special := sp }, [])
  else match xRound (acc + sum) (-400) with
    | .inf n => ({ e with special := .inf n }, [1])
    | v => ({ e with ext := v }, [])

/-! ## Log mode (R106 to R109) -/

/-- The log value of an L8 element with its scale: none where its code or its scale is zero. Log 147 (DEDUCED). -/
def logOf (code scale : Nat) : LVal :=
  if code % 128 = 0x40 ∨ scale = 0 then .zero else .val (decide (128 ≤ code)) (16 * sext 7 code + logScale scale)

/-- A product. -/
def logMul : LVal → LVal → LVal
  | .val s a, .val t b => .val (s != t) (a + b)
  | _, _ => .zero

/-- One level of the tree: element 2j with element 2j + 1. -/
def logLevel (tab : List (Int × Int)) : List LVal → List LVal × List CvtEvent
  | a :: b :: t =>
    let r := lAdd tab a b
    let q := logLevel tab t
    (r.1 :: q.1, r.2 ++ q.2)
  | l => (l, [])

/-- The tree, level by level. -/
def logTree (tab : List (Int × Int)) : Nat → List LVal → LVal × List CvtEvent
  | 0, l => (l.headD .zero, [])
  | n + 1, l =>
    let r := logLevel tab l
    let q := logTree tab n r.1
    (q.1, r.2 ++ q.2)

/-- A beat's products in log mode, `n` levels deep. -/
def mergeLog (tab : List (Int × Int)) (n : Nat) (e : AccEntry) (l : List LVal) (sp : List Special) : Merge :=
  let r := logTree tab n l
  let q := lAdd tab e.log r.1
  ({ e with log := q.1, special := sp.foldl Special.add e.special }, (r.2 ++ q.2).map CvtEvent.idx)

/-! ## Distance and comparison (Table 5-8) -/

/-- A term. -/
def distTerm (op : Nat) (a b : Int) : Int :=
  match op with
  | 1 => ((a - b).natAbs : Int)
  | 2 => (a - b) * (a - b)
  | 3 => a + b
  | 4 => a + b
  | _ => if a = b then 1 else 0

/-- The value after clear. -/
def accClear (op : Nat) : AccEntry :=
  { AccEntry.clear with fixed := match op with | 3 => -(2 ^ 95 : Nat) | 4 => (2 ^ 95 : Nat) - 1 | _ => 0 }

/-- A beat's terms. -/
def mergeDist (op : Nat) (e : AccEntry) (l : List Int) (sp : List Special) : Merge :=
  let e := { e with special := sp.foldl Special.add e.special }
  match op with
  | 3 => ({ e with fixed := l.foldl max e.fixed }, [])
  | 4 => ({ e with fixed := l.foldl min e.fixed }, [])
  | _ => accClamp e (e.fixed + l.foldl (· + ·) 0)

/-! ## One row of a pass at one column -/

/-- The broadcast elements of a row in a chunk, by inner position, and its side entries (R148): inner position, F8A code. -/
structure ARow where
  elems : List (Nat × Elem)
  side : List (Nat × Nat)
deriving DecidableEq, Repr

/-- The broadcast element at an inner position. -/
def ARow.at (a : ARow) (k : Nat) : Option Elem := (a.elems.find? (fun p => p.1 == k)).map (·.2)

/-- The inner block length of a pass (R94). -/
def PassDesc.blockLen (d : PassDesc) : Nat :=
  let l := (if d.blkA then [d.ta.bsize] else []) ++ (if d.blkB then [d.tb.bsize] else [])
  l.foldl min 32

/-- The pairs that meet at a column: a live stationary element and the broadcast element of its position. -/
def pairsOf (a : ARow) (col : List Stat) : List (Elem × Stat) :=
  col.filterMap (fun s => if s.live then (a.at s.k).map (fun e => (e, s)) else none)

/-- The side products: the side value with the element's own scale. Log 95 (DEDUCED). -/
def sidePairs (a : ARow) (col : List Stat) : List (Elem × Stat) :=
  a.side.flatMap (fun x => col.filterMap (fun s =>
    if s.live && s.k == x.1 then (a.at s.k).map (fun e => (⟨x.2, false, e.scale⟩, s)) else none))

/-- The exact product with scales, none where masked. -/
def fullProduct (fa fb : Fmt) (a : Elem) (s : Stat) : Option Val :=
  if a.scale = 0xFF ∨ s.scale = 0xFF then none
  else
    let va := if a.scale = 0 ∧ ¬ a.poison then Val.zero else (bareVal fa a.code a.poison).mul (.fin false (s8Mag a.scale))
    let vb := if s.scale = 0 ∧ ¬ s.poison then Val.zero else (bareVal fb s.code s.poison).mul (.fin false (s8Mag s.scale))
    some (va.mul vb)

/-- The products of the main and side lanes in fixed mode. Log 95 (DEDUCED). -/
def PassDesc.terms (d : PassDesc) (a : ARow) (col : List Stat) : List Term :=
  let fr := d.frameQ
  let blk (s : Stat) : Nat := s.k / d.blockLen
  (pairsOf a col).filterMap (fun p => termOf fr (blk p.2) d.fa d.fb p.1 p.2)
    ++ (sidePairs a col).filterMap (fun p => termOf fr (blk p.2) .f8a d.fb p.1 p.2)

/-- The same in extended-float mode. -/
def PassDesc.products (d : PassDesc) (a : ARow) (col : List Stat) : List Val :=
  (pairsOf a col).filterMap (fun p => fullProduct d.fa d.fb p.1 p.2)
    ++ (sidePairs a col).filterMap (fun p => fullProduct .f8a d.fb p.1 p.2)

/-- The leaf of a stationary position in the log tree. -/
def logLeaf (a : ARow) (s : Stat) : LVal :=
  if s.live && s.scale != 0xFF && !s.poison then
    match a.at s.k with
    | some e => if e.scale = 0xFF ∨ e.poison then .zero else logMul (logOf e.code e.scale) (logOf s.code s.scale)
    | none => .zero
  else .zero

/-- The special states of a log beat: poison alone. -/
def poisonOf (a : ARow) (col : List Stat) : List Special :=
  (pairsOf a col).map (fun p =>
    if p.1.scale != 0xFF && p.2.scale != 0xFF && (p.1.poison || p.2.poison) then Special.nan else .none)

/-- An integer operand's value. -/
def intOf (f : Fmt) (code : Nat) : Int := inUnits 0 (decodeElem f code).1

/-- One output row's merge into an entry. -/
def PassDesc.merge (d : PassDesc) (tab : List (Int × Int)) (e : AccEntry) (a : ARow) (col : List Stat) : Merge :=
  if d.op != 0 then
    mergeDist d.op e ((pairsOf a col).map (fun p => distTerm d.op (intOf d.fa p.1.code) (intOf d.fb p.2.code))) (poisonOf a col)
  else match d.mode with
    | .log => mergeLog tab (Nat.log2 d.h) e (col.map (logLeaf a)) (poisonOf a col)
    | .ext => mergeExt e (d.products a col)
    | _ => mergeFixed d.frameQ d.xbase e (d.terms a col)

/-! ## Bit-serial mode (R102 to R104) -/

/-- The weight of bit `j`. -/
def bitWeight (f : Fmt) (j : Nat) : Int :=
  match f with
  | .ib b => if j + 1 = b then -(2 ^ j : Nat) else (2 ^ j : Nat)
  | _ => (2 ^ j : Nat)

/-- The bits a lane presents of a code, lowest first. -/
def serialPlan (f : Fmt) (zskip : Bool) (code : Nat) : List Nat :=
  (List.range (serialBits f)).filter (fun j => !zskip || bit code j)

/-- One presented bit's contribution to an entry: in fixed mode a block contribution of its own, else a value of the beat. Log 93 (DEDUCED). -/
def PassDesc.bitTerm (d : PassDesc) (s : Stat) (code j : Nat) : Option Term :=
  if s.live && s.scale != 0xFF && bit code j then
    let vb := if s.scale = 0 ∨ s.poison then Val.zero else bareVal d.fb s.code false
    some { blk := s.k, p := bitWeight d.fa j * inUnits d.frameQ.kb vb, gs := 8 * scaleG s.scale, xs := scaleX s.scale - 3,
           sp := .none }
  else none

/-- The same as a value. -/
def PassDesc.bitVal (d : PassDesc) (s : Stat) (code j : Nat) : Option Val :=
  if s.live && s.scale != 0xFF && bit code j then
    let vb := if s.scale = 0 ∨ s.poison then Val.zero else (bareVal d.fb s.code false).mul (.fin false (s8Mag s.scale))
    (match vb with
      | .fin _ _ => some ((Val.ofInt (bitWeight d.fa j)).mul vb)
      | _ => none)
  else none

/-- The special state of a streamed element with a stationary element (Table 2-9), set when its lane takes it up. Log 93 (DEDUCED). -/
def PassDesc.serialSpecial (d : PassDesc) (s : Stat) (a : Elem) : Special :=
  if s.live && s.scale != 0xFF then
    let vb := if s.scale = 0 ∧ ¬ s.poison then Val.zero else bareVal d.fb s.code s.poison
    specialOf ((bareVal d.fa a.code a.poison).mul vb)
  else .none

end Sys2Proof.Machine
end

