-- ==== Sys2Proof/Machine/Beats.lean ====
section
/-! DEFINITION. The load, the beat and the readout row of an array, as functions of memory and of the group they serve: what a
stationary line holds, what a broadcast row brings, what one beat merges, what one row's readout writes (R88, R102 to R105,
R111 to R114, R121, R122, R130, R135, R139 to R149, R533 to R535). -/

namespace Sys2Proof.Machine

/-! ## The grid -/

/-- Group rows and columns of the whole grid. -/
def PassDesc.gridRows (d : PassDesc) : Nat := 128 / d.shape.gr
def PassDesc.gridCols (d : PassDesc) : Nat := 128 / d.shape.gc

/-- Group rows and columns of one problem. -/
def PassDesc.probRows (d : PassDesc) : Nat := d.h / d.shape.gr
def PassDesc.probCols (d : PassDesc) : Nat := d.w / d.shape.gc

/-- The problem that holds a group of the grid (R130). -/
def PassDesc.probOf (d : PassDesc) (r c : Nat) : Nat := r / d.probRows * (128 / d.w) + c / d.probCols

/-- Where an entry stands in the bank. -/
def bankKey (p row col : Nat) : Nat := p * 65536 + row * 128 + col

/-- The row of a bank key. -/
def keyRow (k : Nat) : Nat := k % 65536 / 128

/-! ## Loading (R114, R122, R139 to R142) -/

/-- How a stationary element's scale is given. -/
def PassDesc.scB (d : PassDesc) : ScaleOf := if d.blkB then .block else .all d.scaleB
def PassDesc.scA (d : PassDesc) : ScaleOf := if d.blkA then .block else .all d.scaleA

/-- The metadata of group `g` of column `n`: its 2-bit indices and whether its element is poisoned. `TENS_META` is read by its own
entry's `INNER_ROWS`. Log 86 (DEDUCED). Log 153 (DEDUCED). -/
def Module.metaOf (m : Module) (d : PassDesc) (n g : Nat) : Nat × Bool :=
  let p := if d.sparse = 1 then d.tmeta.at n g else d.tmeta.at n (g / 4)
  let v := m.elemCode d.die d.tmeta p.1 p.2
  (if d.sparse = 1 then v else v / 4 ^ (g % 4) % 4, m.ctl.elemBad d.tmeta p.1 p.2)

/-- Is a group's metadata unusable? -/
def PassDesc.metaBad (d : PassDesc) (x : Nat × Bool) : Bool := x.2 || (d.sparse == 1 && decide (x.1 / 4 % 4 ≤ x.1 % 4))

/-- The logical position of stored value `st` of column `n`, none where its group contributes nothing. Log 86 (DEDUCED). -/
def Module.logical (m : Module) (d : PassDesc) (n st : Nat) : Option Nat :=
  match d.sparse with
  | 0 => some st
  | 1 =>
    let x := m.metaOf d n (st / 2)
    if d.metaBad x then none else some (st / 2 * 4 + (if st % 2 = 0 then x.1 % 4 else x.1 / 4 % 4))
  | _ =>
    let x := m.metaOf d n st
    if d.metaBad x then none else some (st * 4 + x.1)

/-- The first stored position of a chunk: that of the group its first position lies in. Log 151 (DEDUCED). -/
def PassDesc.storedBase (d : PassDesc) (chunk : Nat) : Nat :=
  let k := (d.kRange chunk).1
  match d.sparse with | 1 => k / 4 * 2 | 2 => k / 4 | _ => k

/-- Stored positions of a chunk beyond the rows of the grid: where `K0` is no multiple of 4 every chunk of a sparse operand meets one
group more than the grid has rows for, and both chunks that meet a group load it. Log 151 (DEDUCED). -/
def PassDesc.spare (d : PassDesc) : Nat := if d.k0 % 4 = 0 then 0 else match d.sparse with | 1 => 2 | 2 => 1 | _ => 0

/-- The logical position at which the group of a stored position begins. -/
def PassDesc.groupPos (d : PassDesc) (st : Nat) : Nat := match d.sparse with | 1 => st / 2 * 4 | 2 => st * 4 | _ => st

/-- A sparse operand as its scales see it: with its logical inner dimension (R142). -/
def PassDesc.scaled (d : PassDesc) : Tensor :=
  { d.tb with rows := if d.tb.innerRows then d.tb.rows * sparsity d.sparse else d.tb.rows,
              cols := if d.tb.innerRows then d.tb.cols else d.tb.cols * sparsity d.sparse }

/-- The line of the scale byte of the stored position `st` of column `n`. -/
def PassDesc.scaleLine (d : PassDesc) (n st : Nat) : Nat :=
  let p := d.scaled.at n (d.groupPos st)
  d.scaled.scaleAddr p.1 p.2 / 64

/-- R142: the scale of a sparse operand stands at its logical position. Log 89 (DEDUCED). -/
def Module.statScale (m : Module) (d : PassDesc) (n st : Nat) : Nat :=
  match d.scB with
  | .all c => if c = 0xFF then 0x78 else c
  | .block => let p := d.scaled.at n (d.groupPos st); m.scaleByte d.scaled p.1 p.2

/-- A place of the stationary tile: a problem, a column of its n-tile, a stored row of its chunk. -/
structure Cell where
  p : Nat
  nn : Nat
  i : Nat
deriving DecidableEq, Repr

/-- The column of B and the stored position of a place. -/
def PassDesc.cellCol (d : PassDesc) (s : Pass) (x : Cell) : Nat := (d.nRange x.p s.tile).1 + x.nn
def PassDesc.cellPos (d : PassDesc) (s : Pass) (x : Cell) : Nat := d.storedBase s.chunk + x.i

/-- Does a place of the tile lie within the pass: its column is in range, its stored position within the extent? -/
def PassDesc.inPass (d : PassDesc) (s : Pass) (x : Cell) : Bool :=
  decide (x.p < d.problems) && decide (d.cellCol s x < (d.nRange x.p s.tile).2) && decide (d.cellPos s x < d.stored (d.kRange s.chunk).2)

/-- Does it hold an element that is read: its problem has a marked block in the pass (R130)? Log 151 (DEDUCED). -/
def Module.holds (m : Module) (d : PassDesc) (s : Pass) (x : Cell) : Bool := d.inPass s x && m.marked d x.p s.tile s.chunk

/-- A place that takes part in nothing. -/
def Stat.none : Stat := ⟨0, false, 0xFF, 0, false⟩

/-- A zero stationary element, which a problem takes whose blocks in an issued pass are all zero (R130). Of a sparse operand, whose
metadata are not read then, the lowest positions of the group are taken. Log 152 (DESIGN CHOICE). -/
def PassDesc.zeroStat (d : PassDesc) (s : Pass) (st : Nat) : Stat :=
  let k := match d.sparse with | 1 => st / 2 * 4 + st % 2 | 2 => st * 4 | _ => st
  ⟨0, false, 0, k, decide ((d.kRange s.chunk).1 ≤ k) && decide (k < (d.kRange s.chunk).2)⟩

/-- The stationary element at a place of the tile. Log 152 (DESIGN CHOICE). -/
def Module.statAt (m : Module) (d : PassDesc) (s : Pass) (x : Cell) : Stat :=
  let n := d.cellCol s x
  let st := d.cellPos s x
  if !d.inPass s x then Stat.none
  else if !m.marked d x.p s.tile s.chunk then d.zeroStat s st
  else
    let q := d.tb.at n st
    let k := (m.logical d n st).getD 0
    { code := m.elemCode d.die d.tb q.1 q.2, poison := m.ctl.elemBad d.tb q.1 q.2, scale := m.statScale d n st, k := k,
      live := (m.logical d n st).isSome && decide ((d.kRange s.chunk).1 ≤ k) && decide (k < (d.kRange s.chunk).2) }

/-- The places of the tile that load beat `x` writes (R114); the last one also writes the spare rows. -/
def PassDesc.lineCells (d : PassDesc) (x : Nat) : List Cell :=
  let cell (r c : Nat) : Cell := ⟨d.probOf r c, c % d.probCols, r % d.probRows⟩
  (List.range d.gridCols).map (fun i =>
    if d.loadT then
      let e := x * d.gridCols + i
      cell (e % d.gridRows) (e / d.gridRows)
    else cell x i)
  ++ (if x + 1 = d.shape.l then
      ((List.range (128 / d.h)).map (fun pr => ((List.range d.spare).map (fun e =>
        (List.range d.gridCols).map (fun c =>
          ({ cell (pr * d.probRows) c with i := d.probRows + e } : Cell)))).flatten)).flatten
    else [])

/-- Elements of `l` that are not in `prev`. -/
def minus (l prev : List Nat) : List Nat := l.filter (fun x => !prev.contains x)

/-- What reading the scale byte and the metadata of a stationary element raises; `i` is its row in the tile. -/
def Module.statExtra (m : Module) (d : PassDesc) (n st i : Nat) (newBlock newGroup : Bool) : Seen :=
  let sc := if newBlock then
      m.ctl.seenLines (minus [d.scaleLine n st] (if i = 0 then [] else [d.scaleLine n (st - 1)]))
    else Seen.none
  let g (k : Nat) : Nat × Nat := d.tmeta.at n (if d.sparse = 1 then k / 2 else k / 4)
  let mt := if newGroup then
      m.ctl.seenLines (minus (d.tmeta.elemLines (g st).1 (g st).2)
        (if i = 0 then [] else d.tmeta.elemLines (g (st - 1)).1 (g (st - 1)).2))
    else Seen.none
  sc.add mt

/-- What loading one element raises: what its neighbour before it in the tile has not already been read for (R535). Log 88 (DEDUCED). -/
def Module.statSeen (m : Module) (d : PassDesc) (s : Pass) (x : Cell) : Seen × List Nat :=
  if !m.holds d s x then (Seen.none, [])
  else
    let n := d.cellCol s x
    let st := d.cellPos s x
    let q := d.tb.at n st
    let prev := if d.tb.innerRows then (if x.nn = 0 then [] else d.tb.elemLines st (n - 1))
      else (if x.i = 0 then [] else d.tb.elemLines n (st - 1))
    let ls := m.ctl.seenLines (minus (d.tb.elemLines q.1 q.2) prev)
    let e := m.statAt d s x
    let newBlock := match d.scB with | .block => x.i == 0 || st % (d.tb.bsize / sparsity d.sparse) == 0 | _ => false
    let grp := if d.sparse = 1 then st % 2 == 0 else d.sparse == 2
    let bad := grp && d.metaBad (m.metaOf d n (if d.sparse = 1 then st / 2 else st))
    ((ls.add (m.statExtra d n st x.i newBlock grp)).add
        ⟨b2n (elemInvalid d.tb.fmt ⟨e.code, e.poison, e.scale⟩), b2n (newBlock && e.scale == 0xFF), [], []⟩,
     if bad then [11] else [])

/-- One load beat: the elements it writes, and what they raise. -/
def Module.loadLine (m : Module) (d : PassDesc) (s : Pass) (x : Nat) : List Stat × Seen × List Nat :=
  let cells := d.lineCells x
  let r := cells.map (m.statSeen d s)
  (cells.map (m.statAt d s), r.foldl (fun a y => a.add y.1) Seen.none, (r.map (·.2)).flatten)

/-- A whole tile. -/
def Module.loadTile (m : Module) (d : PassDesc) (s : Pass) : Tile × Seen × List Nat :=
  (List.range d.shape.l).foldl (fun (t : Tile × Seen × List Nat) x =>
    let r := m.loadLine d s x
    ({ t.1 with elems := t.1.elems ++ r.1, lines := t.1.lines + 1 }, t.2.1.add r.2.1, t.2.2 ++ r.2.2)) (⟨s, [], 0⟩, Seen.none, [])

/-- The column of problem `p` at column `nn` of a tile, top row first. -/
def Tile.col (t : Tile) (d : PassDesc) (p nn : Nat) : List Stat :=
  let pr := p / (128 / d.w)
  let r0 := pr * d.probRows
  let c := p % (128 / d.w) * d.probCols + nn
  (List.range d.probRows).map (fun i =>
    t.elems.getD (if d.loadT then c * d.gridRows + r0 + i else (r0 + i) * d.gridCols + c) Stat.none)
  ++ (List.range d.spare).map (fun e => t.elems.getD (d.gridRows * d.gridCols + (pr * d.spare + e) * d.gridCols + c) Stat.none)

/-! ## The broadcast row -/

/-- A side record's entries (position, value), none where it is ignored (R147, R149). -/
def sideEntries (inner b : Nat) (rec8 : List Nat) : Option (List (Nat × Nat)) :=
  let v := unle rec8
  let n := v % 8
  let pos := (List.range n).map (fun e => bitsOf v (8 + 5 * e) 5)
  let asc := (pos.zip (pos.drop 1)).all (fun p => decide (p.1 < p.2))
  if 4 < n then none
  else if asc && pos.all (fun p => decide (32 * b + p < inner)) then
    some ((List.range n).map (fun e => (32 * b + pos.getD e 0, bitsOf v (32 + 8 * e) 8)))
  else none

/-- One side record as read: its entries in the chunk, and OUTLIER_INVALID where it is ignored or poisoned. A record that two k-chunks
meet raises it in the first of them. Log 154 (DEDUCED). -/
def Module.sideRec (m : Module) (d : PassDesc) (row b k1 k2 : Nat) : List (Nat × Nat) × List Nat × Seen :=
  let at' := (List.range 8).map (fun i => (row, 8 * b + i))
  let sn := m.seenAt d.die d.tsin (.all 0xFF) at'
  let bad := at'.any (fun p => m.ctl.elemBad d.tsin p.1 p.2)
  match if bad then none else sideEntries d.ta.inners b (at'.map (fun p => m.elemCode d.die d.tsin p.1 p.2)) with
  | some l => (l.filter (fun e => decide (k1 ≤ e.1) && decide (e.1 < k2)), [], sn)
  | none => ([], if k1 ≤ 32 * b ∨ k1 = d.k0 then [12] else [], sn)

/-- A row of problem `p` in a chunk. -/
def Module.aRow (m : Module) (d : PassDesc) (p row chunk : Nat) : ARow × Seen × List Nat :=
  let k := d.kRange chunk
  let o := d.m0 + p * d.m + row
  let ks := (List.range (k.2 - k.1)).map (k.1 + ·)
  let at' := ks.map (fun k => d.ta.at o k)
  let sides := if d.sideEn then (blocks32 k.1 k.2).map (fun b => m.sideRec d o b k.1 k.2) else []
  (⟨ks.map (fun k => (k, m.elem d.die d.ta d.scA (d.ta.at o k).1 (d.ta.at o k).2)), (sides.map (·.1)).flatten⟩,
   sides.foldl (fun a x => a.add x.2.2) (m.seenAt d.die d.ta d.scA at'), (sides.map (·.2.1)).flatten)

/-- May the row be read, where its tensor is a tile buffer (R192)? -/
def Ctl.aReady (c : Ctl) (d : PassDesc) (row chunk : Nat) : Bool :=
  let k := d.kRange chunk
  !d.ta.inTb || (List.range d.problems).all (fun p =>
    (List.range (k.2 - k.1)).all (fun i => c.tbFull d.die d.ta (d.ta.at (d.m0 + p * d.m + row) (k.1 + i)).1))

/-! ## One beat -/

/-- A group with the bank it merges into, and what its beats have raised. -/
structure Beat where
  g : GroupRun
  bank : Tab Nat AccEntry
  ev : List Nat
  seen : Seen
  saved : Nat
  beats : Nat
deriving DecidableEq, Repr

/-- The beats of one output row outside bit-serial mode. -/
def PassDesc.rowBeats (d : PassDesc) : Nat := d.shape.c * (if d.op = 2 then 2 else 1)

/-- How many columns a tile has. -/
def PassDesc.tileCols (d : PassDesc) (tile : Nat) : Nat := min d.shape.nc (d.n - tile * d.shape.nc)

/-- An entry as a pass meets it: clear at the first pass of a tile that opens its bank (R89, R121). -/
def entryFor (d : PassDesc) (s : Pass) (bank : Tab Nat AccEntry) (key : Nat) : AccEntry :=
  if s.first && !d.accInit then accClear d.op else Tab.get (accClear d.op) bank key

/-- One output row of one problem. -/
def mergeRow (tab : List (Int × Int)) (d : PassDesc) (t : Tile) (row p : Nat) (a : ARow) (bank : Tab Nat AccEntry) :
    Tab Nat AccEntry × List Nat :=
  (List.range (d.tileCols t.pass.tile)).foldl (fun (b : Tab Nat AccEntry × List Nat) nn =>
    let key := bankKey p row nn
    let r := d.merge tab (entryFor d t.pass b.1 key) a (t.col d p nn)
    (b.1.set key r.1, b.2 ++ r.2)) (bank, [])

/-- The pass in the active copies is done. -/
def GroupRun.endPass (g : GroupRun) (s : Pass) : GroupRun :=
  { g with act := none, row := 0, beat := 0, lanes := [],
           readouts := if s.last && g.d.accOut then g.readouts ++ [⟨s.tile, 0, 0, false, false, false, false⟩] else g.readouts }

/-- A beat outside bit-serial mode: the row is merged at its last beat. -/
def Module.plainBeat (m : Module) (tab : List (Int × Int)) (b : Beat) (t : Tile) : Beat :=
  let g := b.g
  let d := g.d
  if g.beat + 1 < d.rowBeats then { b with g := { g with beat := g.beat + 1 }, beats := b.beats + 1 }
  else
    let r := (List.range d.problems).foldl (fun (x : Tab Nat AccEntry × List Nat × Seen) p =>
      let a := m.aRow d p g.row t.pass.chunk
      let q := mergeRow tab d t g.row p a.1 x.1
      (q.1, x.2.1 ++ a.2.2 ++ q.2, x.2.2.add a.2.1)) (b.bank, [], Seen.none)
    let g := { g with beat := 0, row := g.row + 1 }
    { b with g := if g.row < d.m then g else g.endPass t.pass, bank := r.1, ev := b.ev ++ r.2.1, seen := b.seen.add r.2.2,
             beats := b.beats + 1 }

/-! ## Bit-serial lanes -/

/-- The lanes of a group: 128 / w problems wide, h deep each. -/
def PassDesc.laneCount (d : PassDesc) : Nat := d.problems * d.h

/-- The streamed element of a lane's row: +0 beyond the chunk (R122). -/
def Module.laneElem (m : Module) (d : PassDesc) (chunk lane row : Nat) : Elem :=
  let k := (d.kRange chunk).1 + lane % d.h
  let q := d.ta.at (d.m0 + lane / d.h * d.m + row) k
  if k < (d.kRange chunk).2 then m.elem d.die d.ta (.all 0xFF) q.1 q.2 else ⟨0, false, 0x78⟩

/-- The oldest open output row of a problem. -/
def openRow (d : PassDesc) (l : List Lane) (p : Nat) : Nat := ((l.drop (p * d.h)).take d.h).foldl (fun n x => min n x.row) d.m

/-- What taking up an element raises (R535): its line, unless the lane before it holds the same one. Log 88 (DEDUCED). -/
def Module.laneSeen (m : Module) (d : PassDesc) (chunk lane row : Nat) : Seen :=
  let k := (d.kRange chunk).1 + lane % d.h
  let o := d.m0 + lane / d.h * d.m + row
  if k < (d.kRange chunk).2 then
    let q := d.ta.at o k
    let z := d.ta.at o (k - 1)
    m.ctl.seenLines (minus (d.ta.elemLines q.1 q.2) (if lane % d.h = 0 then [] else d.ta.elemLines z.1 z.2))
  else Seen.none

/-- A lane that takes up its row's element sets the special states it brings, in every column of its problem. -/
def Module.laneSpecials (m : Module) (t : Tile) (d : PassDesc) (lane row : Nat) (bank : Tab Nat AccEntry) : Tab Nat AccEntry :=
  let a := m.laneElem d t.pass.chunk lane row
  (List.range (d.tileCols t.pass.tile)).foldl (fun b nn =>
    let s := (t.col d (lane / d.h) nn).getD (lane % d.h) Stat.none
    let sp := d.serialSpecial s a
    if sp = .none then b
    else b.upd (accClear d.op) (bankKey (lane / d.h) row nn) (fun e => { e with special := e.special.add sp })) bank

/-- One lane takes up an element where it may; an element without bits to present is complete at once (R104). Lanes beyond K save no
lane-beats. Log 155 (DEDUCED). -/
def Module.laneLoad (m : Module) (t : Tile) (stop : Nat) (b : Beat) (lane : Nat) : Beat :=
  let d := b.g.d
  match b.g.lanes[lane]? with
  | none => b
  | some x =>
    if x.started || d.m ≤ x.row || stop ≤ x.row || openRow d b.g.lanes (lane / d.h) + 3 < x.row then b
    else
      let a := m.laneElem d t.pass.chunk lane x.row
      let bits := serialPlan d.fa d.zskip a.code
      let inK := decide ((d.kRange t.pass.chunk).1 + lane % d.h < (d.kRange t.pass.chunk).2)
      let x' : Lane := if bits.isEmpty then { x with row := x.row + 1 } else { x with bits := bits, started := true }
      { b with g := { b.g with lanes := updAt b.g.lanes lane (fun _ => x') }
               bank := m.laneSpecials t d lane x.row b.bank
               seen := b.seen.add (m.laneSeen d t.pass.chunk lane x.row)
               saved := b.saved + (if inK then serialBits d.fa - bits.length else 0) }

/-- Lanes take up elements until none can. -/
def Module.settleLanes (m : Module) (t : Tile) (stop : Nat) : Nat → Beat → Beat
  | 0, b => b
  | n + 1, b =>
    let b' := (List.range b.g.d.laneCount).foldl (m.laneLoad t stop) b
    if b'.g.lanes = b.g.lanes then b else m.settleLanes t stop n b'

/-- Rows that lanes are presenting bits of. -/
def busyRows (d : PassDesc) (l : List Lane) (p : Nat) : List Nat :=
  dedup ((((l.drop (p * d.h)).take d.h).filter (fun x => x.started)).map (·.row))

/-- The lanes' presented bits merge into one entry. -/
def Module.serialEntry (m : Module) (t : Tile) (d : PassDesc) (l : List Lane) (p row nn : Nat) (e : AccEntry) : Merge :=
  let col := t.col d p nn
  let live := (((l.drop (p * d.h)).take d.h).zipIdx).filter (fun x => x.1.started && x.1.row == row)
  let code (i : Nat) : Nat := (m.laneElem d t.pass.chunk (p * d.h + i) row).code
  let stat (i : Nat) : Stat := col.getD i Stat.none
  if isExt d.fb then mergeExt e (live.filterMap (fun x => d.bitVal (stat x.2) (code x.2) (x.1.bits.headD 0)))
  else mergeFixed d.frameQ d.xbase e (live.filterMap (fun x => d.bitTerm (stat x.2) (code x.2) (x.1.bits.headD 0)))

/-- One beat of presented bits for one problem. -/
def Module.serialProblem (m : Module) (t : Tile) (b : Beat) (p : Nat) : Beat :=
  let d := b.g.d
  (busyRows d b.g.lanes p).foldl (fun b row =>
    (List.range (d.tileCols t.pass.tile)).foldl (fun (b : Beat) nn =>
      let key := bankKey p row nn
      let r := m.serialEntry t d b.g.lanes p row nn (Tab.get (accClear d.op) b.bank key)
      { b with bank := b.bank.set key r.1, ev := b.ev ++ r.2 }) b) b

/-- A lane after its bit: an element whose last bit was presented is complete. -/
def Lane.after (x : Lane) : Lane :=
  if x.started then
    (match x.bits with
      | _ :: b :: t => { x with bits := b :: t }
      | _ => { x with bits := [], started := false, row := x.row + 1 })
  else x

/-- Are all rows of all lanes complete? -/
def lanesDone (d : PassDesc) (l : List Lane) : Bool := l.all (fun x => decide (d.m ≤ x.row))

/-- The pass ends when every lane has completed every row. -/
def Beat.closeSerial (b : Beat) (s : Pass) : Beat := if lanesDone b.g.d b.g.lanes then { b with g := b.g.endPass s } else b

/-- A beat of bit-serial mode. Log 93 (DEDUCED). -/
def Module.serialBeat (m : Module) (stop : Nat) (b : Beat) (t : Tile) : Beat :=
  let b := m.settleLanes t stop (b.g.d.m + 8) b
  if b.g.lanes.any (·.started) then
    let b := (List.range b.g.d.problems).foldl (m.serialProblem t) b
    let b := { b with g := { b.g with lanes := b.g.lanes.map Lane.after }, beats := b.beats + 1 }
    (m.settleLanes t stop (b.g.d.m + 8) b).closeSerial t.pass
  else b.closeSerial t.pass

/-- One beat of the pass in the active copies; rows from `stop` on must wait for their readout (R135). -/
def Module.beat (m : Module) (tab : List (Int × Int)) (stop : Nat) (b : Beat) : Beat :=
  match b.g.act with
  | none => b
  | some t =>
    if b.g.d.mode = .serial then m.serialBeat stop b t
    else if stop ≤ b.g.row then b
    else m.plainBeat tab b t

/-- The front switches a tile in (R132). -/
def GroupRun.switch (g : GroupRun) (t : Tile) : GroupRun :=
  { g with act := some t, pend := none, row := 0, beat := 0,
           lanes := if g.d.mode = .serial then List.replicate g.d.laneCount ⟨0, [], false⟩ else [] }

/-- Rows of the bank that a first pass discards (R99): all but those a readout has still to take. -/
def discard (rds : List Readout) (bank : Tab Nat AccEntry) : Tab Nat AccEntry :=
  bank.filter (fun e => rds.any (fun r => !r.zero && decide (r.row ≤ keyRow e.1)))

/-! ## Readout (R110, R111, R145 to R147, R533) -/

/-- What an entry enters Table 3-2 as. -/
def entryIn (d : PassDesc) (e : AccEntry) : CIn :=
  match e.special with
  | .nan => .val .nan
  | .inf n => .val (.inf n)
  | .none =>
    if e.xp && e.xn then .val .nan
    else if e.xp then .past false
    else if e.xn then .past true
    else match d.mode with
      | .log => (match e.log with | .zero => .val Val.zero | .val n l => .val (fp32OfLog n l))
      | .ext => .val e.ext.val
      | .serial => if isExt d.fb then .val e.ext.val else .val (.fin (decide (e.fixed < 0)) (Mag.dyadic e.fixed.natAbs d.frameQ.q))
      | .fixed => .val (.fin (decide (e.fixed < 0)) (Mag.dyadic e.fixed.natAbs d.frameQ.q))

/-- The generator's unit code and the lane of a column (R69, R111, R244). Log 94 (DEDUCED). -/
def PassDesc.genUnit (d : PassDesc) : Nat := 0x20 + d.logical
/-- Log 94 (DEDUCED). -/
def PassDesc.lane (d : PassDesc) (p nn : Nat) : Nat := nn + d.probCols * (p % (128 / d.w))

/-- The elements of one output row of a tile. Log 94 (DEDUCED). -/
def Ctl.readElems (c : Ctl) (d : PassDesc) (rd : Readout) (bank : Tab Nat AccEntry) : List CElem :=
  ((List.range d.problems).map (fun p =>
    (List.range (d.tileCols rd.tile)).map (fun nn =>
      let o := d.m0 + p * d.m + rd.row
      let n := d.n0 + rd.tile * d.shape.nc + nn
      let q := d.tc.at o n
      let e := if rd.zero then accClear d.op else Tab.get (accClear d.op) bank (bankKey p rd.row nn)
      { row := q.1, col := q.2, x := entryIn d e, part := true, fill := false,
        slice := c.slice d.die d.genUnit d.cvt rd.base (d.lane p nn) (p / (128 / d.w) * d.m + rd.row),
        run := o * 2 ^ 32 + n / 32 : CElem }))).flatten

/-- The `n` outliers of largest |q| among candidates (position in the block, sign, |q|), the lower position first among equals (R146). -/
def topOutliers : Nat → List (Nat × Bool × Mag) → List (Nat × Bool × Mag)
  | 0, _ => []
  | n + 1, l =>
    match l.foldl (fun (b : Option (Nat × Bool × Mag)) x => match b with
        | none => some x
        | some y => if y.2.2.lt x.2.2 || (y.2.2.eq x.2.2 && decide (x.1 < y.1)) then some x else some y) none with
    | none => []
    | some x => x :: topOutliers n (l.filter (fun y => y.1 != x.1))

/-- A side record (Table 5-10) from its entries in ascending position and its SUMP bit. -/
def sideRecord (l : List (Nat × Nat)) (sump : Bool) : List Nat :=
  let pos := l.zipIdx.foldl (fun v x => v + x.1.1 * 2 ^ (8 + 5 * x.2)) 0
  le 4 (l.length + 8 * b2n sump + pos) ++ (List.range 4).map (fun i => (l.getD i (0, 0)).2)

/-- Insert by position. -/
def insertPos (x : Nat × Nat) : List (Nat × Nat) → List (Nat × Nat)
  | [] => [x]
  | y :: t => if x.1 < y.1 then x :: y :: t else y :: insertPos x t

/-- The output row and column of a place of C. -/
def PassDesc.outPos (d : PassDesc) (row col : Nat) : Nat × Nat := if d.tc.innerRows then (col, row) else (row, col)

/-- The side block of an output: row and block. -/
def PassDesc.sideKey (d : PassDesc) (row col : Nat) : Nat × Nat := ((d.outPos row col).1, (d.outPos row col).2 / 32)

/-- The n-tile of an output column. -/
def PassDesc.tileOf (d : PassDesc) (n : Nat) : Nat := (n - d.n0) / d.shape.nc

/-- Is side block `b` complete with the readout of a tile: does the tile hold the last column the group writes in it? -/
def PassDesc.blockDone (d : PassDesc) (tile b : Nat) : Bool :=
  decide (min (32 * b + 32) (d.n0 + d.n) ≤ d.n0 + min d.n ((tile + 1) * d.shape.nc))

/-- What a side block's completion gives: the record, the side values' events, and the elements that take the side lane. -/
structure SideBlock where
  key : Nat × Nat
  bytes : List Nat
  ev : List Nat
  lane : List Nat
deriving DecidableEq, Repr

/-- A side block from its candidates and the entries that stay from other n-tiles where one tile is run again (R146). -/
def sideBlock (key : Nat × Nat) (kept : List (Nat × Nat)) (sump : Bool) (cand : List (Nat × Bool × Mag)) : SideBlock :=
  let top := topOutliers (4 - kept.length) cand
  let vals := top.map (fun x => (x.1, roundFinite .f8a .rn false 0 0 x.2.1 x.2.2))
  { key := key, bytes := sideRecord ((vals.map (fun v => (v.1, v.2.code))).foldl (fun a x => insertPos x a) kept)
      (sump || decide (top.length < cand.length)),
    ev := (vals.map (fun v => v.2.events.map CvtEvent.idx)).flatten, lane := top.map (·.1) }

/-- An element past range as it is written: +0 where it takes the side lane, else the largest finite of its sign, by the Sump. -/
def PassDesc.outlierCode (d : PassDesc) (inLane neg : Bool) : Nat × List Nat :=
  if inLane then (zeroCode d.cvt.fmt false, []) else ((overflowCode d.cvt.fmt false neg).code, [10])

/-- One row's readout: its result, the elements of earlier n-tiles whose side blocks it completes, each with its n-tile and events,
the side bytes to write, events of the side values, the elements held for a later n-tile, and its captures. -/
structure RowOut where
  res : CRes
  late : List (Out × Nat × List Nat)
  side : List Out
  ev : List Nat
  keep : List HeldOut
  caps : List (Nat × Nat)
deriving DecidableEq, Repr

/-- The entries and the `SUMP` bit of a side record that stand for columns outside an n-tile. -/
def Module.sideKept (m : Module) (d : PassDesc) (tile : Nat) (key : Nat × Nat) : List (Nat × Nat) × Bool :=
  let v := unle ((List.range 8).map (fun i => m.elemCode d.die d.tsout key.1 (8 * key.2 + i)))
  let all := (List.range (v % 8)).map (fun e => (bitsOf v (8 + 5 * e) 5, bitsOf v (32 + 8 * e) 8))
  let others := (List.range 32).any (fun i =>
    decide (d.n0 ≤ 32 * key.2 + i) && decide (32 * key.2 + i < d.n0 + d.n) && d.tileOf (32 * key.2 + i) != tile)
  (all.filter (fun e => d.tileOf (32 * key.2 + e.1) != tile), others && bit v 3)

/-- The outliers of a converted row (R145, R146). A side block that meets several n-tiles is completed by the last of them; with
`again` one tile is run again, and the entries of the others stay. Log 156 (DEDUCED). -/
def Module.outliers (m : Module) (d : PassDesc) (tile : Nat) (again : Bool) (held : List HeldOut) (r : CRes) : RowOut :=
  let l := r.outs
  let keys := (l.map (fun x => d.sideKey x.1.row x.1.col)).eraseDups
  let ready (k : Nat × Nat) : Bool := keys.contains k && (again || d.blockDone tile k.2)
  let new := l.filterMap (fun x => x.2.q.map (fun q => (⟨x.1.row, x.1.col, q.1, q.2⟩ : HeldOut)))
  let pos (h : HeldOut) : Nat := (d.outPos h.row h.col).2 % 32
  let blk := (keys.filter ready).map (fun k =>
    let kept := if again then m.sideKept d tile k else ([], false)
    sideBlock k kept.1 kept.2 (((held ++ new).filter (fun h => d.sideKey h.row h.col == k)).map (fun h => (pos h, h.neg, h.mag))))
  let lane (h : HeldOut) : Bool := blk.any (fun b => b.key == d.sideKey h.row h.col && b.lane.contains (pos h))
  let fix (x : CElem × COut) : Option (CElem × COut) :=
    match x.2.q with
    | none => some x
    | some q =>
      if ready (d.sideKey x.1.row x.1.col) then
        let w := d.outlierCode (lane ⟨x.1.row, x.1.col, q.1, q.2⟩) q.1
        some (x.1, { x.2 with code := w.1, ev := w.2 })
      else none
  { res := { r with outs := l.filterMap fix }
    late := (held.filter (fun h => ready (d.sideKey h.row h.col))).map (fun h =>
      let w := d.outlierCode (lane h) h.neg
      (⟨h.row, h.col, w.1⟩, d.tileOf (d.outPos h.row h.col).2, w.2))
    side := (blk.map (fun b => b.bytes.zipIdx.map (fun x => (⟨b.key.1, 8 * b.key.2 + x.2, x.1⟩ : Out)))).flatten
    ev := (blk.map (·.ev)).flatten
    keep := (held ++ new).filter (fun h => !ready (d.sideKey h.row h.col))
    caps := r.caps (some d.tc) }

/-- Convert one output row. An output block that two n-tiles meet is converted by each: the readout of each n-tile is one conversion
(R111), so that under BLOCK_FIT the later tile's scale byte stands. Log 157 (DEDUCED). -/
def Module.readRow (m : Module) (d : PassDesc) (rd : Readout) (bank : Tab Nat AccEntry) (held : List HeldOut) (again : Bool) : RowOut :=
  let r := m.convert d.cvt (some d.tc) (m.ctl.readElems d rd bank)
  if d.outx then m.outliers d rd.tile again held r
  else ⟨r, [], [], [], [], r.caps (some d.tc)⟩

/-- Every element of C that a row writes. -/
def RowOut.writes (r : RowOut) : List Out := r.res.writes ++ r.late.map (·.1)

/-- Everything a row raises. -/
def RowOut.events (r : RowOut) : List Nat := r.res.events ++ (r.late.map (·.2.2)).flatten ++ r.ev

/-- The line that a row's readout must wait for: its elements, scales and side records go through one pool (R306). -/
def Ctl.rowStall (c : Ctl) (d : PassDesc) (r : RowOut) : Option Nat :=
  c.cowBlock (putSpans d.tc r.writes r.res.scales ++ putSpans d.tsout r.side [])

/-- Are the slots it writes free? -/
def Ctl.rowFree (c : Ctl) (d : PassDesc) (r : RowOut) : Bool :=
  (r.writes.all (fun o => c.mayWrite d.die d.tc o.row)) && r.side.all (fun o => c.mayWrite d.die d.tsout o.row)

/-- Write a row. -/
def Module.writeRow (m : Module) (d : PassDesc) (r : RowOut) : Module :=
  ((m.put d.die d.tc r.writes).putScales d.die d.phys r.res.scales).put d.die d.tsout r.side

/-- The columns of C that are whole with the last row of a tile: the tile's, or with side records those of the blocks it completes. -/
def PassDesc.colsWhole (d : PassDesc) (tile : Nat) : List Nat :=
  ((List.range d.n).map (d.n0 + ·)).filter (fun n =>
    if d.outx then d.blockDone tile (n / 32) && decide ((d.n0 + tile * d.shape.nc) / 32 ≤ n / 32) else d.tileOf n == tile)

/-- The rows of C's table that are whole once a row of a tile is written: with its last n-tile that row, with `INNER_ROWS` = 1 the
columns that are whole then. -/
def PassDesc.rowsWhole (d : PassDesc) (tile row : Nat) (r : RowOut) : List Nat :=
  if d.tc.innerRows then (if row + 1 < d.m then [] else d.colsWhole tile)
  else if tile + 1 < d.tiles then [] else dedup (r.writes.map (·.row))

/-- The slots of rows that are whole become full (R192). -/
def Ctl.rowWrote (c : Ctl) (d : PassDesc) (tile row : Nat) (r : RowOut) : Ctl :=
  let c := c.each (d.rowsWhole tile row r) (fun c x => c.wrote d.die d.tc x)
  if tile + 1 < d.tiles then c else c.each (dedup (r.side.map (·.row))) (fun c x => c.wrote d.die d.tsout x)

end Sys2Proof.Machine
end

