-- ==== Sys2Proof/Machine/Array.lean ====
section
/-! DEFINITION. The array's commands: expansion, issue, load beats, beats and readout rows of the pass groups it has accepted
(R99, R119 to R121, R131 to R135, R144, R151, R152, R248). -/

namespace Sys2Proof.Machine

/-! ## The array and its groups -/

def Ctl.arr (c : Ctl) (die p : Nat) : ArraySt := Tab.get ArraySt.reset (c.die die).arrays p

def Ctl.onArr (c : Ctl) (die p : Nat) (f : ArraySt → ArraySt) : Ctl :=
  c.onDie die (fun d => { d with arrays := d.arrays.upd ArraySt.reset p f })

/-- The instance of an array's status block. -/
def maInst (die p : Nat) : Nat := 96 * die + p

/-- Of the two groups an array has accepted: the running one, or the next. -/
def ArraySt.grp (a : ArraySt) (isRun : Bool) : Option GroupRun := if isRun then a.run else a.next

def ArraySt.setGrp (a : ArraySt) (isRun : Bool) (g : GroupRun) : ArraySt :=
  if isRun then { a with run := some g } else { a with next := some g }

def Ctl.setGrp (c : Ctl) (die p : Nat) (isRun : Bool) (g : GroupRun) : Ctl := c.onArr die p (·.setGrp isRun g)

/-- Flagged tiles of a group may be recomputed (R167). Log 92 (DEDUCED). -/
def PassDesc.recomputable (d : PassDesc) : Bool := d.steered && !d.accInit && d.accOut

/-- A group that has no pass left to issue, load or run. -/
def GroupRun.beatsDone (g : GroupRun) : Bool := g.expanded && g.todo.isEmpty && g.pend.isNone && g.act.isNone

/-- A group that has nothing left to do. -/
def GroupRun.done (g : GroupRun) : Bool := g.beatsDone && g.readouts.isEmpty

/-! ## What beats raise -/

/-- The counters of the array's own block (Tables 4-11, 5-13). -/
def Ctl.maCount (c : Ctl) (die p : Nat) (ev : List Nat) : Ctl :=
  c.each ev (fun c i =>
    match i with
    | 6 => c.bump Fld.ma_XOVF_CNT_COUNT (maInst die p)
    | 7 => c.bump Fld.ma_XUNF_CNT_COUNT (maInst die p)
    | 8 => c.bump Fld.ma_ACC_SAT_CNT_COUNT (maInst die p)
    | 9 => c.bump Fld.ma_ACC_FRAME_CNT_COUNT (maInst die p)
    | 10 => c.bump Fld.ma_SUMP_CNT_COUNT (maInst die p)
    | 11 => c.bump Fld.ma_META_INV_CNT_COUNT (maInst die p)
    | 12 => c.bump Fld.ma_SIDE_INV_CNT_COUNT (maInst die p)
    | _ => c)

/-- The bits of `MXSTAT` that events set (Table 5-12). -/
def mxBits (ev : List Nat) (sn : Seen) : List Nat :=
  (if ev.contains 6 then [0] else []) ++ (if ev.contains 7 then [1] else []) ++ (if ev.contains 8 then [2] else [])
    ++ (if ev.contains 10 then [3] else []) ++ (if ev.contains 11 then [4] else []) ++ (if ev.contains 12 then [5] else [])
    ++ (if sn.block = 0 then [] else [6]) ++ (if sn.code = 0 then [] else [7])

/-- Does an event flag its n-tile (R167)? -/
def flagsTile (ev : List Nat) : Bool := ev.contains 6 || ev.contains 8 || ev.contains 10

def MxStat.note (s : MxStat) (tile : Nat) (ev : List Nat) (sn : Seen) : MxStat :=
  { s with bits := (mxBits ev sn).foldl (fun v b => setBit v b true) s.bits
           flags := if flagsTile ev then addNew s.flags tile else s.flags
           why := s.why ++ (if ev.contains 6 || ev.contains 8 then [(tile, false)] else []) ++ (if ev.contains 10 then [(tile, true)] else []) }

/-- Table 5-12. -/
def MxStat.word (s : MxStat) : Nat :=
  let tf := s.flags.foldl (fun v j => setBit v (min j 31) true) 0
  s.bits + 2 ^ 16 * min s.skipped 65535 + 2 ^ 32 * tf

/-- Array events that are not a conversion's: counted in the unit counters, the array's block and the layer (R120, R154). -/
def Ctl.arrEvents (c : Ctl) (d : PassDesc) (epoch : Nat) (ev : List Nat) (sn : Seen) : Ctl :=
  let c := ((c.saw d.die d.phys sn).countAll d.die d.phys ev).maCount d.die d.phys ev
  if ovfCount ev + unfCount ev = 0 then c
  else c.roleMerge d.die epoch d.layer d.role { RoleStat.reset with ovf := ovfCount ev, unf := unfCount ev }

/-! ## The frame (R99) -/

/-- `ACC_KIND` of a group. -/
def PassDesc.kind (d : PassDesc) : Nat :=
  match d.mode with | .log => 3 | .ext => 2 | .serial => if isExt d.fb then 2 else 1 | .fixed => 1

/-- The bank's frame registers take a group's frame. -/
def Ctl.setFrame (c : Ctl) (d : PassDesc) : Ctl :=
  let i := maInst d.die d.phys
  let c := ((c.wr Fld.ma_MA_STATE_ACC_KIND d.kind i).wr Fld.ma_MA_STATE_FRAME_XBASE (tcode 8 d.xbase) i).wr
    Fld.ma_MA_STATE_FRAME_FMT_A d.ta.fmt i
  ((c.wr Fld.ma_MA_STATE_FRAME_FMT_B d.tb.fmt i).wr Fld.ma_MA_STATE_FRAME_OP d.op i).wrB Fld.ma_MA_STATE_FRAME_SIDE d.sideEn i

/-- Does the bank hold sums of a group's frame? `XBASE` takes part for every operation, a distance pass's too, which does not read it
(R136): the frame of R99 names it without exception. Log 90 (DEDUCED). Log 160 (DEDUCED). -/
def Ctl.sameFrame (c : Ctl) (d : PassDesc) : Bool :=
  let i := maInst d.die d.phys
  c.rd Fld.ma_MA_STATE_ACC_KIND i == d.kind && c.rd Fld.ma_MA_STATE_FRAME_XBASE i == tcode 8 d.xbase
    && c.rd Fld.ma_MA_STATE_FRAME_FMT_A i == d.ta.fmt && c.rd Fld.ma_MA_STATE_FRAME_FMT_B i == d.tb.fmt
    && c.rd Fld.ma_MA_STATE_FRAME_OP i == d.op && c.on Fld.ma_MA_STATE_FRAME_SIDE i == d.sideEn

/-- Readouts that a later pass follows on the bank (R119). -/
def GroupRun.followed (g : GroupRun) : GroupRun := { g with readouts := g.readouts.map (fun r => { r with more := true }) }
def ArraySt.followed (a : ArraySt) : ArraySt := { a with run := a.run.map GroupRun.followed, next := a.next.map GroupRun.followed }

/-- Readouts whose sums a later tile discards; one that reads +0 has none. -/
def GroupRun.staleReads (g : GroupRun) : GroupRun :=
  { g with readouts := g.readouts.map (fun r => if r.zero then r else { r with stale := true }) }

/-- The readouts of an array that have still to take rows. -/
def ArraySt.reads (a : ArraySt) : List Readout :=
  (match a.run with | some g => g.readouts | none => []) ++ (match a.next with | some g => g.readouts | none => [])

/-- R99: held sums are discarded. Log 90 (DEDUCED). -/
def ArraySt.discardSums (a : ArraySt) : ArraySt :=
  { bank := discard a.reads a.bank, run := a.run.map GroupRun.staleReads, next := a.next.map GroupRun.staleReads }

/-- A group stops with ACC_FRAME: nothing of it executes (R99, R134). Log 90 (DEDUCED). -/
def Ctl.frameError (c : Ctl) (die p : Nat) (isRun : Bool) (g : GroupRun) : Ctl :=
  (c.setGrp die p isRun { g with todo := [], pend := none, accFrame := true }).arrEvents g.d g.epoch [9] Seen.none

/-! ## ARRAY_PASS_GROUP: expansion -/

/-- The passes of one n-tile. -/
def Module.tilePasses (m : Module) (d : PassDesc) (j : Nat) : List Pass :=
  let is := (List.range d.chunks).filter (m.issues d j)
  (List.range d.chunks).map (fun i =>
    { tile := j, chunk := i, skip := !is.contains i, first := is.head? == some i,
      last := if is.isEmpty then i + 1 == d.chunks else is.getLast? == some i : Pass })

/-- R121, R144. -/
def Module.expand (m : Module) (d : PassDesc) : List Pass := ((List.range d.tiles).map (m.tilePasses d)).flatten

/-- What reading the bitmap raises. -/
def Module.mapSeen (m : Module) (d : PassDesc) : Seen :=
  if !d.bskip then Seen.none
  else
    let is := ((d.grid.map (fun g => (List.range d.problems).map (fun p => d.mapBits p g.1 g.2))).flatten).flatten
    m.seenAt d.die d.tmap (.all 0xFF) ((dedup (is.map (· / 8))).map (fun f => (f / d.tmap.cols, f % d.tmap.cols)))

/-- The group that waits for its expansion. -/
def ArraySt.unexpanded (a : ArraySt) : Option (Bool × GroupRun) :=
  match a.run, a.next with
  | some g, n =>
    if !g.expanded then some (true, g)
    else match n with
      | some x => if !x.expanded then some (false, x) else none
      | none => none
  | none, _ => none

def Module.expandGroup (m : Module) (die p : Nat) (isRun : Bool) (g : GroupRun) : Module :=
  let sn := m.mapSeen g.d
  m.onCtl (fun c => (c.saw die p sn).setGrp die p isRun
    { g with expanded := true, todo := m.expand g.d, stat := g.stat.note 0 [] sn })

def execArrayPassGroup (die array : Nat) (s : State) : Host.Outcome State Fault Refusal :=
  match s.m.ctl.dieUp die, (s.m.ctl.arr die array).unexpanded with
  | true, some (r, g) => .next (s.onM (·.expandGroup die array r g))
  | _, _ => .next s

/-! ## Recompute work that is due (R167, R248) -/

/-- The flagged tiles of a group, in ascending order. -/
def GroupRun.flagged (g : GroupRun) : List Nat := (List.range g.d.tiles).filter (g.stat.flags.contains ·)

/-- Recompute work begins: the flagged tiles. -/
def GroupRun.recompStart (g : GroupRun) : Recomp :=
  ⟨if g.d.recomputable && !g.accFrame then g.flagged else [], 1, false, false, 0, 0⟩

/-- The recompute work of a descriptor as it stands. -/
def Desc.recompOf (x : Desc) (g : GroupRun) : Recomp := x.recomp.getD g.recompStart

/-- Has the running group, its own run done, attempts left to make? Until the last of them the next group's tile is not issued, nor
loaded (R248). -/
def Ctl.attemptsDue (c : Ctl) (die p : Nat) : Bool :=
  match (c.arr die p).run with
  | some g => g.done && (match c.desc die g.queue g.seq with | some x => !(x.recompOf g).tiles.isEmpty | none => false)
  | none => false

/-! ## PASS_ISSUE -/

/-- Does a skipped pass close an n-tile of which none is issued? It acts on the bank, so it waits for every earlier pass (R144). -/
def Pass.closes (s : Pass) : Bool := s.skip && s.last

/-- R131: the group whose next pass may be issued: the running one while it has passes, then the next. -/
def ArraySt.toIssue (a : ArraySt) : Option (Bool × GroupRun) :=
  match a.run with
  | none => none
  | some g =>
    if g.pend.isSome || !g.expanded then none
    else match g.todo with
      | s :: _ => if s.closes && g.act.isSome then none else some (true, g)
      | [] => (match a.next with
        | some x =>
          (match x.todo with
            | s :: _ => if x.expanded && x.pend.isNone && !(s.closes && (g.act.isSome || g.d.recomputable || x.act.isSome)) then some (false, x)
              else none
            | [] => none)
        | none => none)

/-- R144: the last skipped pass of a tile of which none is issued. Log 91 (DEDUCED). -/
def Ctl.skipTile (c : Ctl) (die p : Nat) (isRun : Bool) (g : GroupRun) (s : Pass) : Ctl :=
  let rd (z : Bool) : Readout := ⟨s.tile, 0, 0, false, z, false, false⟩
  if g.d.accInit then
    if c.rd Fld.ma_MA_STATE_ACC_KIND (maInst die p) != 0 && !c.sameFrame g.d then c.frameError die p isRun g
    else if g.d.accOut then c.setGrp die p isRun { g with readouts := g.readouts ++ [rd false] } else c
  else
    let unread := (c.arr die p).reads.any (fun r => !r.zero)
    let c := ((c.onArr die p ArraySt.discardSums).wr Fld.ma_MA_STATE_ACC_KIND 0 (maInst die p)).wrB Fld.ma_MA_STATE_ACC_HELD unread
      (maInst die p)
    match (c.arr die p).grp isRun with
    | some x => if x.d.accOut then c.setGrp die p isRun { x with readouts := x.readouts ++ [rd true] } else c
    | none => c

/-- A pass is skipped. Log 91 (DEDUCED). -/
def Ctl.skipPass (c : Ctl) (die p : Nat) (isRun : Bool) (g : GroupRun) (s : Pass) : Ctl :=
  let g := { g with todo := g.todo.drop 1, stat := { g.stat with skipped := g.stat.skipped + 1 } }
  let c := (c.setGrp die p isRun g).add Fld.ma_SKIP_PASSES 1 (maInst die p)
  if s.last then c.skipTile die p isRun g s else c

/-- A pass is issued or skipped. -/
def Ctl.issuePass (c : Ctl) (die p : Nat) (isRun : Bool) (g : GroupRun) : Ctl :=
  match g.todo with
  | [] => c
  | s :: rest =>
    if s.skip then c.skipPass die p isRun g s
    else if s.first && g.d.accInit && !c.sameFrame g.d then c.frameError die p isRun g
    else c.setGrp die p isRun { g with todo := rest, pend := some ⟨s, [], 0⟩, issued := g.issued + 1 }

def execPassIssue (die array : Nat) (s : State) : Host.Outcome State Fault Refusal :=
  match s.m.ctl.dieUp die, (s.m.ctl.arr die array).toIssue with
  | true, some (r, g) =>
    if !r && s.m.ctl.attemptsDue die array then .next s else .next (s.onM (·.onCtl (·.issuePass die array r g)))
  | _, _ => .next s

/-! ## LOAD_BEAT -/

/-- The group whose pending tile is being loaded. -/
def ArraySt.toLoad (a : ArraySt) : Option (Bool × GroupRun × Tile) :=
  let of (r : Bool) : Option (Bool × GroupRun × Tile) :=
    match a.grp r with
    | some g => (match g.pend with | some t => if t.lines < g.d.shape.l then some (r, g, t) else none | none => none)
    | none => none
  match of true with
  | some x => some x
  | none => of false

/-- May the rows of a stationary tile buffer that a line needs be read (R192)? -/
def Module.lineReady (m : Module) (d : PassDesc) (t : Tile) : Bool :=
  !d.tb.inTb || (d.lineCells t.lines).all (fun x =>
    !m.holds d t.pass x || m.ctl.tbFull d.die d.tb (d.tb.at (d.cellCol t.pass x) (d.cellPos t.pass x)).1)

/-- The rows of the stationary tensor that a pass reads. -/
def PassDesc.bRows (d : PassDesc) (s : Pass) : List Nat :=
  if d.tb.innerRows then (List.range (d.stored (d.kRange s.chunk).2 - d.storedBase s.chunk)).map (d.storedBase s.chunk + ·)
  else ((List.range d.problems).map (fun p =>
    (List.range ((d.nRange p s.tile).2 - (d.nRange p s.tile).1)).map ((d.nRange p s.tile).1 + ·))).flatten

/-- The rows of a stationary tile buffer that a loaded pass has used for the last time: no pass still to be issued reads them. -/
def GroupRun.rowsTaken (g : GroupRun) (s : Pass) : List Nat :=
  if !g.d.tb.inTb then []
  else (g.d.bRows s).filter (fun r => g.todo.all (fun x => x.skip || !(g.d.bRows x).contains r))

/-- A load beat. -/
def Module.loadBeat (m : Module) (die p : Nat) (isRun : Bool) (g : GroupRun) (t : Tile) : Module :=
  let r := m.loadLine g.d t.pass t.lines
  let t' : Tile := { t with elems := t.elems ++ r.1, lines := t.lines + 1 }
  m.onCtl (fun c =>
    let c := c.setGrp die p isRun { g with pend := some t', stat := g.stat.note t.pass.tile r.2.2 r.2.1 }
    let c := c.arrEvents g.d g.epoch r.2.2 r.2.1
    if t'.lines = g.d.shape.l then c.each (g.rowsTaken t.pass) (fun c x => c.took die g.d.tb x) else c)

def execLoadBeat (die array : Nat) (errs : Errs) (s : State) : Host.Outcome State Fault Refusal :=
  match s.m.ctl.dieUp die, (s.m.ctl.arr die array).toLoad with
  | true, some (r, g, t) =>
    if s.m.lineReady g.d t && (r || !s.m.ctl.attemptsDue die array) then .next (s.onM (fun m => (m.onCtl (·.memErrs errs)).loadBeat die array r g t)) else .next s
  | _, _ => .next s

/-! ## ARRAY_BEAT -/

/-- A tile whose last line is written (R132, event 2). -/
def GroupRun.ready (g : GroupRun) : Option Tile :=
  match g.pend with
  | some t => if t.lines = g.d.shape.l then some t else none
  | none => none

/-- The group whose beat is next: the running one until its last pass is done; then the next, unless the running one may still be
recomputed (R248). Log 92 (DEDUCED). -/
def ArraySt.toBeat (a : ArraySt) : Option (Bool × GroupRun) :=
  match a.run with
  | none => none
  | some g =>
    if g.act.isSome || g.ready.isSome then some (true, g)
    else if !g.beatsDone || g.d.recomputable then none
    else match a.next with
      | some x => if x.act.isSome || x.ready.isSome then some (false, x) else none
      | none => none

/-- The front switches the pending tile in; the first pass of a tile that opens its bank discards held sums (R99, R132). -/
def Ctl.frontSwitch (c : Ctl) (die p : Nat) (isRun : Bool) (g : GroupRun) : Ctl :=
  match g.act, g.ready with
  | none, some t =>
    let c := (c.setGrp die p isRun (g.switch t)).onArr die p ArraySt.followed
    let c := c.wr Fld.ma_MA_STATE_BUSY 1 (maInst die p)
    if t.pass.first && !g.d.accInit then
      ((c.onArr die p ArraySt.discardSums).setFrame g.d).wr Fld.ma_MA_STATE_ACC_HELD 1 (maInst die p)
    else c.wr Fld.ma_MA_STATE_ACC_HELD 1 (maInst die p)
  | _, _ => c

/-- The correction table as the die holds it. -/
def Ctl.logTab (c : Ctl) (die : Nat) : List (Int × Int) := (c.die die).corrections

/-- R135: the first row whose readout is still to come. Log 92 (DEDUCED). -/
def ArraySt.stopRow (a : ArraySt) : Nat := (a.reads.filter (fun r => !r.zero)).foldl (fun n r => min n r.row) 65536

/-- The first row a pass must not yet touch: its readout is still to come (R135), or in bit-serial mode its slot is not full. Log 92 (DEDUCED). -/
def Ctl.stopAt (c : Ctl) (a : ArraySt) (g : GroupRun) (t : Tile) : Nat :=
  if g.d.mode = .serial && g.d.ta.inTb then
    min a.stopRow (((List.range g.d.m).find? (fun r => !c.aReady g.d r t.pass.chunk)).getD 65536)
  else a.stopRow

/-- Is a pass the last one issued that reads the broadcast rows it reads: with `INNER_ROWS` the rows of its k-chunk, else all? -/
def GroupRun.lastReader (g : GroupRun) (s : Pass) : Bool :=
  ((match g.pend with | some t => [t.pass] | none => []) ++ g.todo).all (fun x => x.skip || (g.d.ta.innerRows && x.chunk != s.chunk))

/-- The rows of a broadcast tile buffer that a pass has read for the last time: the row in hand, or at the pass's end all it read, in
bit-serial mode and where rows are inner positions (R192). -/
def Ctl.aTaken (c : Ctl) (g : GroupRun) (s : Pass) (ended : Bool) : Ctl :=
  let d := g.d
  if !d.ta.inTb || !g.lastReader s then c
  else if d.ta.innerRows then
    (if ended then c.each (List.range ((d.kRange s.chunk).2 - (d.kRange s.chunk).1)) (fun c i => c.took d.die d.ta ((d.kRange s.chunk).1 + i))
      else c)
  else
    let rows := if d.mode = .serial then (if ended then List.range d.m else []) else [g.row]
    c.each (List.range d.problems) (fun c p => c.each rows (fun c r => c.took d.die d.ta (d.m0 + p * d.m + r)))

/-- A beat of the tile in the active copies. -/
def Module.arrayBeat (m : Module) (die p : Nat) (isRun : Bool) (g : GroupRun) (t : Tile) : Module :=
  let a := m.ctl.arr die p
  let b := m.beat (m.ctl.logTab die) (m.ctl.stopAt a g t) ⟨g, a.bank, [], Seen.none, 0, 0⟩
  m.onCtl (fun c =>
    let (st, c) := if g.beats = 0 && b.beats != 0 then c.stamp die else (g.firstBeat, c)
    let g' := { b.g with beats := g.beats + b.beats, firstBeat := st, stat := b.g.stat.note t.pass.tile b.ev b.seen }
    let c := (c.onArr die p (fun a => { a with bank := b.bank })).setGrp die p isRun g'
    let c := (c.add Fld.ma_BEAT_BEATS b.beats (maInst die p)).add Fld.ma_ZSKIP_SKIPPED b.saved (maInst die p)
    let c := c.arrEvents g.d g.epoch b.ev b.seen
    let c := if g'.row != g.row || g'.act.isNone then c.aTaken g t.pass g'.act.isNone else c
    if g'.act.isNone then c.wr Fld.ma_MA_STATE_BUSY 0 (maInst die p) else c)

/-- May the beat run: its broadcast rows are ready at the feeder (R92, R192)? -/
def Module.feederReady (m : Module) (g : GroupRun) (t : Tile) : Bool :=
  g.d.mode == .serial || m.ctl.aReady g.d g.row t.pass.chunk

/-- The switch, where it is due, and a beat. -/
def Module.beatOf (m : Module) (die p : Nat) (isRun : Bool) (g : GroupRun) : Module :=
  let m := m.onCtl (·.frontSwitch die p isRun g)
  match (m.ctl.arr die p).grp isRun with
  | some g => (match g.act with
    | some t => if m.feederReady g t then m.arrayBeat die p isRun g t else m
    | none => m)
  | none => m

def execArrayBeat (die array : Nat) (errs : Errs) (s : State) : Host.Outcome State Fault Refusal :=
  match s.m.ctl.dieUp die, (s.m.ctl.arr die array).toBeat with
  | true, some (r, g) => .next (s.onM (fun m => (m.onCtl (·.memErrs errs)).beatOf die array r g))
  | _, _ => .next s

/-! ## READOUT_ROW -/

/-- The readout whose row is next: the oldest of the running group, else of the next. -/
def ArraySt.toRead (a : ArraySt) : Option (Bool × GroupRun × Readout) :=
  let of (r : Bool) : Option (Bool × GroupRun × Readout) :=
    match a.grp r with
    | some g => (match g.readouts with | x :: _ => some (r, g, x) | [] => none)
    | none => none
  match of true with
  | some x => some x
  | none => of false

/-- Does a running descriptor still owe a request for a window: a chain that has not begun, a group with n-tiles whose readout has not
begun, a combine that has not formed its sums? -/
def Ctl.owesWindow (c : Ctl) (die q : Nat) (x : Desc) : Bool :=
  match x.work with
  | .pass d =>
    (match ([(c.arr die d.phys).run, (c.arr die d.phys).next].filterMap id).find? (fun g => g.queue == q && g.seq == x.seq) with
      | some g => d.accOut && !g.accFrame && (!g.beatsDone || g.readouts.any (fun r => !r.started))
      | none => false)
  | .chain d => (match (c.vu die d.vu).run with | some r => r.queue == q && r.seq == x.seq && !r.started | none => false)
  | .route r => x.raw.getD 0 0 == 0x33 && r.event != 7
  | _ => false

/-- The tensors of a descriptor: what it reads, what it writes. -/
def Work.uses : Work → List Tensor × List Tensor
  | .pass d => ([d.ta, d.tb], [d.tc])
  | .chain d => ([d.ta] ++ (if d.bEn then [d.tb] else []) ++ (if d.maskEn then [d.tmask] else []), if d.dstVreg then [] else [d.td])
  | .route r => (match r.op with | .move d => (d.tens.map (·.2), [d.rows]) | _ => ([], []))
  | _ => ([], [])

/-- Do two tensors lie in one tile buffer? -/
def Tensor.sameTb (a b : Tensor) : Bool := a.inTb && b.inTb && a.tb == b.tb && a.tbVu == b.tbVu

/-- Do two descriptors pass rows to each other through a tile buffer? -/
def Work.linked (a b : Work) : Bool := a.uses.2.any (fun t => b.uses.1.any t.sameTb) || b.uses.2.any (fun t => a.uses.1.any t.sameTb)

/-- The conversion that a descriptor asks a window for, by its bytes. -/
def rawWindow (b : List Nat) : Option Cvt :=
  match b.getD 0 0 with
  | 0x10 => if bit (b.getD 9 0) 4 then some (Cvt.ofWord (fieldAt b 48 8)) else none
  | 0x20 => some (Cvt.ofWord (fieldAt b 24 8))
  | 0x33 => some (Cvt.ofWord (fieldAt b 32 8))
  | _ => none

/-- Does a descriptor of these bytes draw from a stream? -/
def drawsFrom (b : List Nat) (stream : Nat) : Bool := (rawWindow b).any (fun cv => cv.mode.isSr && cv.stream == stream)

/-- Does a descriptor that has been fetched hold back a request by `x` for a window of a stream? -/
def Ctl.holdsWindow (c : Ctl) (die q : Nat) (x y : Desc) (stream : Nat) : Bool :=
  decide (y.slot.tick < x.slot.tick) && drawsFrom y.raw stream &&
    (match y.stage with
      | .running => c.owesWindow die q y && !y.work.linked x.work
      | .finish | .done => false
      | _ => true)

/-- R75: a request for a window waits while a descriptor that the same control core issued before still owes one of the same stream,
started or not; but not for a running one with which it passes rows through a tile buffer, where neither could wait for the whole of the
other. Log 161 (DEDUCED). -/
def Module.windowTurn (m : Module) (die q : Nat) (x : Desc) (cv : Cvt) : Bool :=
  let c := m.ctl
  !cv.mode.isSr ||
    !((c.die die).queues.any (fun p => c.coreOf die p.1 == c.coreOf die q &&
      (p.2.live.any (fun y => c.holdsWindow die p.1 x y cv.stream) ||
       p.2.ring.any (fun s => decide (s.tick < x.slot.tick) && drawsFrom (slotBytes (memRead m.mem (descAddr c die s.desc) 64) s) cv.stream))))

/-- May a readout begin, or go on? -/
def Module.readTurn (m : Module) (die : Nat) (g : GroupRun) (rd : Readout) : Bool :=
  rd.started || (match m.ctl.desc die g.queue g.seq with | some x => m.windowTurn die g.queue x g.d.cvt | none => true)

/-- A tile's conversion begins: its capture slot is cleared and it receives its window (R65, R111). -/
def Ctl.beginRead (c : Ctl) (d : PassDesc) (rd : Readout) : Readout × Ctl :=
  if rd.started then (rd, c)
  else
    let w := (c.amaxFirst d.die d.cvt).window d.die d.phys d.cvt (some d.tc.idx) (d.problems * d.m)
    ({ rd with base := w.1, started := true }, w.2)

/-- The readout after a row; a stale row's sums are gone. -/
def Ctl.endRow (c : Ctl) (die p : Nat) (isRun : Bool) (g : GroupRun) (rd : Readout) : Ctl :=
  let last := g.d.m ≤ rd.row + 1
  let g := { g with readouts := if last then g.readouts.drop 1 else { rd with row := rd.row + 1 } :: g.readouts.drop 1 }
  let c := c.setGrp die p isRun g
  let c := if rd.stale then c.onArr die p (fun a => { a with bank := a.bank.filter (fun e => keyRow e.1 != rd.row) }) else c
  if last && !rd.more then c.wr Fld.ma_MA_STATE_ACC_HELD 0 (maInst die p) else c

/-- What a row's conversion counts. -/
def Ctl.rowTally (c : Ctl) (d : PassDesc) (epoch : Nat) (r : RowOut) : Ctl :=
  let c := c.tallyWith d.die d.phys epoch d.layer d.role d.cvt r.res r.caps r.caps
  (c.maCount d.die d.phys r.res.events).arrEvents d epoch ((r.late.map (·.2.2)).flatten ++ r.ev) Seen.none

/-- What a row adds to `MXSTAT`: an element of an earlier n-tile flags its own tile. -/
def MxStat.noteRow (s : MxStat) (tile : Nat) (r : RowOut) : MxStat :=
  r.late.foldl (fun s x => s.note x.2.1 x.2.2 Seen.none) (s.note tile (r.res.events ++ r.ev) r.res.seen)

/-- One row: converted, written and counted, or held back by its destination. -/
def Module.readoutRow (m : Module) (die p : Nat) (isRun : Bool) (g : GroupRun) (rd : Readout) : Module :=
  let b := m.ctl.beginRead g.d rd
  let m := { m with ctl := b.2 }
  let m := m.onCtl (·.setGrp die p isRun { g with readouts := b.1 :: g.readouts.drop 1 })
  let r := m.readRow g.d b.1 (m.ctl.arr die p).bank g.side false
  if !m.ctl.rowFree g.d r then m
  else match m.ctl.rowStall g.d r with
    | some l => m.onCtl (·.cowStall die g.queue g.seq l)
    | none =>
      let m := m.writeRow g.d r
      m.onCtl (fun c =>
        let c := (c.rowTally g.d g.epoch r).rowWrote g.d b.1.tile b.1.row r
        c.endRow die p isRun { g with readouts := b.1 :: g.readouts.drop 1, side := r.keep,
                                      stat := g.stat.noteRow b.1.tile r } b.1)

def execReadoutRow (die array : Nat) (s : State) : Host.Outcome State Fault Refusal :=
  match s.m.ctl.dieUp die, (s.m.ctl.arr die array).toRead with
  | true, some (r, g, rd) =>
    if s.m.ctl.cowWaits die g.queue g.seq || !s.m.readTurn die g rd then .next s else .next (s.onM (·.readoutRow die array r g rd))
  | _, _ => .next s

end Sys2Proof.Machine
end

