-- ==== Sys2Proof/Machine/Mailbox.lean ====
section
/-! DEFINITION. Mailbox channels: ownership, GO, what hardware ends by itself, and Mersene's responses (R403 to R410). -/

namespace Sys2Proof.Machine

/-! ## Sender stamps (Table 14-9) -/

/-- `KIND`. -/
def portKind : Port → Nat
  | .host _ => 1
  | .sideband => 2
  | .core _ _ => 3
  | .peer _ => 4

/-- The stamp hardware derives from the path a message arrives on (R408). -/
def portStamp : Port → Nat
  | .host sec => 0x5801 + 16 * b2n sec
  | .sideband => 0x5802
  | .core die cc => 3 + 2 ^ 8 * (die % 256) + 2 ^ 16 * (cc % 4)
  | .peer link => 4 + 2 ^ 8 * dieLK (link % 36 / 9) + 2 ^ 18 * (link % 36)

/-- The stamp of a port now: a host's is `SECURE` only where its IDE stream is in its secure state (R408). -/
def Ctl.stampOf (c : Ctl) (p : Port) : Nat :=
  match p with
  | .host sec => portStamp (.host (sec && c.sec.ide != []))
  | p => portStamp p

/-- R405: a write is by the owner when the stamps agree in all but `SECURE`. -/
def stampsAgree (a b : Nat) : Bool := setBit a 4 false == setBit b 4 false

def Ctl.owns (c : Ctl) (p : Port) (ch : Nat) : Bool :=
  c.rd Fld.mb_MB_OWN_OWNER ch != 0 && stampsAgree (c.rd Fld.mb_MB_OWN_OWNER ch) (portStamp p)

/-- R403: may a channel serve senders of a kind? -/
def Ctl.permits (c : Ctl) (ch kind : Nat) : Bool := bit (c.rd Fld.mb_MB_CLASS_CLASS_MASK ch) (kind - 1)

def Ctl.busy (c : Ctl) (ch : Nat) : Bool := c.on Fld.mb_MB_CTRL_BUSY ch

/-- R408: a control core, or a peer's link die, reaches the channels of its kind, and one that it owns. -/
def Ctl.reaches (c : Ctl) (p : Port) (ch : Nat) : Bool := decide (ch < 32) && (c.permits ch (portKind p) || c.owns p ch)

/-- A write that R405 ignores is counted. -/
def Ctl.ignored (c : Ctl) (ch : Nat) : Ctl := c.bump Fld.mb_MB_STATS_IGNORED ch

/-! ## Words -/

/-- Message word `w` of a channel: word 1 is the stamp. -/
def Ctl.mbWord (c : Ctl) (ch w : Nat) : Nat :=
  if w == 1 then c.rd Fld.mb_MB_DATA1_STAMP ch else c.rd Fld.mb_MB_DATAw_WORD ch w

def Ctl.setMbWord (c : Ctl) (ch w v : Nat) : Ctl :=
  if w == 1 then c.wr Fld.mb_MB_DATA1_STAMP v ch else c.wr Fld.mb_MB_DATAw_WORD v ch w

/-- Write message words from word `w` on. -/
def Ctl.setMbWords (c : Ctl) (ch : Nat) : Nat → List Nat → Ctl
  | _, [] => c
  | w, v :: t => (c.setMbWord ch w v).setMbWords ch (w + 1) t

/-! ## Release and completion -/

/-- `OWNER` and every data word clear. -/
def Ctl.freeChan (c : Ctl) (ch : Nat) : Ctl :=
  (c.wr Fld.mb_MB_OWN_OWNER 0 ch).setMbWords ch 0 (List.replicate 16 0)

/-- What the completion of a channel sets: its doorbell where its mask permits HOST, an in-band interrupt for a SIDEBAND
channel (Table 14-11, R417); none after a function reset released it (R414). -/
def Ctl.chanBell (c : Ctl) (ch : Nat) : Ctl :=
  if c.host.quiet.contains ch then { c with host := { c.host with quiet := without c.host.quiet ch } }
  else
    let c := if c.permits ch 1 then c.ring (16 + ch % 16) else c
    if c.permits ch 2 then c.ibi [1, ch] else c

/-- A release that waited for completion takes effect; the response is discarded (R405). -/
def Ctl.lateRelease (c : Ctl) (ch : Nat) : Ctl :=
  if c.host.releasing.contains ch then
    { c with host := { c.host with releasing := without c.host.releasing ch } }.freeChan ch
  else c

/-- `DONE` is set and `BUSY` cleared, then the doorbell follows (R407, R410). -/
def Ctl.chanDone (c : Ctl) (ch : Nat) : Ctl :=
  (((c.wr Fld.mb_MB_CTRL_DONE 1 ch).wr Fld.mb_MB_CTRL_BUSY 0 ch).chanBell ch).lateRelease ch

/-- Hardware ends a message by itself (Table 14-8). -/
def Ctl.hwEnd (c : Ctl) (ch stat : Nat) : Ctl :=
  ((c.wr Fld.mb_MB_CTRL_RLEN 0 ch).wr Fld.mb_MB_CTRL_HWSTAT stat ch).chanDone ch

/-- R406: boot ended in FAULT: every waiting message ends with NOT_READY. -/
def Ctl.endWaiting (c : Ctl) : Ctl :=
  ({ c with host := { c.host with waiting := [] } }).each c.host.waiting (fun c ch => c.hwEnd ch 4)

/-- The module enters FAULT with a cause. -/
def Ctl.toFault (c : Ctl) (cause : Nat) : Ctl :=
  ((c.wr Fld.st_ST_STATE_STAGE 5).wr Fld.st_ST_STATE_FAULT_CAUSE cause).endWaiting

/-- R407: Mersene ends a message: word 0 echoes the tag, word 1 is Mersene's stamp. -/
def Ctl.respond (c : Ctl) (ch status : Nat) (payload : List Nat) : Ctl :=
  let tag := c.mbWord ch 0 / 2 ^ 16 % 2 ^ 16
  let ws := (status + 2 ^ 16 * tag) :: 0x580F :: (if status ≤ 1 then payload.take 14 else [])
  (((c.setMbWords ch 0 ws).wr Fld.mb_MB_CTRL_RLEN ws.length ch).wr Fld.mb_MB_CTRL_HWSTAT 0 ch).chanDone ch

/-! ## The commands -/

/-- CLAIM (R404). A claim that does not succeed has no effect. Log 41 (DEDUCED). -/
def Ctl.claim (c : Ctl) (p : Port) (ch : Nat) : Ctl :=
  if c.rd Fld.mb_MB_OWN_OWNER ch == 0 && c.permits ch (portKind p) then c.wr Fld.mb_MB_OWN_OWNER (c.stampOf p) ch else c

/-- RELEASE (R405). Log 41 (DEDUCED). -/
def Ctl.releaseChan (c : Ctl) (p : Port) (ch : Nat) : Ctl :=
  if !c.owns p ch then c.ignored ch
  else if c.busy ch then { c with host := { c.host with releasing := addNew c.host.releasing ch } }
  else c.freeChan ch

/-- R406: what a started message meets: hardware ends it, or it waits for Mersene. -/
def Ctl.startMessage (c : Ctl) (ch len : Nat) : Ctl :=
  if c.stage == 0 || c.stage == 5 then c.hwEnd ch 4
  else if len == 0 then c.hwEnd ch 1
  else if len < 8 then c.hwEnd ch 2
  else if 16 < len then c.hwEnd ch 3
  else { c with host := { c.host with waiting := c.host.waiting ++ [ch] } }

/-- GO (R405, R406). -/
def Ctl.goChan (c : Ctl) (p : Port) (ch value : Nat) : Ctl :=
  if !c.owns p ch || c.busy ch then c.ignored ch
  else
    let c := (c.wr Fld.mb_MB_CTRL_LEN (value % 32) ch).wr Fld.mb_MB_CTRL_DONE 0 ch
    let c := ((c.setMbWord ch 1 (c.stampOf p)).wr Fld.mb_MB_CTRL_BUSY 1 ch).wr Fld.mb_MB_CTRL_HWSTAT 0 ch
    c.startMessage ch (value % 32)

def execClaim (port : Port) (chan : Nat) (s : State) : Host.Outcome State Fault Refusal :=
  if s.m.ctl.portUp port && decide (chan < 32) then .next (s.onM (·.onCtl (·.claim port chan))) else .next s

def execRelease (port : Port) (chan : Nat) (s : State) : Host.Outcome State Fault Refusal :=
  if s.m.ctl.portUp port && decide (chan < 32) then .next (s.onM (·.onCtl (·.releaseChan port chan))) else .next s

def execGo (port : Port) (chan value : Nat) (s : State) : Host.Outcome State Fault Refusal :=
  if s.m.ctl.portUp port && decide (chan < 32) then .next (s.onM (·.onCtl (·.goChan port chan value))) else .next s

/-- A word write to a channel that sends nothing: MB_DATA, `LEN` and the W1C bit of MB_CTRL (R405, Table 14-7). A write to
MB_DATA1 is ignored. Log 41 (DEDUCED). -/
def Ctl.writeChan (c : Ctl) (p : Port) (ch off v : Nat) : Ctl :=
  if off < 0x40 then
    if !c.owns p ch || c.busy ch then c.ignored ch
    else if off / 4 == 1 then c else c.setMbWord ch (off / 4) v
  else if off == 0x48 then
    if !c.owns p ch || c.busy ch then c.ignored ch
    else
      let c := c.wr Fld.mb_MB_CTRL_LEN (v % 32) ch
      if bit v 10 then c.wr Fld.mb_MB_CTRL_DONE 0 ch else c
  else c

end Sys2Proof.Machine
end

