-- ==== Sys2Proof/Machine/Secure.lean ====
section
/-! DEFINITION. The security processor: the flash, derived keys, protected records, the LMS state, signature blocks and
manifests (R438 to R460). -/

namespace Sys2Proof.Machine

/-! ## The flash (Table 16-3) -/

/-- An erased byte of the NOR flash. Log 4 (DESIGN CHOICE). -/
def flashDefault : Byte := 0xFF

def flashSize : Nat := 0x10000000
def bankAddr (b : Nat) : Nat := if b == 0 then 0 else 0x6000000
def bankSize : Nat := 0x6000000
def protAddr : Nat := 0xC000000
/-- The helper data, check value and DevID certificate in the identity partition; the spec gives their order alone. Log 22 (PRESUMED). -/
def helperAddr : Nat := 0xC100000
/-- Log 22 (PRESUMED). -/
def checkAddr : Nat := 0xC110000
/-- Log 22 (PRESUMED). -/
def certAddr : Nat := 0xC112000
/-- The epoch certificate slots: the last 256 × 4 KiB of the identity partition. -/
def epochAddr (e : Nat) : Nat := 0xC400000 + 0x1000 * e
def learnedAddr : Nat := 0xC500000
def persistAddr : Nat := 0xCD00000

/-- Log 4 (DESIGN CHOICE). -/
def Ctl.flashRead (c : Ctl) (a n : Nat) : List Nat := Cells.read flashDefault c.flash a n

def Ctl.flashWrite (c : Ctl) (a : Nat) (b : List Nat) : Ctl := { c with flash := Cells.write flashDefault c.flash a b }

/-- Erase a span. -/
def Ctl.flashErase (c : Ctl) (a n : Nat) : Ctl :=
  { c with flash := Cells.clear (fun x => decide (a ≤ x ∧ x < a + n)) c.flash }

/-! ## Derived keys (R440, R441) -/

/-- The bytes of an ASCII label. -/
def ascii (s : String) : List Nat := s.toList.map Char.toNat

def Ctl.key (c : Ctl) (label : String) (tail : List Nat) (n : Nat) : List Nat :=
  Config.hkdf c.sec.root (ascii label ++ tail) n

def flashKey (c : Ctl) : List Nat := c.key "cyn-flash" [] 32

/-- The order of P-384. -/
def p384n : Nat :=
  0xFFFFFFFFFFFFFFFFFFFFFFFFFFFFFFFFFFFFFFFFFFFFFFFFC7634D81F4372DDF581A0DB248B0A77AECEC196ACCC52973

/-- The DevID private key, 48 bytes: (v mod (n - 1)) + 1. -/
def Ctl.devPriv (c : Ctl) : List Nat := be 48 (unle (c.key "cyn-devid" [] 56).reverse % (p384n - 1) + 1)

def Ctl.devPub (c : Ctl) : List Nat := Config.p384Public c.devPriv

/-- The LMS key of an epoch: SEED and I. -/
def Ctl.lmsKey (c : Ctl) (e : Nat) : List Nat := c.key "cyn-lms" [e % 256] 48

/-- `MODULE_ID` (R441). -/
def Ctl.deriveId (c : Ctl) : Nat := unle ((Config.sha384 c.devPub).take 8)

/-! ## Protected records (R448, Table 16-4) -/

/-- Log 24 (DEDUCED). -/
def ProtRec.body (r : ProtRec) (rpmc : Nat) : List Nat :=
  padTo 96 ([0x50, 0x50, 0x52, 0x30] ++ le 4 rpmc ++ [r.active, r.staged, r.revoke % 16, r.epoch] ++ le 4 r.minSvn ++ le 4 r.reservedEnd)

def parseRec (b : List Nat) : ProtRec :=
  ⟨b.getD 8 0, b.getD 9 0, b.getD 10 0 % 16, b.getD 11 0, fieldAt b 12 4, fieldAt b 16 4⟩

/-- Is a slot's record the one in force: its HMAC verifies and its `RPMC` equals the flash counter? -/
def Ctl.recOk (c : Ctl) (b : List Nat) : Bool :=
  b.take 4 == [0x50, 0x50, 0x52, 0x30] && fieldAt b 4 4 == c.sec.rpmc && (b.drop 96).take 32 == Config.hmac256 (flashKey c) (b.take 96)

/-- The newest such record, looking back from the slot written last. Log 23 (DEDUCED). -/
def Ctl.findRec (c : Ctl) : Option ProtRec :=
  (((List.range 8192).map (fun i => c.flashRead (protAddr + 128 * ((c.sec.recSlot + 8191 - i) % 8192)) 128)).find? c.recOk).map parseRec

/-- Write a record with `RPMC` = counter + 1, then increment the counter: the record is in force. A 64 KiB sector is erased
before the sequence wraps into it. -/
def Ctl.writeRec (c : Ctl) (r : ProtRec) : Ctl :=
  let n := c.sec.recSlot
  let c := if n % 512 == 0 then c.flashErase (protAddr + 128 * n) 0x10000 else c
  let b := r.body ((c.sec.rpmc + 1) % 2 ^ 32)
  let c := c.flashWrite (protAddr + 128 * n) (b ++ Config.hmac256 (flashKey c) b)
  { c with sec := { c.sec with record := r, rpmc := (c.sec.rpmc + 1) % 2 ^ 32, recSlot := (n + 1) % 8192 } }

/-- The record a unit goes by: the latched copy while the keys are zeroised (R456). -/
def Ctl.inForce (c : Ctl) : ProtRec := c.sec.latched.getD c.sec.record

/-! ## Signature blocks (R443 to R446) -/

def sigBlock (role slot : Nat) (pub lms es ls : List Nat) : List Nat :=
  [0x53, 0x49, 0x47, 0x30, 4, 0, role, slot, 0, 0, 0, 0] ++ padTo 97 pub ++ [0, 0, 0] ++ padTo 56 lms ++ padTo 96 es
    ++ padTo 2828 ls ++ List.replicate 44 0

/-- The signed message M (R444). -/
def sigMessage (blk content : List Nat) : List Nat := blk.take 8 ++ Config.sha384 content

/-- A block over `content` signed with the DevID key and an LMS leaf. -/
def Ctl.signBlock (c : Ctl) (role epoch leaf : Nat) (content : List Nat) : List Nat :=
  let lms := Config.lmsPublic (c.lmsKey epoch)
  let m := [0x53, 0x49, 0x47, 0x30, 4, 0, role, 0] ++ Config.sha384 content
  sigBlock role 0 c.devPub lms (Config.ecdsaSign c.devPriv (Config.sha384 m)) (Config.lmsSign (c.lmsKey epoch) leaf m)

/-- R445, checks 1 to 4: 0 where all pass, else the outcome code of Table 16-10. -/
def verifyBlock (blk content : List Nat) (role : Nat) (hash : List Nat) : Nat :=
  let m := sigMessage blk content
  if !(blk.take 7 == [0x53, 0x49, 0x47, 0x30, 4, 0, role] && (blk.drop 8).take 4 == [0, 0, 0, 0] &&
      (blk.drop 109).take 3 == [0, 0, 0] && (blk.drop 3092).take 44 == List.replicate 44 0 && blk.length == 3136) then 0x0802
  else if !(Config.sha384 (bytesAt blk 12 97 ++ bytesAt blk 112 56) == hash && bytesAt blk 112 8 == [0, 0, 0, 8, 0, 0, 0, 3]) then 0x0802
  else if !Config.ecdsaVerify (bytesAt blk 12 97) (Config.sha384 m) (bytesAt blk 168 96) then 0x0803
  else if !Config.lmsVerify (bytesAt blk 112 56) m (bytesAt blk 264 2828) then 0x0804
  else 0

/-! ## Manifests and packages (R460, Tables 16-8 to 16-10) -/

/-- Entry `i` (type i + 1) of a manifest. -/
def entryAt (p : List Nat) (i : Nat) : List Nat := bytesAt p (128 + 64 * i) 64
def fwVersion (p : List Nat) : Nat := fieldAt p 16 4
def pkgSvn (p : List Nat) : Nat := fieldAt p 20 4
def pkgRevoke (p : List Nat) : Nat := p.getD 32 0 % 16
def pkgFmts (p : List Nat) : List Nat := bytesAt p 36 5

/-- The layout rules of R460, and R446's of `REVOKE` with the slots revoked before. -/
def pkgFormat (p : List Nat) (len revoked : Nat) : Bool :=
  let slot := p.getD 24 0
  p.take 4 == [0x4D, 0x46, 0x4E, 0x30] && fieldAt p 4 2 == 4 && fieldAt p 6 2 == 0 && fieldAt p 8 4 == 512 && fieldAt p 12 4 == 6
    && decide (512 + 3136 ≤ len) && slot == p.getD (512 + 7) 0
    && p.getD 25 0 == 0 && bytesAt p 29 3 == [0, 0, 0] && p.getD 32 0 < 16 && bytesAt p 33 3 == [0, 0, 0]
    && bytesAt p 41 87 == List.replicate 87 0
    && (List.range 6).all (fun i =>
        let e := entryAt p i
        fieldAt e 0 2 == i + 1 && fieldAt e 2 2 == 0 && fieldAt e 8 4 % 64 == 0
          && decide (512 + 3136 ≤ fieldAt e 8 4) && decide (fieldAt e 8 4 + fieldAt e 12 4 ≤ len))
    && !bit (pkgRevoke p) slot && (pkgRevoke p ||| revoked) != 15

def pkgTarget (p : List Nat) : Bool := fieldAt p 26 2 == 0x0836 && p.getD 28 0 == 0xB0 && fieldAt p 16 4 / 2 ^ 24 == 4

/-- The checks of key and signatures: 0 where they pass. -/
def pkgSigned (p : List Nat) (revoked : Nat) : Nat :=
  let slot := p.getD (512 + 7) 0
  if 3 < slot ∨ bit revoked slot then 0x0802
  else verifyBlock (bytesAt p 512 3136) (bytesAt p 0 512) 1 (Config.rootKeyHash slot)

/-- Does an image match its `HASH`? -/
def imageOk (p : List Nat) (rd : Nat → Nat → List Nat) (i : Nat) : Bool :=
  Config.sha384 (rd (fieldAt (entryAt p i) 8 4) (fieldAt (entryAt p i) 12 4)) == bytesAt (entryAt p i) 16 48

/-- The checks a manifest and some of its images pass at boot, in Table 16-10's order. -/
def bootCheck (p : List Nat) (rd : Nat → Nat → List Nat) (images : List Nat) (r : ProtRec) : Nat :=
  if !pkgTarget p then 0x0801
  else if pkgSigned p r.revoke != 0 then pkgSigned p r.revoke
  else if pkgSvn p < r.minSvn then 0x0805
  else if !images.all (imageOk p rd) then 0x0806
  else 0

/-- The checks of staging (R461, Table 16-10, codes 0x0800 to 0x0806). -/
def stageCheck (p : List Nat) (len : Nat) (rd : Nat → Nat → List Nat) (r : ProtRec) : Nat :=
  if !pkgFormat p len r.revoke then 0x0800 else bootCheck p rd [0, 1, 2, 3, 4, 5] r

/-- The manifest of a bank, with its signature block. -/
def Ctl.bankManifest (c : Ctl) (b : Nat) : List Nat := c.flashRead (bankAddr b) 3648

/-- The bytes of a bank's package. -/
def Ctl.bankRead (c : Ctl) (b off n : Nat) : List Nat := c.flashRead (bankAddr b + off) n

/-- R464: the families whose format version the new firmware changes. -/
def changedFamilies (old new : List Nat) : List Nat := [1, 2, 3, 4, 5].filter (fun f => old.getD (f - 1) 0 != new.getD (f - 1) 0)

/-- Families as the bits of UPDATE_ACTIVATED's byte 36: bit f - 1 for family f. -/
def familyBits (fams : List Nat) : Nat := fams.foldl (fun n f => n + 2 ^ (f - 1)) 0

/-- Event 6 of Table 19-11: ATTEST_DISABLED once `STAGE` is READY or later. Log 80 (DESIGN CHOICE). -/
def Ctl.announceAttest (c : Ctl) : Ctl :=
  if c.sec.attestDue ∧ 2 ≤ c.stage ∧ c.stage ≤ 4 then ({ c with sec := { c.sec with attestDue := false } }).post 0x0808 0 dieHD 0xFF []
  else c

/-! ## The learned training table (R319, R440) -/

/-- The tag that authenticates a learned table under `cyn-train`. Log 205 (DESIGN CHOICE). -/
def Ctl.tableTag (c : Ctl) (t : Tab Nat (Nat × Nat)) : List Nat :=
  Config.hmac256 (c.key "cyn-train" [] 32) (t.flatMap (fun p => [p.1, p.2.1, p.2.2]))

/-- Does the learned table authenticate? Its key is gone once the key store is zeroised (R529). Log 20 (DEDUCED). -/
def Ctl.learnedOk (c : Ctl) : Bool := c.sec.keys && !c.sec.learnedBad && c.sec.learnedTag == c.tableTag c.sec.learned

/-! ## LMS leaves (R451 to R454) -/

/-- The epoch certificate's 64-byte body. -/
def Ctl.epochBody (c : Ctl) (e : Nat) : List Nat := [0x45, 0x50, 0x43, 0x30, e, 0, 0, 0] ++ padTo 56 (Config.lmsPublic (c.lmsKey e))

/-- Is the slot of an epoch certificate empty? -/
def Ctl.epochEmpty (c : Ctl) (e : Nat) : Bool := (c.flashRead (epochAddr e) 4) == [0xFF, 0xFF, 0xFF, 0xFF]

/-- R454: move to the next epoch: its certificate, signed by leaf e of epoch 0, and a record. Log 24 (DEDUCED). -/
def Ctl.nextEpoch (c : Ctl) : Ctl :=
  let e := c.sec.record.epoch + 1
  let c := if c.epochEmpty e then c.flashWrite (epochAddr e) (c.epochBody e ++ c.signBlock 4 0 e (c.epochBody e)) else c
  let c := c.writeRec { c.sec.record with epoch := e, reservedEnd := 4096 }
  ({ c with sec := { c.sec with leaf := 0 } }).post 0x0805 3 dieHD 0xFF [e]

/-- R453: when no reserved leaf remains, reserve 4,096 more, or move to the next epoch, or run out. Log 24 (DEDUCED). -/
def Ctl.reserve (c : Ctl) : Ctl :=
  let r := c.sec.record
  if c.sec.leaf < r.reservedEnd then c
  else if r.reservedEnd < 2 ^ 20 then c.writeRec { r with reservedEnd := min (r.reservedEnd + 4096) (2 ^ 20) }
  else if r.epoch < 255 then c.nextEpoch
  else if c.sec.lmsOut then c
  else ({ c with sec := { c.sec with lmsOut := true } }).post 0x0806 0 dieHD 0xFF []

/-! ## Boot (R449, R450, Table 16-5) -/

/-- PUF_RECONSTRUCT (R438, R439): the root secret, checked; on failure boot stops in FAULT with PUF_FAIL. -/
def Ctl.puf (c : Ctl) (pattern : Nat) : Ctl :=
  let c := { c with sec := { c.sec with root := Config.fuzzy pattern (c.flashRead helperAddr 0x8000), pufDone := true } }
  if c.key "cyn-check" [] 16 == c.flashRead checkAddr 16 then
    let id := c.deriveId
    ({ c with sec := { c.sec with keys := true, boot := .puf, moduleId := id } }).wr Fld.sb_SB_PID
      (0x58B6 * 2 ^ 32 + 0x0836 * 2 ^ 16 + 0xB0 * 2 ^ 8 + id % 256)
  else ({ c with sec := { c.sec with root := [], boot := .fault } }).toFault 1

def execPufReconstruct (pattern : Nat) (s : State) : Host.Outcome State Fault Refusal :=
  if s.m.ctl.sec.boot = .rom ∧ s.m.ctl.sec.pufDone = false then .next (s.onM (·.onCtl (·.puf pattern))) else .next s

/-- The bank that boot tries first: the staged one where an activation waits for the reset (R462). -/
def firstBank (r : ProtRec) : Nat := if r.staged == 2 then 1 - r.active % 2 else r.active % 2

/-- Event 3 of Table 16-5 is behind the module, with the record in force. Log 23 (DEDUCED). -/
def Ctl.recordFound (c : Ctl) (r : ProtRec) : Ctl :=
  { c with sec := { c.sec with
      record := r, boot := .record, bank := firstBank r, fromStaged := r.staged == 2, tried := [], failCode := 0 } }

/-- BOOT_RECORD_FOUND (R448, R453, R456): the latched copy while the keys are zeroised, a `STAGED` of 2 then taken as 1; else
the record in force, with its next leaf at `RESERVED_END`. With no record in force the spec gives boot no way on. -/
def Ctl.bootRecord (c : Ctl) : Ctl :=
  match c.sec.latched with
  | some r => c.recordFound { r with staged := if r.staged == 2 then 1 else r.staged }
  | none =>
    match c.findRec with
    | some r =>
      let c := c.recordFound r
      ({ c with sec := { c.sec with leaf := if r.epoch = 0 then max 256 r.reservedEnd else r.reservedEnd } }).reserve
    | none => c

/-- Log 23 (DEDUCED). -/
def execBootRecordFound (s : State) : Host.Outcome State Fault Refusal :=
  if s.m.ctl.sec.boot = .puf ∨ (s.m.ctl.sec.boot = .rom ∧ s.m.ctl.sec.pufDone = true) then
    .next (s.onM (·.onCtl (·.bootRecord)))
  else .next s

/-- R450: a bank failed: boot goes on at event 4 with the other, or ends in FAULT with NO_IMAGE. Log 29 (DEDUCED). -/
def Ctl.bankFailed (c : Ctl) (code : Nat) : Ctl :=
  let t := addNew c.sec.tried c.sec.bank
  let c := { c with sec := { c.sec with tried := t, failCode := code } }
  if t.length < 2 then { c with sec := { c.sec with bank := 1 - c.sec.bank, boot := .record } }
  else ({ c with sec := { c.sec with boot := .fault } }).toFault 2

/-- BOOT_MANIFEST_VERIFY (R445, R446, R449). Log 29 (DEDUCED). -/
def Ctl.manifestVerify (c : Ctl) : Ctl :=
  let b := c.sec.bank
  let code := bootCheck (c.bankManifest b) (c.bankRead b) [0] c.inForce
  if code == 0 then { c with sec := { c.sec with boot := .manifest } } else c.bankFailed code

def execBootManifestVerify (s : State) : Host.Outcome State Fault Refusal :=
  if s.m.ctl.sec.boot = .record then .next (s.onM (·.onCtl (·.manifestVerify))) else .next s

/-- The DevID public key that the certificate in the flash carries. -/
def Ctl.certKey (c : Ctl) : List Nat := Config.certKey (c.flashRead certAddr 0x2000)

/-- R442: a derived key that is not the certificate's is posted, and attestation is refused. -/
def Ctl.checkId (c : Ctl) : Ctl :=
  if !c.sec.keys || c.sec.idMismatch || c.devPub == c.certKey then c
  else ({ c with sec := { c.sec with idMismatch := true } }).post 0x0807 0 dieHD 0xFF (le 8 c.sec.moduleId)

/-- HD_FIRMWARE_LOAD (event 5): `STAGE` BOOT and ST_FW (Table 14-5). -/
def Ctl.firmwareLoad (c : Ctl) : Ctl :=
  let c := { c with sec := { c.sec with boot := .firmware }, pow := { c.pow with event := max 5 c.pow.event } }
  ((c.wr Fld.st_ST_STATE_STAGE 1).wr Fld.st_ST_FW_VERSION (fwVersion (c.bankManifest c.sec.bank))).checkId

def execHdFirmwareLoad (s : State) : Host.Outcome State Fault Refusal :=
  if s.m.ctl.sec.boot = .manifest then .next (s.onM (·.onCtl (·.firmwareLoad))) else .next s

/-- R458: the digests of the six images of a bank. -/
def Ctl.imageDigests (c : Ctl) (b : Nat) : List (List Nat) :=
  (List.range 6).map (fun i =>
    let e := entryAt (c.bankManifest b) i
    Config.sha384 (c.bankRead b (fieldAt e 8 4) (fieldAt e 12 4)))

/-- FIRMWARE_IMAGES_LOAD (event 6, R458): the other five images, and the measurements. -/
def Ctl.imagesLoad (c : Ctl) : Ctl :=
  let b := c.sec.bank
  let p := c.bankManifest b
  if [1, 2, 3, 4, 5].all (imageOk p (c.bankRead b)) then
    { c with sec := { c.sec with boot := .images, manifest := p, images := c.imageDigests b, fmts := pkgFmts p,
                                 fallback := b != c.inForce.active && !c.sec.fromStaged },
             pow := { c.pow with event := max 6 c.pow.event } }
  else c.bankFailed 0x0806

def execFirmwareImagesLoad (s : State) : Host.Outcome State Fault Refusal :=
  if s.m.ctl.sec.boot = .firmware then .next (s.onM (·.onCtl (·.imagesLoad))) else .next s

end Sys2Proof.Machine
end

