-- ==== Sys2Proof/Machine/Bringup.lean ====
section
/-! DEFINITION. Memory bring-up, refresh and scrub (R312 to R319). -/

namespace Sys2Proof.Machine

/-- Event 8 of Table 18-6 is under way. -/
def Ctl.inEvent8 (c : Ctl) : Bool := c.pow.event == 7 && c.sec.boot == .images

/-! ## Near memory (R313, R316) -/

/-- Rows logged for repair that a controller reaches. -/
def rowsOf (log : List Nat) (p : Nat → Bool) : List Nat := log.filter p

/-- R313: the rows of a controller leave the log but those that no spare is left for, each of which is raised and keeps returning
uncorrectable errors. Log 20 (DEDUCED). Log 173 (DEDUCED). -/
def Ctl.repairRows (c : Ctl) (p : Nat → Bool) (exhausted : List Nat) (die unit : Nat → Nat) : Ctl :=
  let left := exhausted.filter p
  let lines := left.map (· / 64)
  let c := { c with
    sec := { c.sec with repairLog := c.sec.repairLog.filter (fun r => !p r || left.contains r) }
    pow := { c.pow with dead := lines.foldl addNew (c.pow.dead.filter (fun l => !p (l * 64))) }
    poison := lines.foldl addNew c.poison }
  c.each left (fun c a => c.post 0x0409 1 (die a) (unit a) (le 8 a))

/-- NM_BRINGUP: repairs, the test, zeroes in every row, and `READY`; or NM_BIST_FAIL, which carries the stack's first DRAM die
as its source. Log 15 (DEDUCED). Log 202 (DESIGN CHOICE). Log 173 (DEDUCED). -/
def Module.nearUp (m : Module) (n repaired : Nat) (exhausted : List Nat) (bistFail : Bool) : Module :=
  let mine (a : Nat) : Bool := stackOf a == some n
  let m := m.onCtl (fun c =>
    let c := (c.repairRows mine exhausted (dramDie n) (fun _ => 0xFF)).wr Fld.nm_NM_REPAIR_DONE (min repaired 255) n
    let c := c.wr Fld.nm_NM_REPAIR_PENDING (min 255 (c.sec.repairLog.filter mine).length) n
    { c with pow := { c.pow with nmDone := addNew c.pow.nmDone n } })
  if bistFail then m.onCtl (·.post 0x0407 1 (dramDie n (nearBase n)) 0xFF [])
  else (m.zero mine).onCtl (·.wr Fld.nm_NM_STATE_READY 1 n)

/-- Log 15 (DEDUCED). Log 144 (DESIGN CHOICE). -/
def execNmBringup (stack : Nat) (repaired : Nat) (exhausted : List Nat) (bistFail : Bool) (s : State) :
    Host.Outcome State Fault Refusal :=
  if s.m.ctl.inEvent8 = true ∧ stack < 8 ∧ s.m.ctl.pow.nmDone.contains stack = false then
    .next (s.onM (·.nearUp stack repaired exhausted bistFail))
  else .next s

/-! ## Far memory (R317 to R319, Table 11-7) -/

/-- The event of Table 11-7 a channel has reached; 8 once it has failed. -/
def Ctl.fcEvent (c : Ctl) (ch : Nat) : Nat := Tab.get 0 c.pow.fcEvent ch

def Ctl.setFc (c : Ctl) (ch e : Nat) : Ctl := { c with pow := { c.pow with fcEvent := c.pow.fcEvent.set ch e } }

/-- FM_OSCILLATOR_LOCK: event 1 of every channel of the die. -/
def execFmOscillatorLock (fm : Nat) (s : State) : Host.Outcome State Fault Refusal :=
  if s.m.ctl.inEvent8 = true ∧ fm < 2 ∧ s.m.ctl.fcEvent (32 * fm) = 0 then
    .next (s.onM (·.onCtl (fun c => c.each (List.range 32) (fun c j => c.setFc (32 * fm + j) 1))))
  else .next s

def execLpddr6Init (ch : Nat) (s : State) : Host.Outcome State Fault Refusal :=
  if s.m.ctl.fcEvent ch = 1 then .next (s.onM (·.onCtl (·.setFc ch 2))) else .next s

/-- Full training is due. -/
def Ctl.needFull (c : Ctl) (ch : Nat) : Ctl := { c with pow := { c.pow with full := addNew c.pow.full ch } }

/-- TRAINING_SETTINGS_READ: the learned settings of this device; the baseline table while no key authenticates the learned one
(R529); full training where the table is damaged (R532) or holds none for this device. Log 20 (DEDUCED). -/
def Ctl.readSettings (c : Ctl) (ch identity : Nat) : Ctl :=
  let c := { (c.setFc ch 3) with pow := { (c.setFc ch 3).pow with settings := c.pow.settings.set ch identity } }
  if !c.sec.keys then c
  else if !c.learnedOk then c.needFull ch
  else match c.sec.learned.find? (fun p => p.1 == ch) with
    | some p => if p.2.1 == identity then c else c.needFull ch
    | none => c.needFull ch

def execTrainingSettingsRead (ch : Nat) (identity : Nat) (s : State) : Host.Outcome State Fault Refusal :=
  if s.m.ctl.fcEvent ch = 2 then .next (s.onM (·.onCtl (·.readSettings ch identity))) else .next s

/-- QUICK_VERIFICATION: a channel that came out of self-refresh and passes keeps its contents. -/
def Ctl.quick (c : Ctl) (ch : Nat) (pass : Bool) : Ctl :=
  if pass then (c.setFc ch 5).wrB Fld.fc_FC_STATE_KEPT (c.pow.refresh.contains ch) ch else c.needFull ch

def execQuickVerification (ch : Nat) (pass : Bool) (s : State) : Host.Outcome State Fault Refusal :=
  if s.m.ctl.fcEvent ch = 3 ∧ s.m.ctl.pow.full.contains ch = false then .next (s.onM (·.onCtl (·.quick ch pass))) else .next s

/-- R319: the new settings enter the learned table, which the key of the module authenticates. -/
def Ctl.learn (c : Ctl) (ch settings : Nat) : Ctl :=
  if c.sec.keys then
    let t := Tab.set (if c.learnedOk then c.sec.learned else []) ch (Tab.get 0 c.pow.settings ch, settings)
    { c with sec := { c.sec with learned := t, learnedTag := c.tableTag t, learnedBad := false } }
  else c

/-- FULL_TRAINING_ATTEMPT: after the third failure FM_TRAIN_FAIL is raised (R318). -/
def Ctl.fullTrain (c : Ctl) (ch : Nat) (pass : Bool) (settings : Nat) : Ctl :=
  let c := (c.bump Fld.fc_FC_STATE_ATTEMPTS ch).wr Fld.fc_FC_STATE_FULL_TRAIN 1 ch
  if pass then (c.setFc ch 5).learn ch settings
  else if c.rd Fld.fc_FC_STATE_ATTEMPTS ch == 3 then (c.setFc ch 8).post 0x0408 1 (dieFM (ch / 32)) (ch % 32) []
  else c

def execFullTrainingAttempt (ch : Nat) (pass : Bool) (settings : Nat) (s : State) : Host.Outcome State Fault Refusal :=
  if s.m.ctl.fcEvent ch = 3 ∧ s.m.ctl.pow.full.contains ch = true then .next (s.onM (·.onCtl (·.fullTrain ch pass settings)))
  else .next s

/-- Does a channel keep its contents? -/
def Ctl.kept (c : Ctl) (ch : Nat) : Bool := c.on Fld.fc_FC_STATE_KEPT ch

/-- FAR_MEMORY_INIT: repairs, zeroes in every line of the channels that are not kept, each line of the window snooped first,
and `TRAINED` everywhere. Log 173 (DEDUCED). -/
def Module.farInit (m : Module) (exhausted : List Nat) : Module :=
  let c0 := m.ctl
  let wipe (a : Nat) : Bool := match farOff a with | some o => !c0.kept (chanOf o) | none => false
  let snoop := ((m.mem.filter (fun (p : Nat × Byte) => wipe p.1)).map (fun (p : Nat × Byte) => p.1 / 64 * 64) ++ (c0.poison.map (64 * ·)).filter wipe).eraseDups
  let m := m.onCtl (fun c => (c.each snoop Ctl.snoopLine).repairRows (fun a => (farOff a).isSome) exhausted
    (fun a => dieFM (chanOf (a - farBase) / 32)) (fun a => chanOf (a - farBase) % 32))
  (m.zero wipe).onCtl (fun c => ({ c with host := { c.host with oldWindow := none } }).each (List.range 64) (fun c ch =>
    (c.setFc ch 7).wr Fld.fc_FC_STATE_TRAINED 1 ch))

def execFarMemoryInit (exhausted : List Nat) (s : State) : Host.Outcome State Fault Refusal :=
  if (List.range 64).all (fun ch => s.m.ctl.fcEvent ch == 5) = true then .next (s.onM (·.farInit exhausted)) else .next s

/-! ## Refresh, strobes, scrub (R312, R314, R315) -/

/-- A near controller's band, and NM_HOT as it passes 105 °C. Log 202 (DESIGN CHOICE). -/
def Ctl.nearTemp (c : Ctl) (n t : Nat) : Ctl :=
  let hot := decide (105 < t)
  let was := c.on Fld.nm_NM_STATE_HOT n
  let c := ((c.wr Fld.nm_NM_TEMP (min t 255) n).wr Fld.nm_NM_STATE_REFRESH (if t ≤ 85 then 0 else if t ≤ 105 then 1 else 2) n).wrB
    Fld.nm_NM_STATE_HOT hot n
  if hot && !was then c.post 0x0405 0 n 0xFF [min t 255] else c

/-- A far controller's band, and FM_HOT as it passes 95 °C. -/
def Ctl.farTemp (c : Ctl) (ch t : Nat) : Ctl :=
  let hot := decide (95 < t)
  let was := c.on Fld.fc_FC_STATE_HOT ch
  let c := ((c.wr Fld.fc_FC_TEMP (min t 255) ch).wr Fld.fc_FC_STATE_REFRESH (if t ≤ 85 then 0 else if t ≤ 95 then 1 else 2) ch).wrB
    Fld.fc_FC_STATE_HOT hot ch
  if hot && !was then c.post 0x0406 0 (dieFM (ch / 32)) (ch % 32) [min t 255] else c

/-- REFRESH_TEMP_SAMPLE (R314): controllers 0..7 are the stacks', 8 + xx the far channels'. -/
def execRefreshTempSample (ctrl temp : Nat) (s : State) : Host.Outcome State Fault Refusal :=
  if s.m.ctl.pow.on = true ∧ ctrl < 72 then
    .next (s.onM (·.onCtl (fun c => if ctrl < 8 then c.nearTemp ctrl temp else c.farTemp (ctrl - 8) temp)))
  else .next s

/-- STROBE_RETRACK (R315). -/
def execStrobeRetrack (ch : Nat) (beyondHalf : Bool) (s : State) : Host.Outcome State Fault Refusal :=
  if s.m.ctl.pow.on = true ∧ ch < 64 ∧ beyondHalf = true then .next (s.onM (·.onCtl (·.bump Fld.fc_FC_RETRACK_COUNT ch)))
  else .next s

/-- SCRUB_READ (R312, R308, R309). Log 144 (DESIGN CHOICE). -/
def execScrubRead (addr symbols : Nat) (s : State) : Host.Outcome State Fault Refusal :=
  if s.m.ctl.pow.on = true then .next (s.onM (·.onCtl (·.memErr (addr, symbols)))) else .next s

end Sys2Proof.Machine
end

