-- ==== Sys2Proof/Machine/Hp.lean ====
section
/-! DEFINITION. The Hall Pass arbiter: requests, the units held, grants, and the budget (R259 to R261, R495, R496). -/

namespace Sys2Proof.Machine

/-- The die of a request. -/
def hpDie : HpWho → Option Nat
  | .desc d _ _ => some d
  | .attempt d _ _ => some d
  | _ => none

/-- The queue of a request. -/
def hpQueue : HpWho → Nat
  | .desc _ q _ => q
  | .attempt _ q _ => q
  | _ => 0xFF

/-- Units held. -/
def HpSt.heldUnits (h : HpSt) : Nat := h.held.foldl (fun n p => n + p.2) 0

/-- The budget U. -/
def Ctl.budget (c : Ctl) : Nat := c.rd Fld.pm_PM_UNITS_BUDGET

/-- Units free: none while the budget lies below the units held (R496). -/
def Ctl.freeUnits (c : Ctl) : Nat := c.budget - c.hp.heldUnits

/-- `HELD`, `WAITING` and each die's share, as the registers show them. -/
def Ctl.showHp (c : Ctl) : Ctl :=
  let wait := c.hp.fifo ++ c.hp.oversize
  let c := (c.wr Fld.pm_PM_UNITS_HELD (min c.hp.heldUnits 16383)).wr Fld.pm_PM_WAIT_WAITING (min wait.length 65535)
  c.each (List.range 8) (fun c d =>
    (c.wr Fld.que_HP_DIE_HELD (min 65535 ((c.hp.held.filter (fun p => hpDie p.1 == some d)).foldl (fun n p => n + p.2) 0)) d).wr
      Fld.que_HP_DIE_WAITING (min 65535 (wait.filter (fun r => hpDie r.who == some d)).length) d)

/-- Change the arbiter. -/
def Ctl.setHp (c : Ctl) (h : HpSt) : Ctl := ({ c with hp := h }).showHp

/-- The `LESSON_ID` a die holds, 0 with none. -/
def Ctl.lessonId (c : Ctl) (die : Nat) : Nat := match (c.die die).lesson with | some l => l.id | none => 0

/-- The unit number of the control core that owns a queue. -/
def Ctl.ccUnit (c : Ctl) (die q : Nat) : Nat := 0x70 + c.rd Fld.que_Q_CTRL_OWNER die q

/-- R261: a request larger than the whole budget leaves its FIFO. -/
def Ctl.raiseOversize (c : Ctl) (r : HpReq) : Ctl :=
  match hpDie r.who with
  | some d =>
    let q := hpQueue r.who
    (c.count d (c.ccUnit d q) 21).post 0x0202 1 d (c.ccUnit d q)
      (le 8 (c.lessonId d) ++ [q, 0, 0, 0] ++ le 4 r.units ++ le 4 c.budget)
  | none => c.post 0x0202 1 dieHB 0xFF (le 8 0 ++ [0xFF, 0, 0, 0] ++ le 4 r.units ++ le 4 c.budget)

/-- A request reaches the arbiter. -/
def Ctl.hpRequest (c : Ctl) (r : HpReq) : Ctl :=
  if c.budget < r.units then (c.raiseOversize r).setHp { c.hp with oversize := c.hp.oversize ++ [r] }
  else c.setHp { c.hp with fifo := c.hp.fifo ++ [r] }

/-- The highest priority that waits. -/
def topPrio (l : List HpReq) : Nat := l.foldl (fun n r => max n r.prio) 0

/-- R260: the head of the highest non-empty priority. -/
def HpSt.head (h : HpSt) : Option HpReq := h.fifo.find? (fun r => r.prio == topPrio h.fifo)

/-- Grant the head if the free units cover it. Log 82 (DEDUCED). -/
def Ctl.hpGrant (c : Ctl) : Option (HpReq × Ctl) :=
  match c.hp.head with
  | none => none
  | some r =>
    if c.freeUnits < r.units then none
    else some (r, c.setHp { c.hp with fifo := c.hp.fifo.erase r, held := c.hp.held ++ [(r.who, r.units)] })

/-- The units of a holder become free. -/
def Ctl.hpFree (c : Ctl) (w : HpWho) : Ctl := c.setHp { c.hp with held := c.hp.held.filter (fun p => p.1 != w) }

/-- Forget the requests and units of a holder. -/
def Ctl.hpForget (c : Ctl) (w : HpWho) : Ctl :=
  c.setHp { c.hp with
    fifo := c.hp.fifo.filter (fun r => r.who != w), oversize := c.hp.oversize.filter (fun r => r.who != w),
    held := c.hp.held.filter (fun p => p.1 != w) }

/-- R261: after a change of the budget, requests beyond it leave, and those it covers again re-enter at the tail. -/
def Ctl.rebudget (c : Ctl) : Ctl :=
  let u := c.budget
  let gone := c.hp.fifo.filter (fun r => u < r.units)
  let back := c.hp.oversize.filter (fun r => r.units ≤ u)
  let h := { c.hp with
    fifo := c.hp.fifo.filter (fun r => r.units ≤ u) ++ back,
    oversize := c.hp.oversize.filter (fun r => u < r.units) ++ gone }
  (c.each gone Ctl.raiseOversize).setHp h

/-! ## The budget (R495) -/

/-- The unit weight ρ moves one eighth of the way to its measure, in units of 1/1,024, within 0.50..1.25; it is held while a
clamp episode lasts. Powers are in 0.1 W. Log 16 (DEDUCED). -/
def nextRho (rho g pcd pIdle : Nat) (clamp : Bool) : Nat :=
  if g < 256 || clamp then rho
  else
    let target : Int := 1024 * ((pcd : Int) - pIdle) / (5 * g)
    (max 512 (min 1280 ((rho : Int) + (target - rho) / 8))).toNat

/-- f_T in 1/256. -/
def thermalFactor (t : Nat) : Nat := if t ≤ 105 then 256 else if t < 113 then (113 - t) * 32 else 0

/-- U, from the cap in W, P_base in 1/10,240 W, ρ in 1/1,024 and the junction. Log 16 (DEDUCED). -/
def unitsFor (capW : Nat) (pbase : Int) (rho t : Nat) : Nat :=
  let u := (((capW : Int) - 40) * 10240 - pbase) / (5 * rho)
  let v := if t ≤ 105 then u else if t < 113 then u * (113 - t) / 8 else 0
  (max 0 (min 16383 v)).toNat

/-- BUDGET_RECOMPUTE (R495). Log 16 (DEDUCED). -/
def Ctl.recompute (c : Ctl) (g tj tjDie : Nat) : Ctl :=
  let rho := nextRho (c.rd Fld.pm_PM_BASE_RHO) g c.pow.pcd c.pow.pIdle (c.on Fld.pm_PM_CLAMP_ACTIVE)
  let pb : Int := 1024 * (c.pow.pin : Int) - 5 * rho * g
  let hist := (pb :: c.pow.base8).take 8
  let top := hist.foldl max pb
  let u := unitsFor (c.rd Fld.pm_PM_CAP_CAP_W) top rho tj
  let c := { c with pow := { c.pow with base8 := hist, tj := tj } }
  let c := ((c.wr Fld.pm_PM_BASE_RHO rho).wr Fld.pm_PM_BASE_PBASE (top / 1024).toNat).wr Fld.pm_PM_UNITS_BUDGET u
  (((c.wr Fld.pm_PM_THERM_TJ (min tj 255)).wr Fld.pm_PM_THERM_TJ_DIE tjDie).wr Fld.pm_PM_THERM_FT (thermalFactor tj)).rebudget

def execBudgetRecompute (g tj tjDie : Nat) (s : State) : Host.Outcome State Fault Refusal :=
  if s.m.ctl.pow.on then .next (s.onM (·.onCtl (·.recompute g tj tjDie))) else .next s

end Sys2Proof.Machine
end

