-- ==== Sys2Proof/Machine/Links.lean ====
section
/-! DEFINITION. Fjoam links: wiring, frames, routing, flits, replay, credits, bring-up and violations (R323 to R340, R349 to
R357). -/

namespace Sys2Proof.Machine

/-! ## Coordinates and wiring (R323) -/

def coordX (d : Nat) : Nat := d % 32
def coordY (d : Nat) : Nat := d / 32 % 32
def coordP (d : Nat) : Nat := d / 1024 % 8
def packCoord (x y p : Nat) : Nat := x + 32 * y + 1024 * p

/-- The torus size (SX, SY). -/
def Ctl.torus (c : Ctl) : Nat × Nat := (c.rd Fld.ls_LS_COORD_SX + 1, c.rd Fld.ls_LS_COORD_SY + 1)

/-- Does a packed coordinate lie in the torus, with reserved bits 0? -/
def Ctl.inTorus (c : Ctl) (d : Nat) : Bool := decide (d < 8192) && decide (coordX d < c.torus.1) && decide (coordY d < c.torus.2)

/-- The module and link at the other end of a link of a module; none where a torus dimension of size 1 leaves it unconnected. -/
def wiredTo (o : Nat) (t : Nat × Nat) (x : Nat) : Option (Nat × Nat) :=
  let sx := t.1
  let sy := t.2
  let i := x % 4
  if x < 28 then some (packCoord (coordX o) (coordY o) ((coordP o + x / 4 + 1) % 8), 4 * (6 - x / 4) + i)
  else if x < 30 then if sx == 1 then none else some (packCoord ((coordX o + 1) % sx) (coordY o) (coordP o), x + 2)
  else if x < 32 then if sx == 1 then none else some (packCoord ((coordX o + sx - 1) % sx) (coordY o) (coordP o), x - 2)
  else if x < 34 then if sy == 1 then none else some (packCoord (coordX o) ((coordY o + 1) % sy) (coordP o), x + 2)
  else if sy == 1 then none else some (packCoord (coordX o) ((coordY o + sy - 1) % sy) (coordP o), x - 2)

def Ctl.partner (c : Ctl) (x : Nat) : Option (Nat × Nat) := wiredTo c.coord c.torus x

/-! ## Link states -/

def Ctl.lkState (c : Ctl) (x : Nat) : Nat := c.rd Fld.lk_LK_STATE x
def Ctl.active (c : Ctl) (x : Nat) : Bool := c.lkState x == 2
def linkDie (x : Nat) : Nat := dieLK (x / 9)

/-- A link's state changes: the trace record LINK_STATE tells (Table 17-5). -/
def Ctl.setLkState (c : Ctl) (x st cause : Nat) : Ctl :=
  let c := (c.wr Fld.lk_LK_STATE st x).wr Fld.lk_LK_STATE_CAUSE cause x
  c.emit (linkDie x) (x % 9) 0x23 2 [st, cause, c.rd Fld.lk_LK_STATE_WIDTH x]

/-! ## Frames (Table 12-4) -/

def Frame.header (f : Frame) : List Nat :=
  padTo 32 ([f.tc % 4 + 4 * (f.type % 64), f.psel % 4 + 4 * b2n f.yfirst + 8 * b2n f.detour] ++ le 2 f.payload.length ++ le 2 f.dst
    ++ le 2 f.src ++ le 2 f.group ++ [f.hop, 0] ++ le 4 f.mseq ++ le 4 (f.chunk % 2 ^ 30 + 2 ^ 30 * (f.phase % 4)) ++ le 2 f.ncontrib
    ++ [f.wireFmt % 64, 0, 0, 0, 0, 0] ++ le 4 f.pcrc)

def Frame.bytes (f : Frame) : List Nat := f.header ++ f.payload

/-- Read a frame from its bytes. -/
def parseFrame (b : List Nat) : Frame :=
  { tc := b.getD 0 0 % 4, type := b.getD 0 0 / 4, psel := b.getD 1 0 % 4, yfirst := bit (b.getD 1 0) 2, detour := bit (b.getD 1 0) 3,
    dst := fieldAt b 4 2, src := fieldAt b 6 2, group := fieldAt b 8 2, hop := b.getD 10 0, mseq := fieldAt b 12 4,
    chunk := fieldAt b 16 4 % 2 ^ 30, phase := fieldAt b 16 4 / 2 ^ 30, ncontrib := fieldAt b 20 2, wireFmt := b.getD 22 0 % 64,
    pcrc := fieldAt b 28 4, payload := bytesAt b 32 (fieldAt b 2 2) }

/-- Table 12-5: the classes and largest payload of a type. -/
def typeLimit (type tc : Nat) : Option Nat :=
  match type, tc with
  | 1, 0 => some 256 | 2, 0 => some 256 | 3, 0 => some 256 | 3, 1 => some 4096 | 4, 1 => some 4096 | 4, 2 => some 4096
  | 5, 1 => some 4096 | 6, 2 => some 4096 | 7, 3 => some 4096 | _, _ => none

/-- R331, R354: is a received header well formed (reserved fields 0, type, class, length, destination in the torus; `CHUNK`,
`PHASE` and `NCONTRIB` 0 in all but a COLL frame, whose `PHASE` is 0 or 1)? -/
def Ctl.headerOk (c : Ctl) (b : List Nat) (tc : Nat) : Bool :=
  let len := fieldAt b 2 2
  let coll := b.getD 0 0 / 4 == 4
  b.getD 0 0 % 4 == tc && decide (b.getD 1 0 < 16) && b.getD 11 0 == 0 && decide (b.getD 22 0 < 64) && bytesAt b 23 5 == [0, 0, 0, 0, 0]
    && (if coll then decide (fieldAt b 16 4 / 2 ^ 30 < 2) else fieldAt b 16 4 == 0 && fieldAt b 20 2 == 0)
    && (match typeLimit (b.getD 0 0 / 4) tc with | some m => decide (len ≤ m) | none => false)
    && c.inTorus (fieldAt b 4 2) && decide (fieldAt b 6 2 < 8192)

/-- A frame of this module: its `MSEQ` counts the frames sent on its class; COLL frames carry their identifier. -/
def Ctl.newFrame (c : Ctl) (tc type psel dst group : Nat) (payload : List Nat) : Frame × Ctl :=
  let n := c.job.roll.mseq.getD tc 0
  ({ tc := tc, type := type, psel := psel, yfirst := false, detour := false, dst := dst, src := c.coord, group := group, hop := 0,
     mseq := n % 2 ^ 32, chunk := 0, phase := 0, ncontrib := 0, wireFmt := 0, pcrc := crc32c payload, payload := payload },
   { c with job := { c.job with roll := { c.job.roll with mseq := updAt c.job.roll.mseq tc (· + 1) } } })

/-! ## Flits (Table 12-2) -/

/-- The flits of a frame that came by the dimension `dim`; the first needs `need` credits. -/
def frameFlits (f : Frame) (need : Nat) (dim : Option Bool) : List Flit :=
  let n := (f.bytes.length + 243) / 244
  (List.range n).map (fun i =>
    { tc := f.tc, first := i == 0, last := i + 1 == n, bytes := bytesAt f.bytes (244 * i) 244, need := if i == 0 then need else 1,
      frame := f, dim := dim })

/-- The 256 bytes of a flit. Log 144 (DESIGN CHOICE). -/
def flitBytes (fseq ack kind tc : Nat) (first last : Bool) (cr payload : List Nat) : List Nat :=
  let w := fseq % 4096 + 2 ^ 12 * (ack % 4096) + 2 ^ 24 * kind + 2 ^ 26 * tc + 2 ^ 28 * b2n first + 2 ^ 29 * b2n last
  let b := le 4 w ++ (padTo 4 (cr.map (· % 256))) ++ padTo 244 payload
  b ++ le 4 (crc32c b)

/-- R326: the `FSEQ` a link acknowledges: the last accepted in order, but no TC0 flit before its frame has passed. -/
def LinkSt.ackSeq (l : LinkSt) : Nat :=
  let open0 := ((l.asm.getD 0 none).toList ++ (l.asm.getD 4 none).toList ++ l.ready.getD 0 []).map (fun a => a.seqs.headD l.rxExp)
  let back (s : Nat) : Nat := (l.rxExp + 4096 - s) % 4096
  let worst := (open0 ++ l.redo).foldl (fun m s => max m (back s)) 0
  (l.rxExp + 4096 - worst + 4095) % 4096

/-- A control message in a control flit. -/
def LinkSt.ctrlFlit (l : LinkSt) (msg : List Nat) : List Nat := flitBytes l.txSeq l.ackSeq 2 0 false false l.freed msg

/-- Put a control message in line for a link. -/
def Ctl.ctrlMsg (c : Ctl) (x : Nat) (msg : List Nat) : Ctl := c.onLink x (fun l => { l with ctrl := l.ctrl ++ [msg] })

/-! ## Routing (R338 to R340) -/

/-- The dimension a frame takes: X (true), Y (false), or none on its board. -/
def routeDim (own : Nat) (f : Frame) : Option Bool :=
  let dx := coordX f.dst != coordX own
  let dy := coordY f.dst != coordY own
  if !f.yfirst && dx then some true else if dy then some false else if dx then some true else none

/-- The links of a direction of a dimension, or toward a position, at a module. -/
def linksToward (o : Nat) (t : Nat × Nat) (f : Frame) : List Nat :=
  match routeDim o f with
  | none => (List.range 4).map (4 * ((coordP f.dst + 7 - coordP o) % 8) + ·)
  | some true =>
    let s := t.1
    let d := (coordX f.dst + s - coordX o) % s
    if d ≤ s - d then [28, 29] else [30, 31]
  | some false =>
    let s := t.2
    let d := (coordY f.dst + s - coordY o) % s
    if d ≤ s - d then [32, 33] else [34, 35]

def Ctl.routeSet (c : Ctl) (f : Frame) : List Nat := linksToward c.coord c.torus f

/-- The link a set offers: the one `PSEL` names, else the next ACTIVE one in ascending order. -/
def Ctl.pick (c : Ctl) (set : List Nat) (psel : Nat) : Option Nat :=
  let k := psel % max set.length 1
  (set.drop k ++ set.take k).find? c.active

/-- R339: the credits a frame needs at the link it leaves by: two of the largest frames where it enters a torus dimension. -/
def needFor (dim : Option Bool) (inDim : Option Bool) (f : Frame) : Nat :=
  match dim with
  | none => 1
  | some d => if inDim = some d then (f.bytes.length + 243) / 244 else if f.tc = 0 then 4 else 34

/-- Queue a frame's flits on a link. -/
def Ctl.queueFrame (c : Ctl) (x : Nat) (f : Frame) (need : Nat) (dim : Option Bool) : Ctl :=
  c.onLink x (fun l => { l with queues := updAt l.queues f.tc (· ++ frameFlits f need dim) })

/-- R332: does a frame that `f` must not overtake wait at this module (the same source, destination, `PSEL` and links)? -/
def Ctl.heldBefore (c : Ctl) (f : Frame) : Bool :=
  f.tc == 0 && c.held.any (fun h => h.frame.src == f.src && h.frame.dst == f.dst && h.frame.psel == f.psel
    && c.routeSet h.frame == c.routeSet f)

/-- Queue a frame behind those it must not overtake: on the link, or with a held one of its route. -/
def Ctl.sendOn (c : Ctl) (x : Nat) (f : Frame) (need : Nat) (dim : Option Bool) : Ctl :=
  if c.heldBefore f then { c with held := c.held ++ [HeldFrame.mk dim f] } else c.queueFrame x f need dim

/-- R340, last cases: a TC0 frame waits and TC0_HELD is raised; a frame of another class is lost. -/
def Ctl.noLink (c : Ctl) (f : Frame) (inDim : Option Bool) : Ctl :=
  if f.tc = 0 then ({ c with held := c.held ++ [HeldFrame.mk inDim f] }).post 0x0504 0 dieHB 0xFF (le 2 f.dst)
  else c.bump Fld.ls_LINK_DROP_CNT_COUNT

/-- Route a frame once, and answer whether a link took it. -/
def Ctl.tryRoute (c : Ctl) (f : Frame) (inDim : Option Bool) : Option Ctl :=
  match c.pick (c.routeSet f) f.psel with
  | some x => some (c.sendOn x f (needFor (routeDim c.coord f) inDim f) inDim)
  | none => none

/-- The on-board detour of R340. -/
def detourPos (own dst : Nat) : Nat := if (own + 1) % 8 = dst then (own + 2) % 8 else (own + 1) % 8

/-- Send a frame by the detour position's links: it is routed to that position, its `DST` unchanged. -/
def Ctl.tryDetour (c : Ctl) (f : Frame) : Option Ctl :=
  let p := detourPos (coordP c.coord) (coordP f.dst)
  let set := (List.range 4).map (4 * ((p + 7 - coordP c.coord) % 8) + ·)
  (c.pick set f.psel).map (fun x => c.queueFrame x f 1 none)

/-- R338, R340: send a frame on its way. Log 53 (DEDUCED). -/
def Ctl.route (c : Ctl) (f : Frame) (inDim : Option Bool) : Ctl :=
  match c.tryRoute f inDim with
  | some c' => c'
  | none =>
    if f.tc ≠ 0 then c.noLink f inDim
    else if (routeDim c.coord f).isSome && !f.yfirst then
      let g := { f with yfirst := true }
      match c.tryRoute g inDim with
      | some c' => c'
      | none => c.noLink g inDim
    else if (routeDim c.coord f).isNone && !f.detour then
      let g := { f with detour := true }
      match c.tryDetour g with
      | some c' => c'
      | none => c.noLink g inDim
    else c.noLink f inDim

/-- Send a new frame of this module. -/
def Ctl.sendFrame (c : Ctl) (tc type psel dst group : Nat) (payload : List Nat) : Ctl :=
  let r := c.newFrame tc type psel dst group payload
  if dst = c.coord then r.2.send (.peer 0xFF payload) else r.2.route r.1 none

/-- TC0_HELD_RELEASE (R340): the first held frame for which a link of its set is ACTIVE is sent. -/
def Ctl.releaseHeld (c : Ctl) : Ctl :=
  match c.held.find? (fun h => (c.pick (c.routeSet h.frame) h.frame.psel).isSome) with
  | some h =>
    let c := { c with held := c.held.erase h }
    match c.pick (c.routeSet h.frame) h.frame.psel with
    | some x => c.queueFrame x h.frame (needFor (routeDim c.coord h.frame) h.dim h.frame) h.dim
    | none => c
  | none => c

def execTc0HeldRelease (s : State) : Host.Outcome State Fault Refusal := .next (s.onM (·.onCtl (·.releaseHeld)))

/-! ## Going down and retraining (R352, R353) -/

/-- The frames of the flits of a list, each once, with the dimension it came by. Log 53 (DEDUCED). -/
def framesOf (l : List Flit) : List HeldFrame :=
  l.foldl (fun fs (f : Flit) => if fs.contains ⟨f.dim, f.frame⟩ then fs else fs ++ [⟨f.dim, f.frame⟩]) []

/-- A link goes DOWN: DOWN_NOTICE, lost and rerouted frames, the alarm LINK_DOWN (R353). Log 51 (DEDUCED). Log 53 (DEDUCED). -/
def Ctl.goDown (c : Ctl) (x cause : Nat) : Ctl :=
  let l := c.link x
  let c := c.send (.flit x (l.ctrlFlit [6, cause]))
  let kept := l.kept.map (·.2)
  let lost := framesOf (kept.filter (fun f => f.tc != 0))
  let again := framesOf (kept.filter (fun f => f.tc == 0) ++ l.queues.flatten.filter (fun f => !lost.contains ⟨f.dim, f.frame⟩))
  let c := c.onLink x (fun l => { LinkSt.reset with
    enable := l.enable, cred := l.cred, weight := l.weight, violMax := l.violMax, violWindow := l.violWindow,
    retrainUncorr := l.retrainUncorr })
  let c := (c.wr Fld.lk_LK_STATE_WIDTH 3 x).setLkState x 4 cause
  let c := (c.bump Fld.ls_LINK_DROP_CNT_COUNT 0 0 lost.length).bump Fld.lk_LK_DROP_CNT_COUNT x 0 lost.length
  let c := c.each again (fun c h => c.route h.frame h.dim)
  c.post 0x0503 0 (linkDie x) (x % 9) [cause]

/-- An ACTIVE link enters RETRAIN: events 3 to 5 again, kept flits and credits stay (R352). -/
def Ctl.retrain (c : Ctl) (x : Nat) : Ctl :=
  if c.active x then
    ((c.onLink x (fun l => { l with event := 2, fails := 0, pairs := [false, false], retrained := true })).bump
      Fld.lk_LK_TRAINS_RETRAINS x).setLkState x 3 0
  else c

/-- A link enters TRAINING: a training attempt begins (R349, R350). -/
def Ctl.train (c : Ctl) (x event : Nat) : Ctl :=
  ((c.onLink x (fun l => { l with event := event, fails := 0, pairs := [false, false] })).bump Fld.lk_LK_TRAINS_TRAININGS x).setLkState x 1 0

/-! ## Violations (R354 to R356) -/

/-- A partner broke a rule: count it, answer it once in 100 µs, and bring the link DOWN at `VIOL_MAX`. Log 55 (DEDUCED). -/
def Ctl.violation (c : Ctl) (x rule tc seen want : Nat) (header : List Nat) : Ctl :=
  let c := ((c.bump Fld.lk_VIOL_CNT_COUNT x).bump Fld.lk_VIOL_WIN_COUNT x).wr Fld.lk_VIOL_WIN_LAST_RULE rule x
  let n := c.rd Fld.lk_VIOL_WIN_COUNT x
  let c := if (c.link x).answered.contains rule then c else
    (c.ctrlMsg x ([2, rule, tc, 0] ++ le 2 seen ++ le 2 want ++ le 4 n ++ padTo 32 header)).onLink x
      (fun l => { l with answered := l.answered ++ [rule] })
  if (c.link x).violMax ≤ n then c.goDown x 4 else c

/-! ## Receiving flits (R326 to R328) -/

/-- NAK(x), at most once per microsecond. Log 174 (DEDUCED). -/
def Ctl.sendNak (c : Ctl) (x want : Nat) : Ctl :=
  let t := c.stamp (linkDie x)
  match (t.2.link x).lastNak with
  | some o => if t.1 < o + 1000 then t.2 else (t.2.ctrlMsg x ([1] ++ le 2 want)).onLink x (fun l => { l with lastNak := some t.1 })
  | none => (t.2.ctrlMsg x ([1] ++ le 2 want)).onLink x (fun l => { l with lastNak := some t.1 })

/-- An uncorrectable flit: counted; `RETRAIN_UNCORR` of them within 1 ms retrain the link. -/
def Ctl.badFlit (c : Ctl) (x : Nat) : Ctl :=
  let t := c.stamp (linkDie x)
  let c := t.2.bump Fld.lk_FEC_UNCORR_COUNT x
  let recent := (c.link x).uncorr.filter (fun o => t.1 < o + 1000000)
  let c := c.onLink x (fun l => { l with afterBad := true, uncorr := recent ++ [t.1] })
  if (c.link x).retrainUncorr ≤ recent.length + 1 then
    (c.onLink x (fun l => { l with uncorr := [] })).retrain x
  else c

/-- The kept flits that `ACK` covers go; an `ACK` of a flit not sent is a violation and is ignored. Log 51 (DEDUCED). -/
def Ctl.takeAck (c : Ctl) (x ack : Nat) : Ctl :=
  let l := c.link x
  let n := (l.txSeq + 4096 - (ack + 1) % 4096) % 4096
  if n ≤ l.kept.length then
    c.onLink x (fun l => { l with
      kept := l.kept.drop (l.kept.length - n),
      resend := l.resend.filter (fun r => (l.kept.drop (l.kept.length - n)).any (fun k => k.1 == r.1)) })
  else c.violation x 4 0 ack l.txSeq []

/-- Credits come back as cumulative counts mod 256. -/
def takeCredits (old cr : List Nat) : List Nat := List.zipWith (fun o n => o + (n + 256 - o % 256) % 256) old cr

/-- A buffer of a class is freed. -/
def Ctl.freeBufs (c : Ctl) (x tc n : Nat) : Ctl :=
  c.onLink x (fun l => { l with freed := updAt l.freed tc (· + n), used := updAt l.used tc (· - n) })

/-- Put what slot `k` is receiving; `skip` says that the rest of a discarded frame is to be dropped. -/
def Ctl.setAsm (c : Ctl) (x k : Nat) (a : Option RxAsm) (skip : Bool) : Ctl :=
  c.onLink x (fun l => { l with asm := l.asm.set k a, skip := l.skip.set k skip })

/-- R354: the frame in slot `k` is discarded, its buffers freed; `more` flits of it are still to come. -/
def Ctl.dropAsm (c : Ctl) (x tc k : Nat) (more : Bool) : Ctl :=
  match (c.link x).asm.getD k none with
  | some a => (c.freeBufs x tc a.seqs.length).setAsm x k none more
  | none => c.setAsm x k none more

/-- `LK_DROP_CNT` (Table 12-13): a frame is discarded at a link. -/
def Ctl.dropped (c : Ctl) (x : Nat) : Ctl := c.bump Fld.lk_LK_DROP_CNT_COUNT x

/-- A whole frame waits for its delivery; one that came again goes before those that came after it (R332). -/
def Ctl.frameWhole (c : Ctl) (x tc k : Nat) (a : RxAsm) : Ctl :=
  (c.setAsm x k none false).onLink x (fun l => { l with
    ready := updAt l.ready tc (fun r => if k = 4 then a :: r else r ++ [a]) })

/-- Add a flit that R330 lets stand to the frame of its slot. -/
def Ctl.growAsm (c : Ctl) (x tc k seq : Nat) (last : Bool) (payload : List Nat) : Ctl :=
  let a : RxAsm := match (c.link x).asm.getD k none with
    | some a => ⟨a.bytes ++ payload, a.seqs ++ [seq]⟩
    | none => ⟨payload, [seq]⟩
  if !last && !(k == 4 && (c.link x).redo == []) then c.setAsm x k (some a) false
  else if last && a.seqs.length == (32 + fieldAt a.bytes 2 2 + 243) / 244 then c.frameWhole x tc k a
  else (((c.freeBufs x tc a.seqs.length).setAsm x k none false).dropped x).violation x 5 tc seq seq a.bytes

/-- Take an accepted data flit into the frame of slot `k`: the slot of its class, or 4 for a TC0 flit that comes again (R326).
A `FIRST` flit inside a frame ends that frame and begins its own; a flit outside any frame, and the rest of a discarded frame, is
dropped. Log 175 (DEDUCED). -/
def Ctl.assemble (c : Ctl) (x tc k seq : Nat) (first last : Bool) (payload : List Nat) : Ctl :=
  match (c.link x).asm.getD k none, first with
  | some a, true =>
    let c := ((c.dropAsm x tc k false).dropped x).violation x 5 tc seq seq a.bytes
    if c.active x then c.growAsm x tc k seq last payload else c
  | none, false =>
    let c := c.freeBufs x tc 1
    let was := (c.link x).skip.getD k false
    let c := c.setAsm x k none (!last)
    if was then c else (c.dropped x).violation x 5 tc seq seq []
  | _, _ => c.growAsm x tc k seq last payload

/-- The receive allotments in force. -/
def Ctl.allot (c : Ctl) (x : Nat) : List Nat :=
  [c.rd Fld.lk_LK_CRED01_TC0 x, c.rd Fld.lk_LK_CRED01_TC1 x, c.rd Fld.lk_LK_CRED23_TC2 x, c.rd Fld.lk_LK_CRED23_TC3 x]

/-- The frames that are discarded where slot `k` takes a flit that finds no buffer: the one begun, and the flit's own, unless the
rest of that one is being dropped already. -/
def LinkSt.losing (l : LinkSt) (k : Nat) (first : Bool) : Nat :=
  b2n (l.asm.getD k none).isSome + b2n (first || ((l.asm.getD k none).isNone && !l.skip.getD k false))

/-- An accepted data flit takes a buffer of its class; where none is free its whole frame is discarded (R354). Log 52 (DEDUCED). Log 175 (DEDUCED). -/
def Ctl.acceptFlit (c : Ctl) (x tc k seq : Nat) (first last : Bool) (payload : List Nat) : Ctl :=
  let l := c.link x
  let c := (c.add Fld.lk_RX_FLITS 1 x).onLink x (fun l => { l with afterBad := false })
  if (c.allot x).getD tc 0 ≤ l.used.getD tc 0 then
    ((c.dropAsm x tc k (!last)).bump Fld.lk_LK_DROP_CNT_COUNT x 0 (l.losing k first)).violation x 1 tc seq seq
      (if first then payload.take 32 else [])
  else (c.onLink x (fun l => { l with used := updAt l.used tc (· + 1) })).assemble x tc k seq first last payload

/-- The sequence check of R326. The flits of a TC0 frame asked for again are taken in their order: where one comes before another that
is still to come, that other was lost again, and is asked for once more. -/
def Ctl.dataFlit (c : Ctl) (x tc seq : Nat) (first last : Bool) (payload : List Nat) : Ctl :=
  let l := c.link x
  let d := (seq + 4096 - l.rxExp) % 4096
  if d = 0 then (c.onLink x (fun l => { l with rxExp := (l.rxExp + 1) % 4096 })).acceptFlit x tc tc seq first last payload
  else if l.redo.head? = some seq then
    (c.onLink x (fun l => { l with redo := l.redo.drop 1 })).acceptFlit x tc 4 seq first last payload
  else if l.redo.contains seq then c.sendNak x (l.redo.headD 0)
  else if d ≤ 511 then c.sendNak x l.rxExp
  else if 3585 ≤ d then (if l.afterBad then c.sendNak x l.rxExp else c)
  else
    let c := c.violation x 3 tc seq l.rxExp (if first then payload.take 32 else [])
    if l.afterBad then c.sendNak x l.rxExp else c

/-- The `FSEQ` of a control flit, which a VIOLATION that answers its message names (R355). -/
def Ctl.noteCtrl (c : Ctl) (x : Nat) (b : List Nat) : Ctl :=
  if bitsOf (fieldAt b 0 4) 24 2 = 2 then c.onLink x (fun l => { l with ctrlSeq := bitsOf (fieldAt b 0 4) 0 12 }) else c

/-- A flit of a link in bring-up: a good one that carries a control message leaves its `FSEQ`. -/
def Ctl.trainFlit (c : Ctl) (x : Nat) (b : List Nat) (uncorr : Bool) : Ctl :=
  if uncorr || crc32c (padTo 252 b) != fieldAt b 252 4 then c else c.noteCtrl x b

/-- FLIT_RECEIVE (R326 to R328): the FEC's verdict and the CRC, then `ACK`, credits and sequence. A control message comes as a
command of its own; here only a reserved one is refused. Of a flit of the reserved `KIND` 0b11 the `ACK` and the credits are taken
and nothing else. Log 51 (DEDUCED). Log 59 (DESIGN CHOICE). Log 204 (DESIGN CHOICE). -/
def Ctl.flitIn (c : Ctl) (x : Nat) (b : List Nat) (corrected : Nat) (uncorr : Bool) : Ctl :=
  let c := c.bump Fld.lk_FEC_CORR_SYMBOLS x 0 corrected
  if uncorr || crc32c (padTo 252 b) != fieldAt b 252 4 then c.badFlit x
  else
    let w := fieldAt b 0 4
    let kind := bitsOf w 24 2
    let c := c.takeAck x (bitsOf w 12 12)
    if !c.active x then c
    else
    let c := (c.onLink x (fun l => { l with peerFreed := takeCredits l.peerFreed (bytesAt b 4 4) })).noteCtrl x b
    if kind = 1 then c.dataFlit x (bitsOf w 26 2) (bitsOf w 0 12) (bit w 28) (bit w 29) (bytesAt b 8 244)
    else if kind = 2 then
      (if b.getD 8 0 = 0 ∨ 6 < b.getD 8 0 then c.violation x 6 0 (bitsOf w 0 12) (c.link x).rxExp [] else c)
    else c

/-- Log 144 (DESIGN CHOICE). -/
def execFlitReceive (link : Nat) (bytes : List Nat) (corrected : Nat) (uncorr : Bool) (s : State) : Host.Outcome State Fault Refusal :=
  if s.m.ctl.active link = true then .next (s.onM (·.onCtl (·.flitIn link bytes corrected uncorr)))
  else if s.m.ctl.lkState link = 1 ∨ s.m.ctl.lkState link = 3 then .next (s.onM (·.onCtl (·.trainFlit link bytes uncorr)))
  else .next s

/-! ## Sending flits (R327, R328, R334) -/

/-- Has a class a flit ready, with credit and room among the 512 kept? -/
def LinkSt.ready? (l : LinkSt) (tc : Nat) : Bool :=
  match l.queues.getD tc [] with
  | f :: _ => decide (l.kept.length < 512) && decide (l.sent.getD tc 0 - l.peerFreed.getD tc 0 + f.need ≤ l.peerCred.getD tc 0)
  | [] => false

/-- The next class of the weighted turns that can send. Log 57 (DEDUCED). -/
def LinkSt.nextTurn (l : LinkSt) : Option (Nat × Nat) :=
  let rest := [l.turn % 3 + 1, (l.turn + 1) % 3 + 1, (l.turn + 2) % 3 + 1]
  if 0 < l.turnLeft && l.ready? l.turn then some (l.turn, l.turnLeft)
  else (rest.find? l.ready?).map (fun t => (t, l.weight.getD (t - 1) 1))

/-- Send the first flit of a class's queue. Log 57 (DEDUCED). -/
def Ctl.sendData (c : Ctl) (x tc : Nat) : Ctl :=
  let l := c.link x
  match l.queues.getD tc [] with
  | f :: t =>
    let c := c.send (.flit x (flitBytes l.txSeq l.ackSeq 1 tc f.first f.last l.freed f.bytes))
    (c.add Fld.lk_TX_FLITS 1 x).onLink x (fun l => { l with
      queues := l.queues.set tc t, kept := l.kept ++ [(l.txSeq, f)], txSeq := (l.txSeq + 1) % 4096,
      sent := updAt l.sent tc (· + 1) })
  | [] => c

/-- Send the first flit that is to be sent again. Log 56 (DEDUCED). -/
def Ctl.sendAgain (c : Ctl) (x : Nat) : Ctl :=
  let l := c.link x
  match l.resend with
  | r :: t =>
    ((c.send (.flit x (flitBytes r.1 l.ackSeq 1 r.2.tc r.2.first r.2.last l.freed r.2.bytes))).bump Fld.lk_REPLAY_CNT_COUNT x).onLink x
      (fun l => { l with resend := t })
  | [] => c

/-- R329: the first waiting control message as it is sent; an ECHO takes its stamps now. -/
def Ctl.sendCtrl (c : Ctl) (x : Nat) (msg : List Nat) : Ctl :=
  let c := c.onLink x (fun l => { l with ctrl := l.ctrl.drop 1 })
  if msg == [4] then
    let t := c.stamp (linkDie x)
    let l := t.2.link x
    t.2.send (.flit x (l.ctrlFlit ([4, 0, 0, 0] ++ le 8 t.1 ++ le 8 l.echoTx ++ le 8 l.echoAt)))
  else c.send (.flit x ((c.link x).ctrlFlit msg))

/-- The next flit of a link (R327, R334): what is resent goes in order before new flits; TC0, then a control message, then
the weighted turns, then an idle flit. -/
def Ctl.flitOut (c : Ctl) (x : Nat) : Ctl :=
  let l := c.link x
  if l.resend ≠ [] then c.sendAgain x
  else if l.ready? 0 then c.sendData x 0
  else
    match l.ctrl with
    | msg :: _ => c.sendCtrl x msg
    | [] =>
      match l.nextTurn with
      | some (tc, left) => (c.onLink x (fun l => { l with turn := tc, turnLeft := left - 1 })).sendData x tc
      | none => c.send (.flit x (flitBytes l.txSeq l.ackSeq 0 0 false false l.freed []))

/-- The coordinates of the members of the CHECK group but this module: those that alarms are relayed to. Log 46 (DEDUCED). -/
def Ctl.alarmPeers (c : Ctl) : List Nat :=
  match c.job.roll.groups.find? (fun g => g.kind == 4) with
  | some g => (g.members.map (·.1)).filter (· != c.coord)
  | none => []

/-- The alarms of this module go out in ALARM frames on TC0 (Table 12-5). Log 46 (DEDUCED). -/
def Ctl.pumpAlarms (c : Ctl) : Ctl :=
  ({ c with host := { c.host with relay := [] } }).each c.host.relay (fun c e =>
    c.each c.alarmPeers (fun c d => c.sendFrame 0 1 0 d 0 e.bytes))

/-- Records to be forwarded go out in TRACE frames on TC3, up to 63 in a frame (R476). -/
def Ctl.pumpTrace (c : Ctl) : Ctl :=
  let c := if c.on Fld.tr_TR_FWD_FWD_EN then c.fwdSummary else c
  if !c.on Fld.tr_TR_FWD_FWD_EN || c.trace.fwd.recs == [] then c
  else
    let rs := c.trace.fwd.recs.take 63
    ({ c with trace := { c.trace with fwd := { c.trace.fwd with recs := c.trace.fwd.recs.drop 63 } } }).sendFrame 3 7 0
      (c.rd Fld.tr_TR_FWD_FWD_COORD) 0 ((rs.map TraceRec.bytes).flatten)

/-- FLIT_TRANSMIT (R334). -/
def execFlitTransmit (link : Nat) (s : State) : Host.Outcome State Fault Refusal :=
  if s.m.ctl.active link = true then .next (s.onM (·.onCtl (fun c => c.pumpAlarms.pumpTrace.flitOut link))) else .next s

/-- REPLAY_TIMEOUT (R327): everything kept is resent from the oldest. -/
def execReplayTimeout (link : Nat) (s : State) : Host.Outcome State Fault Refusal :=
  if s.m.ctl.active link = true then .next (s.onM (·.onCtl (·.onLink link (fun l => { l with resend := l.kept })))) else .next s

/-! ## Control messages (Table 12-3) -/

/-- A malformed control message; the `FSEQ` seen is that of the control flit that came last. Log 54 (DEDUCED). Log 176 (DEDUCED). -/
def Ctl.ctrlBad (c : Ctl) (x : Nat) : Ctl := c.violation x 6 0 (c.link x).ctrlSeq (c.link x).rxExp []

/-- Are the unused bytes of a message 0, and is it the message of this name? Log 54 (DEDUCED). -/
def ctrlOk (b : List Nat) (name used : Nat) : Bool := b.getD 0 0 == name && (b.drop used).all (· == 0)

/-- NAK (R327): the kept flits from x on are resent. Log 56 (DEDUCED). -/
def Ctl.nakIn (c : Ctl) (x : Nat) (b : List Nat) : Ctl :=
  let want := fieldAt b 1 2
  if !ctrlOk b 1 3 || 4096 ≤ want then c.ctrlBad x
  else c.onLink x (fun l => { l with resend := l.kept.dropWhile (fun k => k.1 != want) })

/-- Log 59 (DESIGN CHOICE). -/
def execNak (link : Nat) (bytes : List Nat) (s : State) : Host.Outcome State Fault Refusal :=
  if s.m.ctl.active link = true then .next (s.onM (·.onCtl (·.nakIn link bytes))) else .next s

/-- VIOLATION (R355): counted, never answered. Log 59 (DESIGN CHOICE). -/
def execViolation (link : Nat) (_bytes : List Nat) (s : State) : Host.Outcome State Fault Refusal :=
  if s.m.ctl.active link = true then .next (s.onM (·.onCtl (·.bump Fld.lk_VIOL_RX_CNT_COUNT link))) else .next s

/-- ECHO (R329, R486): an Echo record of the link die, and what the next own ECHO returns. Log 54 (DEDUCED). -/
def Ctl.echoIn (c : Ctl) (x : Nat) (b : List Nat) : Ctl :=
  let t := c.stamp (linkDie x)
  let c := t.2
  let pl := c.rd Fld.lk_LK_PEER_LINK x
  let flags := 2 * b2n (c.link x).retrained
  let c := c.emit (linkDie x) (x % 9) 0x10 1
    (le 8 (fieldAt b 12 8) ++ le 8 (fieldAt b 20 8) ++ le 8 (fieldAt b 4 8) ++ le 8 t.1 ++ [flags, x, pl, linkDie pl] ++ le 2 (c.rd Fld.lk_LK_PEER_COORD x))
  c.onLink x (fun l => { l with echoTx := fieldAt b 4 8, echoAt := t.1, retrained := false })

/-- Log 59 (DESIGN CHOICE). -/
def execEcho (link : Nat) (bytes : List Nat) (s : State) : Host.Outcome State Fault Refusal :=
  if s.m.ctl.active link = true then
    .next (s.onM (·.onCtl (fun c =>
      if ctrlOk bytes 4 28 && bytesAt bytes 1 3 == [0, 0, 0] then c.echoIn link bytes else c.ctrlBad link)))
  else .next s

/-- ECHO_SEND_TICK (R329): an ECHO falls due. The 100 µs of R355 end with it. Log 55 (DEDUCED). -/
def Ctl.echoTick (c : Ctl) (x : Nat) : Ctl := (c.ctrlMsg x [4]).onLink x (fun l => { l with answered := [] })

def execEchoSendTick (link : Nat) (s : State) : Host.Outcome State Fault Refusal :=
  if s.m.ctl.active link = true then .next (s.onM (·.onCtl (·.echoTick link))) else .next s

/-- Log 59 (DESIGN CHOICE). -/
def execRetrainReq (link : Nat) (bytes : List Nat) (s : State) : Host.Outcome State Fault Refusal :=
  if s.m.ctl.active link = true then
    .next (s.onM (·.onCtl (fun c => if ctrlOk bytes 5 1 then c.retrain link else c.ctrlBad link)))
  else .next s

/-- DOWN_NOTICE (R353): its cause is one of Table 12-9's reasons. Log 54 (DEDUCED). Log 59 (DESIGN CHOICE). -/
def execDownNotice (link : Nat) (bytes : List Nat) (s : State) : Host.Outcome State Fault Refusal :=
  if s.m.ctl.lkState link = 1 ∨ s.m.ctl.lkState link = 2 ∨ s.m.ctl.lkState link = 3 then
    .next (s.onM (·.onCtl (fun c =>
      if ctrlOk bytes 6 2 && decide (1 ≤ bytes.getD 1 0 ∧ bytes.getD 1 0 ≤ 6) then c.goDown link 6 else c.ctrlBad link)))
  else .next s

/-- Does a link's `WIDTH` use a lane pair? -/
def Ctl.usesPair (c : Ctl) (x p : Nat) : Bool := c.rd Fld.lk_LK_STATE_WIDTH x == 0 || c.rd Fld.lk_LK_STATE_WIDTH x == p + 1

/-- R352: a lane that works is one of the pairs `WIDTH` names. -/
def execLossOfSignal (link lane : Nat) (s : State) : Host.Outcome State Fault Refusal :=
  if s.m.ctl.active link = true ∧ lane < 4 ∧ s.m.ctl.usesPair link (lane / 2) = true then
    .next (s.onM (·.onCtl (·.retrain link)))
  else .next s

/-- VIOLATION_WINDOW_END (R356). -/
def execViolationWindowEnd (link : Nat) (s : State) : Host.Outcome State Fault Refusal :=
  .next (s.onM (·.onCtl (·.wr Fld.lk_VIOL_WIN_COUNT 0 link)))

/-! ## Bring-up (R349 to R352, Table 12-10) -/

/-- May a link take event `e` next? -/
def Ctl.linkAt (c : Ctl) (x e : Nat) : Bool := (c.lkState x == 1 || c.lkState x == 3) && (c.link x).event == e

/-- R349: the link dies leave reset: every link whose `ENABLE` is 1 enters TRAINING. Log 177 (DEDUCED). -/
def Ctl.trainLinks (c : Ctl) : Ctl := c.each (List.range 36) (fun c x => if (c.link x).enable then c.train x 0 else c)

/-- LINK_PLL_LOCK: event 1. -/
def execLinkPllLock (link : Nat) (s : State) : Host.Outcome State Fault Refusal :=
  if s.m.ctl.linkAt link 0 = true then .next (s.onM (·.onCtl (·.onLink link (fun l => { l with event := 1 })))) else .next s

def execPartnerSignalDetect (link : Nat) (s : State) : Host.Outcome State Fault Refusal :=
  if s.m.ctl.linkAt link 1 = true then .next (s.onM (·.onCtl (·.onLink link (fun l => { l with event := 2 })))) else .next s

def execEqualisationDone (link : Nat) (s : State) : Host.Outcome State Fault Refusal :=
  if s.m.ctl.linkAt link 2 = true then .next (s.onM (·.onCtl (·.onLink link (fun l => { l with event := 3 })))) else .next s

/-- An attempt failed: the next starts at event 3; after four the link goes DOWN (R350, R352). -/
def Ctl.attemptFail (c : Ctl) (x : Nat) : Ctl :=
  let retr := c.lkState x == 3
  if 3 ≤ (c.link x).fails then c.goDown x (if retr then 5 else 2)
  else
    let c := c.onLink x (fun l => { l with event := 2, fails := l.fails + 1, pairs := [false, false] })
    if retr then c else c.bump Fld.lk_LK_TRAINS_TRAININGS x

def execTrainingAttemptFail (link : Nat) (s : State) : Host.Outcome State Fault Refusal :=
  let c := s.m.ctl
  if (c.lkState link = 1 ∨ c.lkState link = 3) ∧ 2 ≤ (c.link link).event then .next (s.onM (·.onCtl (·.attemptFail link))) else .next s

/-- The IDENT this module sends (Table 12-3). -/
def Ctl.identMsg (c : Ctl) (x : Nat) : List Nat :=
  let l := c.link x
  [3, x, b2n (l.pairs.getD 0 false) + 2 * b2n (l.pairs.getD 1 false), 0] ++ le 2 c.coord ++ [c.torus.1 - 1, c.torus.2 - 1]
    ++ ((c.allot x).map (le 2)).flatten ++ le 4 0x00040000 ++ le 2 l.rxExp

/-- R357: the allotments set take effect with a training. -/
def Ctl.takeAllot (c : Ctl) (x : Nat) : Ctl :=
  let cr := (c.link x).cred
  (((c.wr Fld.lk_LK_CRED01_TC0 (cr.getD 0 0) x).wr Fld.lk_LK_CRED01_TC1 (cr.getD 1 0) x).wr Fld.lk_LK_CRED23_TC2 (cr.getD 2 0) x).wr
    Fld.lk_LK_CRED23_TC3 (cr.getD 3 0) x

/-- CODEWORD_LOCK: the pairs that locked; the own IDENT goes out (R351), in TRAINING with the allotments that take effect. -/
def Ctl.codeword (c : Ctl) (x : Nat) (p0 p1 : Bool) : Ctl :=
  if !p0 && !p1 then c.attemptFail x
  else
    let c := (if c.lkState x == 1 then c.takeAllot x else c).onLink x (fun l => { l with event := 4, pairs := [p0, p1] })
    c.send (.flit x ((c.link x).ctrlFlit (c.identMsg x)))

def execCodewordLock (link : Nat) (pair0 pair1 : Bool) (s : State) : Host.Outcome State Fault Refusal :=
  if s.m.ctl.linkAt link 3 = true then .next (s.onM (·.onCtl (·.codeword link pair0 pair1))) else .next s

/-- `WIDTH` of the pairs that work on both sides. -/
def widthOf (p0 p1 : Bool) : Nat := if p0 && p1 then 0 else if p0 then 1 else if p1 then 2 else 3

/-- The partner as an IDENT names it. -/
def Ctl.notePeer (c : Ctl) (x : Nat) (b : List Nat) : Ctl :=
  ((c.wr Fld.lk_LK_PEER_COORD (fieldAt b 4 2) x).wr Fld.lk_LK_PEER_LINK (b.getD 1 0) x).wr Fld.lk_LK_PEER_VALID 1 x

/-- LINK_UP, and LINK_DEGRADED at width 2. -/
def Ctl.postUp (c : Ctl) (x : Nat) : Ctl :=
  let w := c.rd Fld.lk_LK_STATE_WIDTH x
  let c := c.post 0x0501 3 (linkDie x) (x % 9) [w]
  if w == 1 || w == 2 then c.post 0x0502 2 (linkDie x) (x % 9) [w] else c

/-- Event 6: ACTIVE, `FSEQ` 0 and the partner's credits (R350). -/
def Ctl.linkUp (c : Ctl) (x : Nat) (b : List Nat) (w : Nat) : Ctl :=
  let c := (c.notePeer x b).onLink x (fun l => { l with
    event := 6, fails := 0, txSeq := 0, rxExp := 0, kept := [], resend := [], redo := [],
    peerCred := [fieldAt b 8 2, fieldAt b 10 2, fieldAt b 12 2, fieldAt b 14 2],
    sent := [0, 0, 0, 0], peerFreed := [0, 0, 0, 0], freed := [0, 0, 0, 0], used := [0, 0, 0, 0],
    asm := LinkSt.reset.asm, skip := LinkSt.reset.skip, ready := [[], [], [], []], afterBad := false })
  ((c.wr Fld.lk_LK_STATE_WIDTH w x).setLkState x 2 0).postUp x

/-- The partner an IDENT must name: the one of R323, and in retraining the one named before (R352). -/
def Ctl.identPeer (c : Ctl) (x : Nat) : Option (Nat × Nat) :=
  if c.lkState x == 1 then c.partner x else some (c.rd Fld.lk_LK_PEER_COORD x, c.rd Fld.lk_LK_PEER_LINK x)

/-- IDENT (R350 to R352, R354): one that is malformed, or comes while ACTIVE, is a violation; in bring-up the partner must be the
one expected and the protocol version equal; a retraining link notes the partner's expected `FSEQ`. One that
names a wrong partner and has a wrong version, or no lane pair in common, fails the attempt. Log 203 (DESIGN CHOICE). -/
def Ctl.identIn (c : Ctl) (x : Nat) (b : List Nat) : Ctl :=
  if c.active x then c.ctrlBad x
  else if !c.linkAt x 4 then c
  else if !(ctrlOk b 3 22 && decide (b.getD 2 0 < 4) && b.getD 3 0 == 0) then c.ctrlBad x
  else
    let l := c.link x
    let w := widthOf (l.pairs.getD 0 false && bit (b.getD 2 0) 0) (l.pairs.getD 1 false && bit (b.getD 2 0) 1)
    if fieldAt b 16 4 != 0x00040000 || w == 3 then c.attemptFail x
    else if c.identPeer x != some (fieldAt b 4 2, b.getD 1 0) then c.goDown x 3
    else if c.lkState x == 1 then c.linkUp x b w
    else ((c.notePeer x b).wr Fld.lk_LK_STATE_WIDTH w x).onLink x (fun l => { l with event := 5, peerSeq := fieldAt b 20 2 % 4096 })

/-- Log 59 (DESIGN CHOICE). -/
def execIdent (link : Nat) (bytes : List Nat) (s : State) : Host.Outcome State Fault Refusal :=
  .next (s.onM (·.onCtl (·.identIn link bytes)))

/-- RETRAIN_DONE (R352): the link is ACTIVE again and resends from the partner's expected `FSEQ`. -/
def Ctl.retrainDone (c : Ctl) (x : Nat) : Ctl :=
  let c := c.onLink x (fun l => { l with
    event := 6, fails := 0, resend := l.kept.dropWhile (fun k => k.1 != l.peerSeq) })
  (c.setLkState x 2 0).postUp x

def execRetrainDone (link : Nat) (pair0 pair1 : Bool) (s : State) : Host.Outcome State Fault Refusal :=
  if s.m.ctl.lkState link = 3 ∧ (s.m.ctl.link link).event = 5 ∧ (pair0 || pair1) = true then
    .next (s.onM (·.onCtl (·.retrainDone link)))
  else .next s

/-! ## Frames received (R332, R337) -/

/-- Take the first whole frame of a class from a link. -/
def Ctl.popFrame (c : Ctl) (x tc : Nat) : Ctl := c.onLink x (fun l => { l with ready := updAt l.ready tc (·.drop 1) })

/-- R326: a TC0 frame that fails its PCRC is discarded, and its flits are asked for again by a NAK of its own. Log 52 (DEDUCED).
Log 174 (DEDUCED). -/
def Ctl.redoTc0 (c : Ctl) (x : Nat) (a : RxAsm) : Ctl :=
  ((c.freeBufs x 0 a.seqs.length).onLink x (fun l => { l with redo := l.redo ++ a.seqs })).ctrlMsg x ([1] ++ le 2 (a.seqs.headD 0))

/-- R340: remember a TC0 frame delivered. -/
def Ctl.noteSeen (c : Ctl) (f : Frame) : Ctl :=
  { c with seen := c.seen.set f.src ((f.mseq :: Tab.get [] c.seen f.src).take 4096) }

/-- R437: an alarm of another module is posted with `REMOTE` and its source's coordinates. -/
def Ctl.remoteAlarm (c : Ctl) (f : Frame) : Ctl :=
  let b := f.payload
  let r := c.raise (fieldAt b 0 2) 0 (b.getD 16 0) (b.getD 17 0) (some f.src) (bytesAt b 24 40)
  r.2.place r.1

/-- Deliver a frame that names this module: an alarm is posted; the others reach their consumers, whose commands carry the
payload. Log 52 (DEDUCED). Log 58 (DESIGN CHOICE). -/
def Ctl.deliver (c : Ctl) (x : Nat) (f : Frame) : Ctl :=
  if f.tc = 0 && (Tab.get [] c.seen f.src).contains f.mseq then c
  else
    let c := if f.tc = 0 then c.noteSeen f else c
    if f.type = 1 then c.remoteAlarm f else c.send (.peer x f.bytes)

/-- The dimension a frame came by over a link. -/
def linkDim (x : Nat) : Option Bool := if x < 28 then none else if x < 32 then some true else some false

/-- FRAME_RECEIVE (R331, R332, R337): the header, the PCRC, the hop count; then delivery or the next hop. -/
def Ctl.frameIn (c : Ctl) (x tc : Nat) (a : RxAsm) : Ctl :=
  let c := c.popFrame x tc
  let n := a.seqs.length
  if !c.headerOk a.bytes tc then ((c.freeBufs x tc n).dropped x).violation x 2 tc (a.seqs.headD 0) (a.seqs.headD 0) (a.bytes.take 32)
  else
    let f := parseFrame a.bytes
    let good := crc32c f.payload == f.pcrc
    if tc == 0 && !good then (let c := c.redoTc0 x a
       if f.dst == c.coord then c.bump Fld.ls_PCRC_FAIL_CNT_COUNT else c)
    else
      let c := c.freeBufs x tc n
      let f := { f with hop := f.hop + 1 }
      if 40 ≤ f.hop then c.bump Fld.ls_ROUTE_LOOP_CNT_COUNT
      else if f.dst == c.coord then
        (if good then c.deliver x f else c.bump Fld.ls_PCRC_FAIL_CNT_COUNT)
      else c.route f (linkDim x)

/-- R326, R332: does a link wait for the flits of a TC0 frame to come again? Its later TC0 frames wait with it, so that the
order sent is kept. -/
def LinkSt.again (l : LinkSt) : Bool := l.redo != []

/-- Log 58 (DESIGN CHOICE). Log 174 (DEDUCED). -/
def execFrameReceive (link tc : Nat) (s : State) : Host.Outcome State Fault Refusal :=
  match (s.m.ctl.link link).ready.getD tc [] with
  | a :: _ =>
    if (tc == 0 && (s.m.ctl.link link).again) = true then .next s
    else .next (s.onM (·.onCtl (·.frameIn link tc a)))
  | [] => .next s

end Sys2Proof.Machine
end

