-- ==== Sys2Proof/Machine/Stages.lean ====
section
/-! DEFINITION. Vector chains: decode (R194 to R197, Tables 7-2 to 7-5a), the stage operations (R195, R198 to R200, Table 7-5)
and the row stages (R203 to R209). -/

namespace Sys2Proof.Machine

/-! ## The descriptor -/

/-- Table 7-3. -/
def stageOf (w : Nat) : Stage := ⟨w % 64, bitsOf w 6 6, bitsOf w 12 6, bitsOf w 18 6, bitsOf w 24 3⟩

/-- How many sources an operation takes, none where the code is reserved. -/
def sopArity (sop : Nat) : Option Nat :=
  if sop ∈ [0x04, 0x15, 0x16] then some 3
  else if sop ∈ [0x01, 0x02, 0x03, 0x05, 0x06, 0x07, 0x17, 0x18, 0x19, 0x1A] then some 2
  else if 0x20 ≤ sop ∧ sop ≤ 0x29 then some 2
  else if sop ≤ 0x14 ∨ sop = 0x2A ∨ sop = 0x2B then some 1
  else if 0x30 ≤ sop ∧ sop ≤ 0x38 then some 1
  else none

/-- A row stage (R203). -/
def isRowStage (sop : Nat) : Bool := decide (0x30 ≤ sop) && decide (sop ≤ 0x38)

/-- The last column of Table 7-5. -/
def sopCost (sop : Nat) : Nat :=
  if sop = 0x38 then 3 else if sop = 0x05 ∨ (0x0A ≤ sop ∧ sop ≤ 0x14) then 2 else 1

/-- An integer operation (R199). -/
def isIntOp (sop : Nat) : Bool := decide (0x20 ≤ sop) && decide (sop ≤ 0x29)

/-- May an operation's source be of either type (R195)? -/
def eitherType (sop pos : Nat) : Bool :=
  sop == 0x00 || (sop == 0x16 && decide (pos < 2)) || sop == 0x17 || sop == 0x18 || sop == 0x30 || (decide (0x32 ≤ sop) && decide (sop ≤ 0x35))

/-- Does an operation take only I32 at a source? -/
def wantsInt (sop pos : Nat) : Bool := isIntOp sop || (sop == 0x16 && pos == 2) || (sop == 0x19 && pos == 1)

/-- Type of a selector: `some true` I32, `some false` FP32, none a vector register's raw word. `tys` are the types of earlier
stages. -/
def selType (tys : List Bool) (a b : Bool) (sel : Nat) : Option Bool :=
  if sel < 8 then some (tys.getD sel false)
  else if sel = 0x08 then some a
  else if sel = 0x09 then some b
  else if sel = 0x0A ∨ sel = 0x0B ∨ sel = 0x0E then some true
  else if sel = 0x0C ∨ sel = 0x0D then some false
  else none

/-- The type a source is read as (R195). The other source of a is b, and of b it is a: c does not count, as where `vsel` takes a and b
from vector registers. Log 197 (DESIGN CHOICE). -/
def readType (tys : List Bool) (a b : Bool) (st : Stage) (pos : Nat) : Bool :=
  let sel := match pos with | 0 => st.sa | 1 => st.sb | _ => st.sc
  let other := match pos with | 0 => st.sb | _ => st.sa
  match selType tys a b sel with
  | some t => t
  | none =>
    if wantsInt st.sop pos then true
    else if eitherType st.sop pos then
      (if sopArity st.sop = some 1 then false else (selType tys a b other).getD false)
    else false

/-- The type of a stage's result. -/
def resultType (tys : List Bool) (a b : Bool) (st : Stage) : Bool :=
  let ta := readType tys a b st 0
  match st.sop with
  | 0x00 => ta
  | 0x16 => ta
  | 0x18 => ta
  | 0x17 => true
  | 0x2A => true
  | 0x30 => ta
  | 0x32 => ta
  | 0x33 => ta
  | 0x34 => true
  | 0x35 => true
  | s => isIntOp s

/-- The types of a chain's stages. -/
def stageTypes (a b : Bool) (l : List Stage) : List Bool := l.foldl (fun tys st => tys ++ [resultType tys a b st]) []

/-- Is an operation's modifier permitted (R199, Table 7-5)? -/
def modOk (ta : Bool) (st : Stage) : Bool :=
  if isIntOp st.sop || st.sop == 0x2A || (st.sop == 0x30 && ta) then st.md % 4 != 3
  else if st.sop = 0x17 then st.md != 7 else true

/-- Is a selector permitted at stage `i`? -/
def selOk (i : Nat) (bEn : Bool) (sel : Nat) : Bool := if sel < 8 then decide (sel < i) else if sel = 9 then bEn else sel != 0x0F

/-- One stage's checks: its operation, its selectors, its types, its modifier. -/
def stageOk (tys : List Bool) (a b bEn : Bool) (i n : Nat) (st : Stage) : Bool :=
  match sopArity st.sop with
  | none => false
  | some k =>
    let src := [st.sa, st.sb, st.sc].take k
    src.all (selOk i bEn) && (List.range k).all (fun p => !wantsInt st.sop p || readType tys a b st p)
      && (!isRowStage st.sop || i + 1 == n) && modOk (readType tys a b st 0) st
      && (st.sop != 0x16 || readType tys a b st 0 == readType tys a b st 1)

/-- Every stage's checks. -/
def stagesOk (a b bEn : Bool) (l : List Stage) : Bool :=
  (l.zipIdx).all (fun x => stageOk (stageTypes a b (l.take x.2)) a b bEn x.2 l.length x.1)

/-- R191: does an input enter as I32? -/
def entersInt (t : Tensor) : Bool := ((Fmt.ofCode t.fmt).map Fmt.isInt).getD false && !t.scaled

/-- May a chain read the format? -/
def chainFmt (t : Tensor) : Bool := (Fmt.ofCode t.fmt).isSome && t.fmt != 0x0B && t.fmt != 0x0F

/-- A chain's fields and tensors, with what R164 puts in force. -/
def DieSt.chainOf (x : DieSt) (die : Nat) (b : List Nat) : ChainDesc :=
  let h := hdrOf b
  let f := b.getD 9 0
  { die := die, vu := b.getD 8 0 % 16,
    stages := (List.range (min 8 (b.getD 8 0 / 16))).map (fun s => stageOf (fieldAt b (32 + 4 * s) 4)),
    bEn := bit f 0, bBcast := bitsOf f 1 2, maskEn := bit f 3, maskInv := bit f 4, maskFill := bitsOf f 5 2, dstVreg := bit f 7,
    rows := fieldAt b 10 2, cols := fieldAt b 12 2, ta := x.tens (fieldAt b 14 2), tb := x.tens (fieldAt b 16 2),
    tmask := x.tens (fieldAt b 18 2), td := x.tens (fieldAt b 20 2), dstVr := b.getD 22 0 % 32,
    cvt := x.planCvt h.layer h.role (Cvt.ofWord (fieldAt b 24 8)), layer := h.layer, role := h.role }

/-- The row stage, if any. -/
def ChainDesc.rowStage (d : ChainDesc) : Option Stage := match d.stages.getLast? with | some s => if isRowStage s.sop then some s else none | none => none

/-- Is the last stage a softmax? -/
def ChainDesc.isSmx (d : ChainDesc) : Bool := match d.rowStage with | some s => s.sop == 0x38 | none => false

/-- Does the chain produce one word a row? -/
def ChainDesc.reduces (d : ChainDesc) : Bool := d.rowStage.isSome && !d.isSmx

/-- Result words of a chain. -/
def ChainDesc.results (d : ChainDesc) : Nat := if d.reduces then d.rows else d.rows * d.cols

/-- Does a row stage other than a softmax stand anywhere among the stages, as checks 3 and 4 meet them before check 5? -/
def ChainDesc.oneWord (d : ChainDesc) : Bool := d.stages.any (fun s => isRowStage s.sop && s.sop != 0x38)

/-- Checks 2 to 4 of Table 7-5a. -/
def ChainDesc.lens (d : ChainDesc) (nstage : Nat) : Bool :=
  decide (nstage ≤ 8) && decide (d.rows ≤ d.ta.rows) && decide (d.cols ≤ d.ta.cols)
    && (!d.maskEn || (decide (d.rows ≤ d.tmask.rows) && decide (cdiv d.cols 8 ≤ d.tmask.cols)))
    && (!d.bEn || ((d.bBcast == 1 || d.bBcast == 3 || decide (d.rows ≤ d.tb.rows)) && (decide (2 ≤ d.bBcast) || decide (d.cols ≤ d.tb.cols))))
    && (d.dstVreg || (decide (d.rows ≤ d.td.rows) && decide ((if d.oneWord then 1 else d.cols) ≤ d.td.cols)))
    && (!d.stages.any (fun s => s.sop == 0x38) || decide (d.cols ≤ 16384))
    && (!d.dstVreg || decide ((if d.oneWord then d.rows else d.rows * d.cols) ≤ 256))

/-- The reserved bits of a chain descriptor. -/
def chainReserved (b : List Nat) (n : Nat) : Bool :=
  (hdrOf b).rsv == 0 && decide (b.getD 22 0 < 32) && b.getD 23 0 == 0 && cvtReserved (fieldAt b 24 8)
    && (List.range n).all (fun s => decide (fieldAt b (32 + 4 * s) 4 < 2 ^ 27)) && bitsOf (b.getD 9 0) 5 2 != 3

/-- Check 5. Log 96 (DEDUCED). -/
def ChainDesc.fields (d : ChainDesc) (b : List Nat) : Bool :=
  chainReserved b d.stages.length && stagesOk (entersInt d.ta) (entersInt d.tb) d.bEn d.stages && d.cvt.ok && chainFmt d.ta
    && localTensor d.die d.ta && (!d.bEn || (chainFmt d.tb && localTensor d.die d.tb))
    && (!d.maskEn || (d.tmask.fmt == 0x08 && localTensor d.die d.tmask))
    && (if d.dstVreg then d.cvt.tgt == 0x0E || d.cvt.tgt == 0x10
        else d.cvt.fits d.td && writerOk d.td d.layer d.role && localTensor d.die d.td)

/-- The tensor fields a chain reads. -/
def ChainDesc.reads (d : ChainDesc) (b : List Nat) : List Nat :=
  [fieldAt b 14 2] ++ (if d.bEn then [fieldAt b 16 2] else []) ++ (if d.maskEn then [fieldAt b 18 2] else [])
    ++ (if d.dstVreg then [] else [fieldAt b 20 2])

/-- Decode of a chain. -/
def Ctl.decodeChain (c : Ctl) (die : Nat) (b : List Nat) : Decoded :=
  let x := c.die die
  let d := x.chainOf die b
  let n := b.getD 8 0 / 16
  if n = 0 ∨ d.rows = 0 ∨ d.cols = 0 then .noop
  else match firstFail [((d.reads b).all (fun i => (x.tensor i).isSome), errTensor), (d.lens n, errLen), (d.fields b, errField)] with
    | some e => .reject e
    | none => .go (.chain d) 0 0

/-- The cost of one 256-element group. -/
def ChainDesc.cost (d : ChainDesc) : Nat := (d.stages.map (fun s => sopCost s.sop)).foldl (· + ·) 0

/-! ## Lane words -/

/-- FP32 as a stage result: NaN is canonical (R35). -/
def canon (c : Nat) : Nat := match fp32Val c with | .nan => 0x7FC00000 | _ => c % 2 ^ 32

/-- A word's exact value. -/
def LWord.exact : LWord → Val
  | .f c => fp32Val c
  | .i v => Val.ofInt v

/-- A word as FP32 operations read it (R200). -/
def LWord.fp : LWord → Val
  | .f c => fp32Val c
  | .i v => fp32Val (fp32Round (Val.ofInt v))

/-- A word as integer operations read it. -/
def LWord.int : LWord → Int
  | .i v => v
  | .f c => i32Of c

/-- A raw word read as a type. -/
def LWord.ofRaw (isInt : Bool) (w : Nat) : LWord := if isInt then .i (i32Of w) else .f (w % 2 ^ 32)

/-- What an element of a chain has to read from. -/
structure LaneCtx where
  a : LWord
  b : LWord
  row : Nat
  col : Nat
  lrExp : Int
  /-- the words of the vector registers that a stage names: (selector, word) -/
  vregs : List (Nat × Nat)
deriving DecidableEq, Repr

/-- A source. -/
def LaneCtx.source (x : LaneCtx) (res : List LWord) (asInt : Bool) (sel : Nat) : LWord :=
  if sel < 8 then res.getD sel (.f 0)
  else if sel = 0x08 then x.a
  else if sel = 0x09 then x.b
  else if sel = 0x0A then .i x.row
  else if sel = 0x0B then .i x.col
  else if sel = 0x0C then .f 0
  else if sel = 0x0D then .f 0x3F800000
  else if sel = 0x0E then .i x.lrExp
  else LWord.ofRaw asInt ((x.vregs.find? (fun p => p.1 == sel)).map (·.2) |>.getD 0)

/-! ## FP32 operations (R198) -/

/-- Is a value a negative zero or negative? -/
def Val.negative : Val → Bool | .fin n _ => n | .inf n => n | .nan => false

/-- `vmax`. -/
def fpMax (a b : Val) : Val :=
  if a.isNan || b.isNan then .nan
  else if a.lt b then b else if b.lt a then a
  else if a.negative then b else a

/-- `vmin`. -/
def fpMin (a b : Val) : Val :=
  if a.isNan || b.isNan then .nan
  else if a.lt b then a else if b.lt a then b
  else if a.negative then a else b

/-- `vsqrt`. -/
def fpSqrt : Val → Val
  | .nan => .nan
  | .inf n => if n then .nan else .inf false
  | .fin n m => if m.isZero then .fin n m else if n then .nan else .fin false (sqrtMag m)

/-- `vrsqrt`. -/
def fpRsqrt : Val → Val
  | .nan => .nan
  | .inf n => if n then .nan else Val.zero
  | .fin n m => if m.isZero then .inf n else if n then .nan else .fin false ((Mag.ofNat 1).div (sqrtMag m))

/-- `vrecip`. -/
def fpRecip : Val → Val
  | .nan => .nan
  | .inf n => .fin n (Mag.ofNat 0)
  | .fin n m => if m.isZero then .inf n else .fin n ((Mag.ofNat 1).div m)

/-- `vldexp`; beyond 2,000 binades every result has overflowed or vanished. -/
def fpLdexp (a : Val) (b : Int) : Val :=
  match a with
  | .fin n m => .fin n (m.scale (max (-2000) (min 2000 b)))
  | v => v

/-- `vcmp`. -/
def relation (md : Nat) (a b : Val) : Bool :=
  let un := a.isNan || b.isNan
  match md with
  | 0 => !un && a.eqv b
  | 1 => un || !a.eqv b
  | 2 => a.lt b
  | 3 => !un && (a.lt b || a.eqv b)
  | 4 => b.lt a
  | 5 => !un && (b.lt a || a.eqv b)
  | _ => un

/-- The functions that `RealFn.eval` computes. -/
def realFn : Nat → Option RealFn
  | 0x0D => some .exp | 0x0E => some .exp2 | 0x0F => some .ln | 0x10 => some .log2
  | 0x11 => some .tanh | 0x12 => some .sigm | 0x13 => some .gelu | 0x14 => some .silu
  | _ => none

/-- An FP32 operation's result code. -/
def fpOp (sop : Nat) (a b c : Val) : Nat :=
  match realFn sop with
  | some g => g.eval a
  | none =>
    fp32Round (match sop with
      | 0x01 => a.add b
      | 0x02 => a.add b.negate
      | 0x03 => a.mul b
      | 0x04 => (a.mul b).add c
      | 0x05 => a.div b
      | 0x06 => fpMax a b
      | 0x07 => fpMin a b
      | 0x08 => a.abs
      | 0x09 => a.negate
      | 0x0A => fpSqrt a
      | 0x0B => fpRsqrt a
      | 0x0C => fpRecip a
      | 0x15 => fpMin (fpMax a b) c
      | _ => a)

/-! ## Integer operations (R199) -/

/-- The exact result. -/
def intExact (sop md : Nat) (a b : Int) : Int :=
  let ca := i32Code a
  let cb := i32Code b
  match sop with
  | 0x20 => a + b
  | 0x21 => a - b
  | 0x22 => a * b
  | 0x23 => max a b
  | 0x24 => min a b
  | 0x25 => i32Of (ca &&& cb)
  | 0x26 => i32Of (ca ||| cb)
  | 0x27 => i32Of (ca ^^^ cb)
  | 0x28 => i32Of (ca * 2 ^ (cb % 32))
  | _ => if bit md 2 then a / (2 ^ (cb % 32) : Nat) else i32Of (ca / 2 ^ (cb % 32))

/-- An integer stage: its result and whether it raised SAT. -/
def intOp (sop md : Nat) (a b : Int) : Int × List Nat :=
  if sop = 0x28 then (intExact sop md a b, [])
  else
    let r := intSat .i32 (md % 4) (intExact sop md a b)
    (r.1, r.2.map CvtEvent.idx)

/-- `vicvt`. A nonzero value that rounds to 0 raises no event here: Table 7-11 names UNF for the output conversion only, and R53
speaks of conversions. Log 148 (DEDUCED). -/
def icvt (md : Nat) (a : Val) : Int × List Nat :=
  match a with
  | .nan => (0, [3])
  | .inf n => (if n then -2147483648 else 2147483647, [0])
  | .fin n m =>
    let r := roundFinite .i32 (if bit md 2 then .rz else .rn) false (md % 4) 0 n m
    (i32Of r.code, (r.events.map CvtEvent.idx).filter (fun e => e != 2))

/-! ## One element through the stages -/

/-- An element in a chain: the results of its stages, whether it participates, its events, and the squares of its `vlnratio`. -/
structure LaneRun where
  res : List LWord
  part : Bool
  ev : List Nat
  dw : List Val
  w : List Val
deriving DecidableEq, Repr

/-- One stage that is no row stage. -/
def LaneCtx.stage (x : LaneCtx) (ta tb : Bool) (r : LaneRun) (st : Stage) : LaneRun :=
  if !r.part then { r with res := r.res ++ [.f 0] }
  else
    let tys := r.res.map (fun w => match w with | .i _ => true | .f _ => false)
    let src (p sel : Nat) : LWord := x.source r.res (readType tys ta tb st p) sel
    let a := src 0 st.sa
    let b := src 1 st.sb
    let c := src 2 st.sc
    let put (w : LWord) (ev : List Nat) : LaneRun := { r with res := r.res ++ [w], ev := r.ev ++ ev }
    let clean (w : LWord) : LWord := match w with | .f c => .f (canon c) | w => w
    if isIntOp st.sop then (let q := intOp st.sop st.md a.int b.int; put (.i q.1) q.2)
    else match st.sop with
      | 0x00 => put (clean a) []
      | 0x16 => put (clean (if c.int = 0 then b else a)) []
      | 0x17 => put (.i (b2n (relation st.md a.exact b.exact))) []
      | 0x18 =>
        let stays := match b with | .i v => v != 0 | .f c => !(fp32Val c).isZero
        { put (clean a) [] with part := stays }
      | 0x19 => put (.f (fp32Round (fpLdexp a.fp b.int))) []
      | 0x1A => { put (.f (fp32Round a.fp)) [] with dw := r.dw ++ [a.fp.mul a.fp], w := r.w ++ [b.fp.mul b.fp] }
      | 0x2A => (let q := icvt st.md a.fp; put (.i q.1) q.2)
      | 0x2B => put (.f (fp32Round a.fp)) []
      | s => put (.f (fpOp s a.fp b.fp c.fp)) []

/-! ## Row stages (R203 to R209) -/

/-- The exact sum of values (R45, R204). -/
def sumVals (l : List Val) : Val :=
  if l.any Val.isNan then .nan
  else if l.any (fun v => v == .inf false) && l.any (fun v => v == .inf true) then .nan
  else if l.any (fun v => v == .inf false) then .inf false
  else if l.any (fun v => v == .inf true) then .inf true
  else
    let one (v : Val) : Int := match v with
      | .fin n m => (let x : Int := ((m.scale 149).num / (m.scale 149).den : Nat); if n then -x else x)
      | _ => 0
    let t := (l.map one).foldl (· + ·) 0
    .fin (decide (t < 0)) (Mag.dyadic t.natAbs (-149))

/-- R205: one level of the tree. -/
def prodLevel : List Val → List Val
  | a :: b :: t => fp32Val (fp32Round (a.mul b)) :: prodLevel t
  | l => l

/-- The product of a row. -/
def prodTree : Nat → List Val → Val
  | 0, l => l.headD (Val.ofInt 1)
  | n + 1, l => prodTree n (prodLevel l)

/-- The best of a row by a test "x beats y", the first among equals. -/
def bestOf {α : Type} (beats : α → α → Bool) : List α → Option α
  | [] => none
  | x :: t => some (t.foldl (fun y z => if beats z y then z else y) x)

/-- `x` above `y` for `vrargmax`: NaN above every number, +0 above −0. -/
def aboveMax (x y : LWord) : Bool :=
  match x, y with
  | .i a, .i b => decide (b < a)
  | _, _ =>
    let a := x.fp
    let b := y.fp
    if b.isNan then false
    else if a.isNan then true
    else b.lt a || (a.isZero && b.isZero && !a.negative && b.negative)

/-- `x` below `y` for `vrargmin`. -/
def belowMin (x y : LWord) : Bool :=
  match x, y with
  | .i a, .i b => decide (a < b)
  | _, _ =>
    let a := x.fp
    let b := y.fp
    if b.isNan then false
    else if a.isNan then true
    else a.lt b || (a.isZero && b.isZero && a.negative && !b.negative)

/-- Are the words of a row integers? -/
def intsRow (l : List (Nat × LWord)) (ta : Bool) : Bool := match l with | (_, .i _) :: _ => true | (_, .f _) :: _ => false | [] => ta

/-- Table 7-6. -/
def rowIdentity (sop : Nat) (ints : Bool) : LWord :=
  match sop with
  | 0x31 => .f 0x3F800000
  | 0x32 => if ints then .i (-2147483648) else .f 0xFF800000
  | 0x33 => if ints then .i 2147483647 else .f 0x7F800000
  | 0x34 => .i (-1)
  | 0x35 => .i (-1)
  | _ => if ints && sop == 0x30 then .i 0 else .f 0

/-- A reduction of the participating elements (column, word) of a row that has some. -/
def reduceRow (st : Stage) (ints : Bool) (l : List (Nat × LWord)) : LWord × List Nat :=
  let vals := l.map (fun p => p.2.fp)
  match st.sop with
  | 0x30 =>
    if ints then
      let r := intSat .i32 (st.md % 4) ((l.map (fun p => p.2.int)).foldl (· + ·) 0)
      (.i r.1, r.2.map CvtEvent.idx)
    else (.f (fp32Round (sumVals vals)), [])
  | 0x31 => (.f (fp32Round (prodTree (l.length + 1) vals)), [])
  | 0x32 =>
    if ints then (.i ((l.map (fun p => p.2.int)).foldl max (-2147483648)), [])
    else (.f (fp32Round (vals.foldl fpMax (.inf true))), [])
  | 0x33 =>
    if ints then (.i ((l.map (fun p => p.2.int)).foldl min 2147483647), [])
    else (.f (fp32Round (vals.foldl fpMin (.inf false))), [])
  | 0x34 => (.i (((bestOf (fun x y => aboveMax x.2 y.2) l).map (fun p => (p.1 : Int))).getD (-1)), [])
  | 0x35 => (.i (((bestOf (fun x y => belowMin x.2 y.2) l).map (fun p => (p.1 : Int))).getD (-1)), [])
  | 0x36 => (.f (fp32Round (sumVals (vals.map (fun v => fp32Val (fp32Round (v.mul v)))))), [])
  | _ => (.f (fp32Round (sumVals (vals.map Val.abs))), [])

/-- R208: the softmax of finite values with a finite or infinite least. -/
def softmax (base2 : Bool) (l : List Val) : List Nat :=
  let m := l.foldl fpMax (.inf true)
  let e := l.map (fun x =>
    let t := fp32Val (fp32Round (x.add m.negate))
    if base2 then RealFn.exp2.eval t else RealFn.exp.eval t)
  let s := fp32Val (fp32Round (sumVals (e.map fp32Val)))
  e.map (fun v => fp32Round ((fp32Val v).div s))

/-- R209: a softmax row: the words of the participating elements in order, and its event: 16 ROW_MASKED, 17 INF_TIE, 18
SMX_NAN. -/
def smxRow (base2 : Bool) (l : List Val) : List Nat × Option Nat :=
  let k := (l.filter (fun v => v == .inf false)).length
  if l.isEmpty then ([], some 16)
  else if l.any Val.isNan then (l.map (fun _ => 0x7FC00000), some 18)
  else if 0 < k then
    (l.map (fun v => if v == .inf false then fp32Round (.fin false ⟨1, k⟩) else 0), some 17)
  else if l.all (fun v => v == .inf true) then (l.map (fun _ => 0), some 16)
  else (softmax base2 l, none)

end Sys2Proof.Machine
end

