-- ==== Sys2Proof/Machine/Routed.lean ====
section
/-! DEFINITION. Routed work: decode, choices, dispatch, expert issue and combine (R216 to R237, R263, Tables 8-1 to 8-10, 9-12). The
spec gives no layout for count blocks, returned counts, row blocks and returns; the ones here are the model's. -/

namespace Sys2Proof.Machine

/-! ## The descriptors (Tables 8-3, 8-5) -/

/-- The fields of `rt.topk`. -/
def DieSt.topkOf (x : DieSt) (die : Nat) (b : List Nat) : TopkDesc :=
  { die := die, vu := b.getD 8 0 % 16, k := b.getD 8 0 / 16, gate := b.getD 9 0 % 4, biasEn := bit (b.getD 9 0) 2,
    maskEn := bit (b.getD 9 0) 3, t := fieldAt b 12 4, e := fieldAt b 16 2, logit := x.tens (fieldAt b 18 2),
    bias := x.tens (fieldAt b 20 2), mask := x.tens (fieldAt b 22 2), choice := x.tens (fieldAt b 24 2) }

/-- The fields of `rt.disp` and `rt.comb`, issued by a run of offset `off`. -/
def DieSt.routeOf (x : DieSt) (die off : Nat) (b : List Nat) : RouteDesc :=
  let f := b.getD 8 0
  let h := hdrOf b
  { die := die, global := bit f 0, wmode := bit f 1, keepRet := bit f 2, noSend := bit f 3, k := f / 16, group := fieldAt b 10 2,
    t := fieldAt b 12 4, e := fieldAt b 16 2, choice := x.tens (fieldAt b 20 2), map := x.tens (fieldAt b 22 2),
    rows := x.tens (fieldAt b 24 2), tab := x.tens (fieldAt b 26 2), count := x.tens (fieldAt b 28 2), ret := x.tens (fieldAt b 30 2),
    cvt := x.planCvt h.layer h.role (Cvt.ofWord (fieldAt b 32 8)), layer := h.layer, role := h.role, off := off, tens := [] }

/-! ## Groups and the expert map (R216, R218) -/

/-- A group of the current Roll Call record. -/
def Ctl.group (c : Ctl) (id : Nat) : Option GroupEnt := c.job.roll.groups.find? (fun g => g.id == id)

/-- An expert as the map gives it: its owner, its local number, its capacity; none where the entry is unusable. -/
structure Expert where
  rank : Nat
  die : Nat
  loc : Nat
  cap : Nat
deriving DecidableEq, Repr

/-- Map entry `e`. -/
def Module.expert (m : Module) (die : Nat) (map : Tensor) (group e : Nat) : Option Expert :=
  let r := m.record die map (8 * e) 8
  let x : Expert := ⟨fieldAt r.1 0 2, r.1.getD 2 0, r.1.getD 3 0, fieldAt r.1 4 4⟩
  match m.ctl.group group with
  | some g => if r.2 || 8 ≤ x.die || g.members.length ≤ x.rank then none else some x
  | none => none

/-- The map of a routing descriptor. -/
def Module.experts (m : Module) (d : RouteDesc) : List (Option Expert) := (List.range d.e).map (m.expert d.die d.map d.group)

/-- This module's rank in a group. -/
def Ctl.rankIn (c : Ctl) (group : Nat) : Nat := match c.group group with | some g => g.rank | none => 0

/-- Is an expert this die's own? Log 105 (DEDUCED). -/
def Ctl.mine (c : Ctl) (d : RouteDesc) (x : Expert) : Bool := x.die == d.die && x.rank == c.rankIn d.group

/-- The global experts this die owns, with their entries. -/
def Ctl.owned (c : Ctl) (d : RouteDesc) (m : List (Option Expert)) : List (Nat × Expert) :=
  m.zipIdx.filterMap (fun p => match p.1 with | some x => if c.mine d x then some (p.2, x) else none | none => none)

/-- The dies the map names, which are taken for the layer's sources, by rank and die. Log 105 (DEDUCED). -/
def mapDies (m : List (Option Expert)) : List (Nat × Nat) :=
  m.foldl (fun l p => match p with | some x => if l.contains (x.rank, x.die) then l else l ++ [(x.rank, x.die)] | none => l) []

/-- The tensor a local expert's table entry names; a poisoned entry names none. Log 166 (DESIGN CHOICE). -/
def Module.tabTens (m : Module) (d : RouteDesc) (n : Nat) : Option Tensor :=
  let r := m.record d.die d.tab n 1
  if r.2 then none else (m.ctl.die d.die).tensor (r.1.getD 0 0)

/-- The same, with the format in force as it was at decode (R164, R242). -/
def Module.expertTens (m : Module) (d : RouteDesc) (n : Nat) : Option Tensor :=
  match d.tens.find? (fun p => p.1 == n) with
  | some p => some p.2
  | none => m.tabTens d n

/-- A descriptor with the tensors of this die's experts, as they stand at decode (R242). -/
def Module.withTens (m : Module) (d : RouteDesc) : RouteDesc :=
  { d with tens := (m.ctl.owned d (m.experts d)).filterMap (fun p => (m.tabTens d p.2.loc).map (fun t => (p.2.loc, t))) }

/-- What reading the table entries of this die's experts raises (R217, R310). -/
def Module.tabSeen (m : Module) (d : RouteDesc) (own : List (Nat × Expert)) : Seen :=
  (own.map (fun p => m.recordSeen d.die d.tab p.2.loc 1)).foldl Seen.add Seen.none

/-- The descriptor as decode read it. -/
def RouteRun.move (r : RouteRun) (x : DieSt) (die : Nat) (b : List Nat) : RouteDesc :=
  match r.op with | .move d => d | _ => x.routeOf die 0 b
def RouteRun.topk (r : RouteRun) (x : DieSt) (die : Nat) (b : List Nat) : TopkDesc :=
  match r.op with | .topk d => d | _ => x.topkOf die b

/-! ## Decode (R219, R225, R256, R342) -/

/-- Does a tensor hold `n` elements? -/
def Tensor.fitsN (t : Tensor) (n : Nat) : Bool := decide (n ≤ t.size)

/-- Decode of `rt.topk`. Log 106 (DEDUCED). -/
def Ctl.decodeTopk (c : Ctl) (die : Nat) (b : List Nat) : Decoded :=
  let x := c.die die
  let d := x.topkOf die b
  let reads := [fieldAt b 18 2, fieldAt b 24 2] ++ (if d.biasEn then [fieldAt b 20 2] else []) ++ (if d.maskEn then [fieldAt b 22 2] else [])
  if d.k = 0 ∨ d.t = 0 then .noop
  else match firstFail [
      (reads.all (fun i => (x.tensor i).isSome), errTensor),
      (decide (d.k ≤ 8) && decide (d.e ≤ 4096) && decide (d.t ≤ d.logit.rows) && decide (d.e ≤ d.logit.cols)
        && (!d.biasEn || d.bias.fitsN d.e) && (!d.maskEn || d.mask.fitsN (cdiv d.t 8)) && d.choice.fitsN (16 * d.t * d.k), errLen),
      ((hdrOf b).rsv == 0 && d.gate != 3 && decide (b.getD 9 0 < 16) && zeroBytes b 10 2 && zeroBytes b 26 38
        && (d.logit.fmt == 0x0E || d.logit.fmt == 0x0C) && (!d.biasEn || d.bias.fmt == 0x0E) && (!d.maskEn || d.mask.fmt == 0x08)
        && d.choice.fmt == 0x08 && ([d.logit, d.choice] ++ (if d.biasEn then [d.bias] else []) ++ (if d.maskEn then [d.mask] else [])).all
          (localTensor die), errField)] with
    | some e => .reject e
    | none => .go (.route { RouteRun.reset with op := .topk d }) 0 0

/-- The rows that admission can place in an input tensor fit its extent (R225). -/
def Module.capOk (m : Module) (d : RouteDesc) : Bool :=
  let map := m.experts d
  let n := (mapDies map).length
  (m.ctl.owned d map).all (fun p =>
    match m.expertTens d p.2.loc with
    | some t => decide ((if d.global then p.2.cap else p.2.cap * n) ≤ t.rows)
    | none => true)

/-- The extents of a dispatch or combine. -/
def RouteDesc.lens (d : RouteDesc) (disp : Bool) : Bool :=
  decide (d.k ≤ 8) && decide (d.e ≤ 4096) && d.choice.fitsN (16 * d.t * d.k) && d.map.fitsN (8 * d.e) && d.tab.fitsN 256
    && decide (d.t ≤ d.rows.rows) && (if disp then d.count.fitsN (16 * d.e) else !d.keepRet || decide (d.t * d.k ≤ d.ret.rows))

/-- R26, Table 2-1: formats a moved row may have: all but L8 and S8, which have a use of their own. Log 167 (DEDUCED). -/
def rowFmt (f : Nat) : Bool := (Fmt.ofCode f).isSome && f != 0x0B && f != 0x0F

/-- The tensors of this die's experts that a dispatch writes or a combine reads. -/
def Module.expertTensors (m : Module) (d : RouteDesc) : List Tensor :=
  (m.ctl.owned d (m.experts d)).filterMap (fun p => m.expertTens d p.2.loc)

/-- R26, R241, R242: the experts' tensors have formats that rows may have, lie where the die reaches and, where the dispatch writes them,
are its own to write. Log 167 (DEDUCED). -/
def Module.expertsOk (m : Module) (d : RouteDesc) (writes : Bool) : Bool :=
  (m.expertTensors d).all (fun t => rowFmt t.fmt && localTensor d.die t && (!writes || writerOk t d.layer d.role))

/-- U16: Ub with b = 16 (Table 2-1). -/
def fmtU16 : Nat := 0x2F

/-- Decode of `rt.disp`. -/
def Module.decodeDisp (m : Module) (die off : Nat) (b : List Nat) : Decoded :=
  let x := m.ctl.die die
  let d := m.withTens (x.routeOf die off b)
  match firstFail [
      ([20, 22, 24, 26, 28].all (fun o => (x.tensor (fieldAt b o 2)).isSome), errTensor),
      (d.lens true && m.capOk d, errLen),
      ((hdrOf b).rsv == 0 && !d.keepRet && b.getD 9 0 == 0 && zeroBytes b 30 34 && (m.ctl.group d.group).isSome
        && d.choice.fmt == 0x08 && d.map.fmt == 0x08 && d.tab.fmt == fmtU16 && d.count.fmt == 0x08 && rowFmt d.rows.fmt && m.expertsOk d true
        && [d.choice, d.count].all (writerOk · d.layer d.role)
        && [d.choice, d.map, d.rows, d.tab, d.count].all (localTensor die), errField)] with
    | some e => .reject e
    | none => .go (.route { RouteRun.reset with op := .move d }) 0 0

/-- Decode of `rt.comb`. -/
def Module.decodeComb (m : Module) (die off : Nat) (b : List Nat) : Decoded :=
  let x := m.ctl.die die
  let d := m.withTens (x.routeOf die off b)
  if d.t = 0 then .noop
  else match firstFail [
      ([20, 22, 24, 26].all (fun o => (x.tensor (fieldAt b o 2)).isSome) && (!d.keepRet || (x.tensor (fieldAt b 30 2)).isSome), errTensor),
      (d.lens false, errLen),
      ((hdrOf b).rsv == 0 && !d.global && b.getD 9 0 == 0 && zeroBytes b 28 2 && zeroBytes b 40 24
        && cvtReserved (fieldAt b 32 8) && (m.ctl.group d.group).isSome && d.choice.fmt == 0x08 && d.map.fmt == 0x08
        && d.tab.fmt == fmtU16 && d.cvt.ok && d.cvt.fits d.rows && m.expertsOk d false && (!d.keepRet || rowFmt d.ret.fmt)
        && ([d.choice, d.rows] ++ (if d.keepRet then [d.ret] else [])).all (writerOk · d.layer d.role)
        && ([d.choice, d.map, d.rows, d.tab] ++ (if d.keepRet then [d.ret] else [])).all (localTensor die), errField)] with
    | some e => .reject e
    | none => .go (.route { RouteRun.reset with op := .move d }) 0 0

/-- The queues the templates of `rt.exloop` name are the issuing core's (R263). -/
def Module.templatesOk (m : Module) (die owner first n : Nat) : Bool :=
  (List.range n).all (fun i =>
    let q := (hdrOf (memRead m.mem (descAddr m.ctl die (first + i)) 64)).queue
    m.ctl.on Fld.que_Q_CTRL_ENABLE die q && m.ctl.rd Fld.que_Q_CTRL_OWNER die q == owner)

/-- Decode of `rt.exloop`. -/
def Module.decodeExloop (m : Module) (die q : Nat) (b : List Nat) : Decoded :=
  let x := m.ctl.die die
  let n := fieldAt b 18 2
  let nd := b.getD 20 0 % 32
  let total := match x.lesson with | some l => l.descCount | none => 0
  if n = 0 ∨ nd = 0 then .noop
  else match firstFail [
      ((x.tensor (fieldAt b 8 2)).isSome && (x.tensor (fieldAt b 10 2)).isSome, errTensor),
      (decide (b.getD 16 0 + n ≤ 256) && decide (nd ≤ 16) && decide (fieldAt b 24 4 + n * nd ≤ total)
        && (x.tens (fieldAt b 8 2)).fitsN (8 * fieldAt b 14 2) && (x.tens (fieldAt b 10 2)).fitsN (16 * fieldAt b 14 2), errLen),
      ((hdrOf b).rsv == 0 && b.getD 17 0 == 0 && decide (b.getD 20 0 < 32) && zeroBytes b 21 3 && zeroBytes b 28 36
        && (x.tens (fieldAt b 8 2)).fmt == 0x08 && (x.tens (fieldAt b 10 2)).fmt == 0x08
        && localTensor die (x.tens (fieldAt b 8 2)) && localTensor die (x.tens (fieldAt b 10 2))
        && m.templatesOk die (m.ctl.rd Fld.que_Q_CTRL_OWNER die q) (fieldAt b 24 4) (n * nd), errField)] with
    | some e => .reject e
    | none => .go (.route RouteRun.reset) 0 0

/-! ## Running descriptors -/

/-- The routing run of a running descriptor, with its bytes. -/
def Ctl.routeRun (c : Ctl) (die q seq opc : Nat) : Option (List Nat × RouteRun) :=
  match c.desc die q seq with
  | some d => (match d.stage, d.work with
    | .running, .route r => if d.raw.getD 0 0 = opc then some (d.raw, r) else none
    | _, _ => none)
  | none => none

def Ctl.setRoute (c : Ctl) (die q seq : Nat) (r : RouteRun) : Ctl := c.onDesc die q seq (fun d => { d with work := .route r })

/-- `RTSTAT` (Table 8-8). -/
def RouteRun.word (r : RouteRun) : Nat :=
  r.stat + 2 ^ 16 * min 65535 r.dropped + 2 ^ 32 * min 65535 r.tokDropped + 2 ^ 48 * min 65535 r.skipped

def RouteRun.flag (r : RouteRun) (k : Nat) : RouteRun := { r with stat := setBit r.stat k true }

/-- An event of Table 8-10, `n` times: in the routing block and in the unit counter of the issuing core. -/
def Ctl.rtCount (c : Ctl) (die unit : Nat) (f : Fld) (i n : Nat) : Ctl := if n = 0 then c else (c.bump f die 0 n).count die unit i n

/-! ## Choice records (Table 8-4) -/

structure Choice where
  tok : Nat
  kr : Nat
  gate : Nat
  expert : Nat
  status : Nat
  slot : Nat
deriving DecidableEq, Repr

def Choice.bytes (x : Choice) : List Nat := le 4 x.gate ++ le 2 x.expert ++ [x.kr, x.status] ++ le 4 x.slot ++ [0, 0, 0, 0]

/-- A choice without an expert: NONE 4, MASKED 5, NAN 6. -/
def noChoice (tok kr status : Nat) : Choice := ⟨tok, kr, 0, 0xFFFF, status, 0xFFFFFFFF⟩

/-- A choice record as read: STATUS NONE where it is poisoned. -/
def Module.choice (m : Module) (die : Nat) (t : Tensor) (k tok kr : Nat) : Choice :=
  let r := m.record die t (16 * (tok * k + kr)) 16
  if r.2 then noChoice tok kr 4
  else ⟨tok, kr, fieldAt r.1 0 4, fieldAt r.1 4 2, r.1.getD 7 0 % 16, fieldAt r.1 8 4⟩

/-- What reading the choice records raises. -/
def Module.choiceSeen (m : Module) (d : RouteDesc) : Seen := m.recordSeen d.die d.choice 0 (16 * d.t * d.k)

/-- Every choice of a descriptor, by token and k-rank. -/
def Module.choices (m : Module) (d : RouteDesc) : List Choice :=
  ((List.range d.t).map (fun t => (List.range d.k).map (fun j => m.choice d.die d.choice d.k t j))).flatten

/-- The writes of choice records. -/
def choiceOuts (t : Tensor) (k : Nat) (l : List Choice) : List Out :=
  (l.map (fun x => t.outsAt (16 * (x.tok * k + x.kr)) x.bytes)).flatten

/-! ## rt.topk (R219 to R221) -/

/-- Does key `x` of expert `a` come before key `y` of a later expert `b`? The spec gives no place to a NaN key. Log 100 (DESIGN CHOICE). -/
def keyBeats (x y : Nat × Nat) : Bool :=
  let a := fp32Val x.2
  let b := fp32Val y.2
  if a.isNan || b.isNan then Config.openValue 1 [x.1, x.2, y.1, y.2] % 2 == 1 else b.lt a

/-- The first `k` of experts by descending key, the lower number first among equals. Log 100 (DESIGN CHOICE). -/
def topChoices : Nat → List (Nat × Nat) → List Nat
  | 0, _ => []
  | n + 1, l =>
    match bestOf keyBeats l with
    | none => []
    | some x => x.1 :: topChoices n (l.filter (fun y => y.1 != x.1))

/-- FP32 code of a logit or bias element; a poisoned one is a NaN. -/
def Module.fpElem (m : Module) (die : Nat) (t : Tensor) (p : Nat × Nat) : Nat :=
  canon (fp32Round (elemVal t.fmt (m.elem die t (if t.scaled then .block else .all 0xFF) p.1 p.2)))

/-- Is a token masked? Poison masks. The mask bit's sense is a chain's: 1 takes part. Log 106 (DEDUCED). -/
def Module.tokenMasked (m : Module) (d : TopkDesc) (t : Nat) : Bool :=
  d.maskEn && (let r := m.record d.die d.mask (t / 8) 1; r.2 || !bit (r.1.getD 0 0) (t % 8))

/-- The gates of chosen experts from the logits of a token, and a softmax event. -/
def gatesOf (mode : Nat) (x : List Nat) (chosen : List Nat) : List Nat × Option Nat :=
  let v (e : Nat) : Val := fp32Val (x.getD e 0)
  match mode with
  | 0 => (let q := smxRow false ((List.range x.length).map v); (chosen.map (fun e => q.1.getD e 0), q.2))
  | 1 => smxRow false (chosen.map v)
  | _ => (chosen.map (fun e => x.getD e 0), none)

/-- The choices of one token, whether it had a NaN logit, and its softmax event. -/
def Module.topkToken (m : Module) (d : TopkDesc) (t : Nat) : List Choice × Bool × Option Nat :=
  let ks := List.range d.k
  if m.tokenMasked d t then (ks.map (fun j => noChoice t j 5), false, none)
  else
    let x := (List.range d.e).map (fun e => m.fpElem d.die d.logit (t, e))
    if x.any (fun c => (fp32Val c).isNan) then (ks.map (fun j => noChoice t j 6), true, none)
    else
      let s := (List.range d.e).map (fun e =>
        (e, if d.biasEn then fp32Round ((fp32Val (x.getD e 0)).add (fp32Val (m.fpElem d.die d.bias (d.bias.flat e)))) else x.getD e 0))
      let ch := topChoices d.k (s.filter (fun p => fp32Val p.2 != .inf true))
      let g := if ch.isEmpty then ([], none) else gatesOf d.gate x ch
      (ks.map (fun j => match ch[j]? with
        | some e => ⟨t, j, g.1.getD j 0, e, 0, 0xFFFFFFFF⟩
        | none => noChoice t j 4), false, g.2)

/-- What `rt.topk` raises by reading the tokens `ts`; the bias counts with the first. -/
def Module.topkSeen (m : Module) (d : TopkDesc) (ts : List Nat) : Seen :=
  let rows := ts.map (fun t =>
    let k := if d.maskEn && t % 8 == 0 then m.recordSeen d.die d.mask (t / 8) 1 else Seen.none
    if m.tokenMasked d t then k
    else k.add (m.seenAt d.die d.logit (if d.logit.scaled then .block else .all 0xFF) ((List.range d.e).map (fun e => (t, e)))))
  rows.foldl Seen.add (if d.biasEn && ts.contains 0 then m.recordSeen d.die d.bias 0 d.e else Seen.none)

/-- A consumer has read rows of several tensors (R192). -/
def Ctl.eachTook (c : Ctl) (die : Nat) (l : List (Tensor × Nat)) : Ctl := c.each l (fun c p => c.took die p.1 p.2)

/-- Rows of one tensor. -/
def Tensor.rowsOf (t : Tensor) (l : List Nat) : List (Tensor × Nat) := l.map (fun r => (t, r))

/-- The rows `rt.topk` reads for every token: those of the bias and of the token mask. -/
def TopkDesc.common (d : TopkDesc) : List (Tensor × Nat) :=
  (if d.biasEn then d.bias.rowsOf (d.bias.rowSpan 0 d.e) else []) ++ (if d.maskEn then d.mask.rowsOf (d.mask.rowSpan 0 (cdiv d.t 8)) else [])

/-- The tokens, from `i` on, whose rows may be read now (R192). -/
def Ctl.tokensReady (c : Ctl) (die : Nat) (t : Tensor) (i n : Nat) : List Nat :=
  let l := (List.range (n - i)).map (i + ·)
  l.take (c.readyRun die [] (t.rowsOf l))

/-- The tokens that `rt.topk` may do now. -/
def Ctl.topkReady (c : Ctl) (d : TopkDesc) (i : Nat) : List Nat :=
  if c.readable d.die d.common then c.tokensReady d.die d.logit i d.t else []

/-- `rt.topk`: the tokens whose logits stand ready (R192), all of them outside a tile buffer. -/
def Module.topk (m : Module) (die q seq : Nat) (b : List Nat) (r : RouteRun) : Module :=
  let d := r.topk (m.ctl.die die) die b
  let ts := m.ctl.topkReady d r.next
  let last := r.next + ts.length == d.t
  let res := ts.map (m.topkToken d)
  let sn := m.topkSeen d ts
  let nans := (res.filter (fun x => x.2.1)).length
  let evs := res.filterMap (fun x => x.2.2)
  let m := m.putThrough die (0x60 + d.vu) (some (q, seq)) d.choice (choiceOuts d.choice d.k (res.map (·.1)).flatten) []
  m.onCtl (fun c =>
    let c := (c.saw die (0x60 + d.vu) sn).rtCount die (c.ccUnit die q) Fld.rt_RT_NAN_CNT_COUNT 28 nans
    let c := c.eachTook die (d.logit.rowsOf ts ++ (if last then d.common else []))
    let c := c.each evs (fun c i => (c.count die (0x60 + d.vu) i).bump
      (if i = 16 then Fld.vu_ROW_MASKED_CNT_COUNT else if i = 17 then Fld.vu_INF_TIE_CNT_COUNT else Fld.vu_SMX_NAN_CNT_COUNT) (16 * die + d.vu))
    c.setRoute die q seq { (if nans = 0 then r else r.flag 2) with next := r.next + ts.length, event := if last then 7 else 1 })

def execRtTopk (die queue seq : Nat) (s : State) : Host.Outcome State Fault Refusal :=
  match s.m.ctl.dieUp die, s.m.ctl.routeRun die queue seq 0x30 with
  | true, some (b, r) =>
    if r.event = 7 ∨ s.m.ctl.topkReady (r.topk (s.m.ctl.die die) die b) r.next = [] then .next s
    else .next (s.onM (·.topk die queue seq b r))
  | _, _ => .next s

/-! ## Row values -/

/-- The code of a value in a format, where the format holds it; an open value elsewhere: the spec gives no rounding. Log 101 (DESIGN CHOICE). -/
def exactCode (f : Fmt) (v : Val) : Nat :=
  match v with
  | .fin n m =>
    let c := (roundFinite f .rn false 0 0 n m).code
    if (decodeElem f c).1.eqv v then c else Config.openValue 2 [f.code, b2n n, m.num, m.den] % 2 ^ f.bits
  | v => (specialCode f false v).code

/-- The block scale bytes of a row. -/
def Module.rowScales (m : Module) (t : Tensor) (r : Nat) : List Nat :=
  if t.scaled then (dedup ((List.range t.cols).map (fun c => t.scaleAddr r c))).map (fun a => if m.ctl.lineBad (a / 64) then 0xFF else memByte m.mem a)
  else []

/-- A row of a tensor as it travels. -/
def Module.rowImg (m : Module) (die : Nat) (t : Tensor) (r : Nat) : RowImg :=
  { fmt := t.fmt, codes := (List.range t.cols).map (m.sentCode die t r), scales := m.rowScales t r }

/-- What reading a row raises (R30, R42, R310, R535). -/
def Module.rowRaises (m : Module) (die : Nat) (t : Tensor) (r : Nat) : Seen :=
  m.seenAt die t (if t.scaled then .block else .all 0xFF) ((List.range t.cols).map (fun c => (r, c)))

/-- The elements that share a block scale in a row of `cols` elements with `n` scales. -/
def groupLen (cols n : Nat) : Nat := if n = cols then 1 else if cdiv cols 16 = n then 16 else 32

/-- The scale byte of an element of a row; 0x78, which is 1.0, where the row has none. -/
def RowImg.scale (x : RowImg) (i : Nat) : Nat :=
  if x.scales.isEmpty then 0x78 else x.scales.getD (i / groupLen x.codes.length x.scales.length) 0xFF

/-- What an element of a row is worth; none where its block is invalid, which masks it (R42). -/
def RowImg.val (x : RowImg) (i : Nat) : Option Val :=
  if x.scale i = 0xFF then none else some (elemVal x.fmt ⟨x.codes.getD i 0, false, x.scale i⟩)

/-- A row multiplied by a gate weight; its scales stay (R225). -/
def RowImg.times (x : RowImg) (gate : Nat) : RowImg :=
  { x with codes := x.codes.map (fun c =>
      exactCode ((Fmt.ofCode x.fmt).getD .fp32) ((elemVal x.fmt ⟨c, false, 0x78⟩).mul (fp32Val gate))) }

/-- A row of zeros. -/
def RowImg.zero (f n : Nat) : RowImg := ⟨f, List.replicate n (zeroCode ((Fmt.ofCode f).getD .fp32) false), []⟩

/-- The scale byte a row gives a block of its destination: the greatest of those of the elements that take part; where none does, 0xFF. -/
def RowImg.scaleFor (x : RowImg) (l : List Nat) : Nat :=
  match (l.map x.scale).filter (· != 0xFF) with
  | [] => 0xFF
  | a :: t => t.foldl max a

/-- The code of an element of a row in a tensor of format `f` under the scale byte `s`: the code it has, where format and scale are its
own, or else the code of its value. -/
def RowImg.codeIn (x : RowImg) (f s i : Nat) : Nat :=
  if x.fmt = f ∧ x.scale i = s then x.codes.getD i 0
  else
    let g := (Fmt.ofCode f).getD .fp32
    match OScale.ofByte s, x.val i with
    | .mag k, some v => exactCode g (v.div (.fin false k))
    | .one, some v => exactCode g v
    | _, _ => zeroCode g false

/-- Write a row that has arrived, with the scale bytes of its blocks. Log 104 (DESIGN CHOICE). -/
def Module.putImg (m : Module) (die unit : Nat) (who : Option (Nat × Nat)) (t : Tensor) (r : Nat) (x : RowImg) : Module :=
  let cs := List.range t.cols
  let sc := if t.scaled then
      (dedup (cs.map (fun c => t.scaleAddr r c))).map (fun a => (a, x.scaleFor (cs.filter (fun c => t.scaleAddr r c == a))))
    else []
  let scale (c : Nat) : Nat := if t.scaled then ((sc.find? (fun p => p.1 == t.scaleAddr r c)).map (·.2)).getD 0xFF else 0x78
  m.putThrough die unit who t (cs.map (fun c => (⟨r, c, x.codeIn t.fmt (scale c) c⟩ : Out))) sc

/-- A row block: expert, slot, format, S8 scale (0xFF unscaled, else that of the first block), the packed codes and the block scales, and
its CRC-32C. Log 104 (DESIGN CHOICE). -/
def RowImg.block (x : RowImg) (expert slot : Nat) : List Nat :=
  let w := fmtBits x.fmt
  let b := le 2 expert ++ [x.fmt, x.scales.headD 0xFF] ++ le 4 slot ++ le (runLen w 0 x.codes.length) (packCodes w x.codes) ++ x.scales
  b ++ le 4 (crc32c b)

/-- The block that tells of a lost slot: format code 0x0F, which no row has. Log 104 (DESIGN CHOICE). -/
def lostBlock (expert slot : Nat) : List Nat :=
  let b := le 2 expert ++ [0x0F, 0xFF] ++ le 4 slot
  b ++ le 4 (crc32c b)

/-- The row a block carries for a tensor of `cols` columns. Log 104 (DESIGN CHOICE). -/
def RowImg.ofBlock (cols : Nat) (b : List Nat) : RowImg :=
  let w := fmtBits (b.getD 2 0)
  let n := runLen w 0 cols
  let bits := unle (bytesAt b 8 n)
  { fmt := b.getD 2 0, codes := (List.range cols).map (fun i => bitsOf bits (w * i) w), scales := (b.drop (8 + n)).take (b.length - 12 - n) }

/-- Does a block pass its CRC? -/
def blockOk (b : List Nat) : Bool := decide (12 ≤ b.length) && crc32c (b.take (b.length - 4)) == fieldAt b (b.length - 4) 4

/-- The layer a descriptor moves rows of. -/
def RouteDesc.key (d : RouteDesc) : RouteKey := ⟨d.group, d.layer, d.off⟩

/-- A message of routed work for a die of a rank: over the package fabric where the rank is this module's, which holds it until that
die's descriptor takes it; else over TC1 (ROUTE), in frames of at most 4,096 bytes. Log 104 (DESIGN CHOICE). Log 168 (DESIGN CHOICE). -/
def Ctl.sendRoute (c : Ctl) (d : RouteDesc) (ord : Nat) (kind : RouteKind) (rank die : Nat) (b : List Nat) : Ctl :=
  match c.group d.group with
  | some g =>
    if g.rank = rank then
      c.onDie die (fun x => { x with fabric := x.fabric ++ [⟨kind, d.key, d.wmode, ord, d.die, b⟩] })
    else match g.members[rank]? with
      | some p => c.each (List.range (cdiv b.length 4096)) (fun c i => c.sendFrame 1 5 0 p.1 d.group ((b.drop (4096 * i)).take 4096))
      | none => c
  | none => c

/-- Is a start one of a descriptor's layer, micro-batch, direction and kind? -/
def RouteStart.like (x : RouteStart) (d : RouteDesc) (comb : Bool) : Bool := x.key == d.key && x.wmode == d.wmode && x.comb == comb

/-- The starts of a die that a descriptor's own is one of, in their order. -/
def DieSt.startsOf (x : DieSt) (d : RouteDesc) (comb : Bool) : List RouteStart := x.starts.filter (·.like d comb)

/-- A dispatch or combine begins: it is noted, and its number is how many like it the die has begun before in the step. The dies of a
module, which begin the same ones in the same order, match them by that number. Log 168 (DESIGN CHOICE). -/
def Ctl.noteStart (c : Ctl) (d : RouteDesc) (comb : Bool) : Nat × Ctl :=
  (((c.die d.die).startsOf d comb).length,
   c.onDie d.die (fun x => { x with starts := x.starts ++ [⟨d.key, d.wmode, comb, d.noSend⟩] }))

/-- Is a message on the fabric for a descriptor? -/
def RouteMsg.isFor (x : RouteMsg) (d : RouteDesc) (ord : Nat) (kinds : List RouteKind) : Bool :=
  x.key == d.key && x.wmode == d.wmode && x.ord == ord && kinds.contains x.kind

/-- The messages that wait for a descriptor. -/
def Ctl.fabricFor (c : Ctl) (d : RouteDesc) (ord : Nat) (kinds : List RouteKind) : List RouteMsg :=
  (c.die d.die).fabric.filter (·.isFor d ord kinds)

/-- They leave the fabric. Log 168 (DESIGN CHOICE). -/
def Ctl.takeFabric (c : Ctl) (d : RouteDesc) (ord : Nat) (kinds : List RouteKind) : Ctl :=
  c.onDie d.die (fun x => { x with fabric := x.fabric.filter (fun y => !y.isFor d ord kinds) })

/-! ## Admission (R222, R223) -/

/-- The PENDING choices of an expert and k-rank, by token. -/
def pendingOf (l : List Choice) (e j : Nat) : List Choice := l.filter (fun x => x.expert == e && x.kr == j && x.status == 0)

/-- LOCAL admission of an expert: its choices in ascending key up to the capacity. Log 105 (DEDUCED). -/
def localAdm (l : List Choice) (k e cap : Nat) : List Choice := (((List.range k).map (pendingOf l e)).flatten).take cap

/-- What a source counts for an expert and k-rank. -/
def countFor (d : RouteDesc) (l : List Choice) (e cap j : Nat) : Nat :=
  if d.global then (pendingOf l e j).length else ((localAdm l d.k e cap).filter (fun x => x.kr == j)).length

/-- The count block for the experts of an owner: for each expert in ascending number, for each k-rank, a 4-byte count;
then whether the source holds PENDING choices. Log 104 (DESIGN CHOICE). -/
def countBlock (d : RouteDesc) (l : List Choice) (own : List (Nat × Expert)) : List Nat :=
  (own.map (fun p => ((List.range d.k).map (fun j => le 4 (countFor d l p.1 p.2.cap j))).flatten)).flatten
    ++ [b2n (l.any (fun x => x.status == 0))]

/-- Does a count block's source hold PENDING choices? -/
def blockFresh (d : RouteDesc) (own : List (Nat × Expert)) (b : List Nat) : Bool := b.getD (4 * own.length * d.k) 0 != 0

/-- Counts read from a block. -/
def readCounts (d : RouteDesc) (own : List (Nat × Expert)) (rank die : Nat) (b : List Nat) : List (Nat × Nat × Nat × Nat × Nat) :=
  (own.zipIdx.map (fun (p : (Nat × Expert) × Nat) =>
    (List.range d.k).map (fun j => (rank, die, p.1.1, j, fieldAt b (4 * (p.2 * d.k + j)) 4)))).flatten

/-- The sources of an expert's choices in ascending key. -/
def admitList (cap : Nat) (global : Bool) : Nat → List (Nat × Nat × Nat × Nat × Nat) → List Span
  | _, [] => []
  | used, (rank, die, e, j, n) :: t =>
    let a := if global then min n (cap - used) else n
    ⟨e, rank, die, j, used, a⟩ :: admitList cap global (used + a) t

/-- Counts of one expert in the order (k-rank, rank, die). -/
def sortCounts (k ranks e : Nat) (l : List (Nat × Nat × Nat × Nat × Nat)) : List (Nat × Nat × Nat × Nat × Nat) :=
  ((List.range k).map (fun j => ((List.range ranks).map (fun r => ((List.range 8).map (fun x =>
    l.filter (fun c => c.1 == r && c.2.1 == x && c.2.2.1 == e && c.2.2.2.1 == j))).flatten)).flatten)).flatten

/-- The owner's decision. -/
def Ctl.admitAll (c : Ctl) (d : RouteDesc) (own : List (Nat × Expert)) (counts : List (Nat × Nat × Nat × Nat × Nat)) : List Span :=
  let ranks := match c.group d.group with | some g => g.members.length | none => 0
  (own.map (fun p => admitList p.2.cap d.global 0 (sortCounts d.k ranks p.1 counts))).flatten

/-- The counts returned to a source: for each of the owner's experts and each k-rank, how many and the first slot. Log 104 (DESIGN CHOICE). -/
def returnBlock (d : RouteDesc) (own : List (Nat × Expert)) (spans : List Span) (rank die : Nat) : List Nat :=
  (own.map (fun p => ((List.range d.k).map (fun j =>
    match spans.find? (fun s => s.expert == p.1 && s.kr == j && s.rank == rank && s.die == die) with
    | some s => le 4 s.n ++ le 4 s.base
    | none => le 4 0 ++ le 4 0)).flatten)).flatten

/-- A returned block read. -/
def readReturn (d : RouteDesc) (own : List (Nat × Expert)) (rank die : Nat) (b : List Nat) : List Span :=
  (own.zipIdx.map (fun (p : (Nat × Expert) × Nat) =>
    (List.range d.k).map (fun j =>
      let o := 8 * (p.2 * d.k + j)
      (⟨p.1.1, rank, die, j, fieldAt b (o + 4) 4, fieldAt b o 4⟩ : Span)))).flatten

/-- The experts of an owner, in ascending number. -/
def expertsOf (m : List (Option Expert)) (rank die : Nat) : List (Nat × Expert) :=
  m.zipIdx.filterMap (fun p => match p.1 with | some x => if x.rank = rank ∧ x.die = die then some (p.2, x) else none | none => none)

/-! ## The source's part of a dispatch -/

/-- R218: every choice of an absent expert becomes NONE. -/
def dropAbsent (m : List (Option Expert)) (l : List Choice) : List Choice :=
  l.map (fun x => if x.status < 4 ∧ (m.getD x.expert none).isNone then noChoice x.tok x.kr 4 else x)

/-- R233: a run that takes no new admission decisions, as far as a source sees: its rows are weighted and none of its choices is
PENDING. Log 169 (DEDUCED). -/
def settledRun (d : RouteDesc) (l : List Choice) : Bool := d.wmode && l.all (fun x => x.status != 0)

/-- A PENDING choice with its outcome, given what the owners admitted. Under LOCAL, a choice within its source's quota for which the
owner has no slot is lost on the way: the owner never had the source's counts (R228). Log 105 (DEDUCED). -/
def settleChoice (d : RouteDesc) (m : List (Option Expert)) (all : List Choice) (adm : List Span) (rank : Nat) (x : Choice) : Choice :=
  if x.status != 0 then x
  else
    let cap := match m.getD x.expert none with | some e => e.cap | none => 0
    let mine := if d.global then pendingOf all x.expert x.kr else (localAdm all d.k x.expert cap).filter (fun y => y.kr == x.kr)
    let i := (mine.map (·.tok)).idxOf x.tok
    match adm.find? (fun s => s.expert == x.expert && s.kr == x.kr && s.rank == rank && s.die == d.die) with
    | some s =>
      if i < mine.length ∧ i < s.n then { x with status := 1, slot := s.base + i }
      else { x with gate := 0, status := if !d.global && decide (i < mine.length) then 3 else 2 }
    | none => { x with gate := 0, status := 2 }

/-- Tokens none of whose choices is ADMITTED. -/
def bareTokens (d : RouteDesc) (l : List Choice) : List Nat :=
  (List.range d.t).filter (fun t => !(l.any (fun x => x.tok == t && x.status == 1)))

/-- The row a choice sends: as read, or multiplied by the gate. -/
def Module.sendImg (m : Module) (d : RouteDesc) (x : Choice) : RowImg :=
  let r := m.rowImg d.die d.rows x.tok
  if d.wmode then r.times x.gate else r

/-- The bytes of a row as it is sent: its packed codes and its block scales. -/
def Tensor.rowSent (t : Tensor) (r : Nat) : Nat :=
  rowBytes t.cols t.width + (if t.scaled then (dedup ((List.range t.cols).map (t.scaleAddr r))).length else 0)

/-- Is a choice's row sent: it is ADMITTED by another die's expert? -/
def Ctl.goesAway (c : Ctl) (d : RouteDesc) (map : List (Option Expert)) (x : Choice) : Bool :=
  x.status == 1 && (match map.getD x.expert none with | some e => !c.mine d e | none => false)

/-- Bytes of the rows a die sends: those that leave it, with their block scales (R230, R259). Log 192 (DEDUCED). -/
def Ctl.sentBytes (c : Ctl) (d : RouteDesc) (map : List (Option Expert)) (l : List Choice) : Nat :=
  ((l.filter (c.goesAway d map)).map (fun x => d.rows.rowSent x.tok)).foldl (· + ·) 0

/-- One admitted row: into an input tensor of this die, or in a block to its owner. -/
def Module.sendRow (m : Module) (d : RouteDesc) (unit : Nat) (who : Option (Nat × Nat)) (ord : Nat) (map : List (Option Expert)) (x : Choice) : Module :=
  match map.getD x.expert none with
  | none => m
  | some e =>
    if m.ctl.mine d e then
      match m.expertTens d e.loc with
      | some t => m.putImg d.die unit who t x.slot (m.sendImg d x)
      | none => m
    else
      let b := (m.sendImg d x).block x.expert x.slot
      m.onCtl (·.sendRoute d ord .row e.rank e.die b)

/-- R230: the request of a dispatch or combine that sends more than 1 MiB. -/
def Ctl.routeUnits (c : Ctl) (group : Nat) : Nat := 3 * (match c.group group with | some g => ((List.range 36).filter (bit g.routes)).length | none => 0)

/-- A dispatch or combine asks for power (R230). -/
def Ctl.askRoute (c : Ctl) (q seq : Nat) (d : RouteDesc) (b : List Nat) (r : RouteRun) : Ctl :=
  let u := c.routeUnits d.group
  let t := c.stamp d.die
  let c := (t.2.setRoute d.die q seq { r with asked := true }).onDesc d.die q seq (fun x => { x with units := u, asked := true, askedAt := t.1 })
  c.hpRequest ⟨.desc d.die q seq, (hdrOf b).prio, u, 0⟩

/-- The rows of the tokens that stand ready go out (R192); with the last of them event 5 is over. -/
def Module.sendRows (m : Module) (q seq : Nat) (d : RouteDesc) (map : List (Option Expert)) (l : List Choice) (r : RouteRun) : Module :=
  let unit := m.ctl.ccUnit d.die q
  let ts := m.ctl.tokensReady d.die d.rows r.next d.t
  let go := l.filter (fun x => x.status == 1 && ts.contains x.tok)
  let sn := (go.map (fun x => m.rowRaises d.die d.rows x.tok)).foldl Seen.add Seen.none
  let m := m.onCtl (fun c => (c.saw d.die unit sn).eachTook d.die (d.rows.rowsOf ts))
  let m := go.foldl (fun m x => m.sendRow d unit (some (q, seq)) r.ord map x) m
  let own := (go.filter (fun x => match map.getD x.expert none with | some e => m.ctl.mine d e | none => false)).map (fun x => (x.expert, x.slot))
  let last := r.next + ts.length == d.t
  m.onCtl (·.setRoute d.die q seq { r with
    next := r.next + ts.length, sent := last, event := if last then max r.event 5 else r.event, rowsIn := r.rowsIn ++ own })

/-- Event 5: the choice records are set; a token that an earlier dispatch left without an expert is not counted again (R224, R233).
Log 105 (DEDUCED). -/
def Module.settleChoices (m : Module) (q seq : Nat) (d : RouteDesc) (b : List Nat) (map : List (Option Expert)) (r : RouteRun) : Module :=
  let unit := m.ctl.ccUnit d.die q
  let raw := m.choices d
  let all := dropAbsent map raw
  let l := all.map (settleChoice d map all r.admitted (m.ctl.rankIn d.group))
  let newly (k : Nat) : Nat := (l.filter (fun x => x.status == k)).length - (all.filter (fun x => x.status == k)).length
  let drops := newly 2
  let links := newly 3
  let bare := ((bareTokens d l).filter (fun t => !(settledRun d raw && (bareTokens d raw).contains t))).length
  let m := m.putThrough d.die unit (some (q, seq)) d.choice (choiceOuts d.choice d.k l) []
  let m := m.onCtl (fun c => ((c.rtCount d.die unit Fld.rt_RT_DROPCAP_CNT_COUNT 25 drops).rtCount d.die unit Fld.rt_RT_DROPLINK_CNT_COUNT 26
    links).rtCount d.die unit Fld.rt_RT_TOKDROP_CNT_COUNT 27 bare)
  let r := if drops = 0 then r else r.flag 0
  let r := { (if links = 0 then r else r.flag 1) with dropped := r.dropped + drops + links, tokDropped := r.tokDropped + bare,
                                                      event := max r.event 4, settled := true }
  if 0x100000 < m.ctl.sentBytes d map l && !r.granted then m.onCtl (·.askRoute q seq d b r) else m.onCtl (·.setRoute d.die q seq r)

/-! ## The owner's part -/

/-- Every (expert, slot) the owner waits for. -/
def spanSlots (l : List Span) : List (Nat × Nat) := (l.map (fun s => (List.range s.n).map (fun i => (s.expert, s.base + i)))).flatten

/-- Rows whose slots are still empty. -/
def RouteRun.missing (r : RouteRun) : List (Nat × Nat) := (spanSlots r.spans).filter (fun x => !r.rowsIn.contains x)

/-- The slots of a layer's experts that this die owns, as its last forward dispatch filled them (R233). -/
def Ctl.slotsOf (c : Ctl) (d : RouteDesc) (own : List (Nat × Expert)) : List Span :=
  ((c.die d.die).routed.filter (fun s => s.1 == d.key && own.any (fun p => p.1 == s.2.expert))).map (·.2)

/-- Those whose rows were lost then. -/
def Ctl.lostOf (c : Ctl) (d : RouteDesc) (own : List (Nat × Expert)) : List (Nat × Nat) :=
  ((c.die d.die).lostSlots.filter (fun s => s.1 == d.key && own.any (fun p => p.1 == s.2.1))).map (·.2)

/-- Does this dispatch fill the slots of the layer's forward dispatch again (R233)? Log 169 (DEDUCED). -/
def RouteRun.again (r : RouteRun) (d : RouteDesc) : Bool := d.wmode && !r.fresh

/-- `TENS_COUNT` (R227): the choices that the dispatch found PENDING, those of them admitted, and the rows it wrote as owner: under LOCAL
those that came, under GLOBAL those it decided, for a lost one is written as +0 (R228). -/
def Module.countRecords (m : Module) (d : RouteDesc) (map : List (Option Expert)) (r : RouteRun) : List Out :=
  let l := (m.choices d).filter (fun x => r.pend.contains (x.tok, x.kr))
  let old := if r.again d then m.ctl.lostOf d (m.ctl.owned d map) else []
  ((List.range d.e).map (fun e =>
    let req := (l.filter (fun x => x.expert == e)).length
    let adm := (l.filter (fun x => x.expert == e && x.status == 1)).length
    let mine := match map.getD e none with | some x => m.ctl.mine d x && (m.expertTens d x.loc).isSome | none => false
    let rows := if !mine then 0
      else if d.global then ((r.spans.filter (fun s => s.expert == e)).map (·.n)).foldl (· + ·) 0
      else (dedup ((r.rowsIn.filter (fun p => p.1 == e && !old.contains p)).map (·.2))).length
    d.count.outsAt (16 * e) (le 4 req ++ le 4 adm ++ le 4 rows ++ [0, 0, 0, 0]))).flatten

/-- Event 7: rows that never came are lost; under GLOBAL they are written as +0 (R228), as are those the forward dispatch lost (R233). -/
def Module.endDispatch (m : Module) (q seq : Nat) (d : RouteDesc) (map : List (Option Expert)) (r : RouteRun) : Module :=
  let unit := m.ctl.ccUnit d.die q
  let own := m.ctl.owned d map
  let lost := r.missing
  let zeros (m : Module) (x : Nat × Nat) : Module :=
    match own.find? (fun p => p.1 == x.1) with
    | some p => (match m.expertTens d p.2.loc with
      | some t => m.putImg d.die unit (some (q, seq)) t x.2 (RowImg.zero t.fmt t.cols)
      | none => m)
    | none => m
  let old := if r.again d then m.ctl.lostOf d own else []
  let m := if d.global then (lost ++ old).foldl zeros m else m
  let m := m.putThrough d.die unit (some (q, seq)) d.count (m.countRecords d map r) []
  let mine (e : Nat) : Bool := own.any (fun p => p.1 == e)
  m.onCtl (fun c =>
    let c := c.onDie d.die (fun x => { x with
      routed := if r.again d then x.routed
        else x.routed.filter (fun s => !(s.1 == d.key && mine s.2.expert)) ++ r.spans.map (fun s => (d.key, s))
      lostSlots := (if r.again d then x.lostSlots else x.lostSlots.filter (fun s => !(s.1 == d.key && mine s.2.1)))
        ++ lost.map (fun s => (d.key, s)) })
    c.setRoute d.die q seq { r with event := 7 })

/-! ## The events of a dispatch in order -/

/-- Events 1 and 2: counts are formed and sent. -/
def Module.startDispatch (m : Module) (q seq : Nat) (d : RouteDesc) (map : List (Option Expert)) (r : RouteRun) : Module :=
  let unit := m.ctl.ccUnit d.die q
  let raw := m.choices d
  let l := dropAbsent map raw
  let rank := m.ctl.rankIn d.group
  let own := m.ctl.owned d map
  let bad := map.any Option.isNone
  let sn := ((m.recordSeen d.die d.map 0 (8 * d.e)).add (m.choiceSeen d)).add (m.tabSeen d own)
  let c0 := if d.noSend then [] else readCounts d own rank d.die (countBlock d l own)
  let st := m.ctl.noteStart d false
  let r := { (if bad then r.flag 3 else r) with event := 2, counts := r.counts ++ c0, heard := r.heard ++ [(rank, d.die)],
                                                  fresh := r.fresh || (!d.noSend && raw.any (fun x => x.status == 0)), ord := st.1,
                                                  pend := (l.filter (fun (x : Choice) => x.status == 0)).map (fun (x : Choice) => (x.tok, x.kr)) }
  let blocks := (mapDies map).filter (fun o => o != (rank, d.die))
  ({ m with ctl := st.2 }).onCtl (fun c =>
    let c := (c.saw d.die unit sn).rtCount d.die unit Fld.rt_RT_MAPINV_CNT_COUNT 30 (b2n bad)
    let c := if d.noSend then c else c.each blocks (fun c (o : Nat × Nat) => c.sendRoute d r.ord .counts o.1 o.2 (countBlock d l (expertsOf map o.1 o.2)))
    c.setRoute d.die q seq r)

/-- Events 3 and 4: every source heard, the owner decides and answers. -/
def Module.ownerDecide (m : Module) (q seq : Nat) (d : RouteDesc) (map : List (Option Expert)) (r : RouteRun) : Module :=
  let own := m.ctl.owned d map
  let rank := m.ctl.rankIn d.group
  let spans := if r.again d then m.ctl.slotsOf d own else m.ctl.admitAll d own r.counts
  let r := { r with spans := spans, decided := true, rowsIn := r.rowsIn ++ (if r.again d then m.ctl.lostOf d own else []), event := max r.event 4,
                    admitted := r.admitted ++ spans.filter (fun s => s.rank == rank && s.die == d.die), owners := r.owners ++ [(rank, d.die)] }
  m.onCtl (fun c =>
    let c := c.each (r.heard.filter (fun o => o != (rank, d.die))) (fun c (o : Nat × Nat) => c.sendRoute d r.ord .answer o.1 o.2 (returnBlock d own spans o.1 o.2))
    c.setRoute d.die q seq r)

/-- Is a die of this module known to send no count block: its own dispatch of this one's number says `NO_SEND`, from its start on (R226)?
Log 105 (DEDUCED). -/
def Ctl.silent (c : Ctl) (d : RouteDesc) (ord : Nat) (o : Nat × Nat) : Bool :=
  o.1 == c.rankIn d.group && (((c.die o.2).startsOf d false)[ord]?).any (·.noSend)

/-- Has the owner heard every source? -/
def Ctl.heardAll (c : Ctl) (d : RouteDesc) (map : List (Option Expert)) (r : RouteRun) : Bool :=
  (mapDies map).all (fun o => r.heard.contains o || c.silent d r.ord o)

/-- Have all owners answered this source? -/
def answeredAll (map : List (Option Expert)) (r : RouteRun) : Bool := (mapDies map).all (fun o => r.owners.contains o)

/-- The next event of a dispatch that has begun. -/
def Module.dispatchNext (m : Module) (q seq : Nat) (d : RouteDesc) (b : List Nat) (r : RouteRun) : Module :=
  let map := m.experts d
  if !r.decided then
    (if (m.ctl.owned d map).isEmpty || m.ctl.heardAll d map r then m.ownerDecide q seq d map r else m)
  else if !r.sent then
    (if d.noSend then m.onCtl (·.setRoute d.die q seq { r with sent := true })
     else if !r.settled then (if answeredAll map r || settledRun d (m.choices d) then m.settleChoices q seq d b map r else m)
     else if r.asked && !r.granted then m
     else if r.next < d.t && (m.ctl.tokensReady d.die d.rows r.next d.t).isEmpty then m
     else m.sendRows q seq d map (m.choices d) r)
  else if r.expired || r.missing.isEmpty then m.endDispatch q seq d map r
  else m

/-- A dispatch goes on as far as it can: at most the four events after its start. -/
def Module.dispatchOn (die q seq : Nat) : Nat → Module → Module
  | 0, m => m
  | n + 1, m =>
    match m.ctl.routeRun die q seq 0x31 with
    | none => m
    | some (b, r) => if r.event < 2 ∨ r.event = 7 then m else Module.dispatchOn die q seq n (m.dispatchNext q seq (r.move (m.ctl.die die) die b) b r)

/-- An owner notes the counts of a source (from a block, or zero) where it still waits for them; a wait expires once (R237). -/
def Module.noteCounts (m : Module) (die q seq : Nat) (b : List Nat) (r : RouteRun) (rank src : Nat) (block : List Nat) (late : Bool) : Module :=
  let d := r.move (m.ctl.die die) die b
  let own := m.ctl.owned d (m.experts d)
  if r.decided || r.heard.contains (rank, src) then m
  else
    let r' := { r with counts := r.counts ++ readCounts d own rank src block, heard := r.heard ++ [(rank, src)],
                       fresh := r.fresh || blockFresh d own block, countsLate := r.countsLate || late }
    m.onCtl (fun c => (if late && !r.countsLate then c.bump Fld.rt_RT_TIMEOUT_CNT_COUNT die else c).setRoute die q seq
      (if late then r'.flag 4 else r'))

/-- A source notes an owner's answer. -/
def Module.noteReturn (m : Module) (die q seq : Nat) (b : List Nat) (r : RouteRun) (rank own : Nat) (block : List Nat) : Module :=
  let d := r.move (m.ctl.die die) die b
  if r.owners.contains (rank, own) then m
  else
    let sp := (readReturn d (expertsOf (m.experts d) rank own) rank own block).map
      (fun (x : Span) => { x with rank := m.ctl.rankIn d.group, die := die })
    m.onCtl (·.setRoute die q seq { r with admitted := r.admitted ++ sp, owners := r.owners ++ [(rank, own)] })

/-- Does an owner's slot wait for a row? In a run that fills the forward dispatch's slots again they are known from the start (R233). -/
def Ctl.rowDue (c : Ctl) (d : RouteDesc) (own : List (Nat × Expert)) (r : RouteRun) (e slot rank src : Nat) : Bool :=
  (if r.again d && !r.decided then c.slotsOf d own else r.spans).any (fun s =>
    s.expert == e && s.rank == rank && s.die == src && decide (s.base ≤ slot) && decide (slot < s.base + s.n))
  && !r.rowsIn.contains (e, slot) && !r.expired

/-- An owner writes a row (R228): one that fails its CRC, or a row no slot waits for, is dropped. -/
def Module.noteRow (m : Module) (die q seq : Nat) (b : List Nat) (r : RouteRun) (rank src : Nat) (block : List Nat) : Module :=
  let d := r.move (m.ctl.die die) die b
  let own := m.ctl.owned d (m.experts d)
  let e := fieldAt block 0 2
  let slot := fieldAt block 4 4
  if !blockOk block || !m.ctl.rowDue d own r e slot rank src then m
  else
    let m := match own.find? (fun p => p.1 == e) with
      | some p => (match m.expertTens d p.2.loc with
        | some t => m.putImg die (m.ctl.ccUnit die q) (some (q, seq)) t slot (RowImg.ofBlock t.cols block)
        | none => m)
      | none => m
    m.onCtl (·.setRoute die q seq { r with rowsIn := r.rowsIn ++ [(e, slot)] })

/-- A message of the fabric is taken by a dispatch. -/
def Module.hear (die q seq : Nat) (m : Module) (x : RouteMsg) : Module :=
  match m.ctl.routeRun die q seq 0x31 with
  | none => m
  | some (b, r) =>
    let rank := m.ctl.rankIn x.key.group
    match x.kind with
    | .counts => m.noteCounts die q seq b r rank x.die x.bytes false
    | .answer => m.noteReturn die q seq b r rank x.die x.bytes
    | .row => m.noteRow die q seq b r rank x.die x.bytes
    | .back => m

/-- The kinds of message a dispatch takes. -/
def dispKinds : List RouteKind := [.counts, .answer, .row]

/-- `rt.disp`: it starts, or looks again at what has come; what waits on the fabric is taken. -/
def Module.disp (m : Module) (die q seq : Nat) (b : List Nat) (r : RouteRun) : Module :=
  let d := r.move (m.ctl.die die) die b
  let m := if r.event < 2 then m.startDispatch q seq d (m.experts d) r else m
  let ord := match m.ctl.routeRun die q seq 0x31 with | some x => x.2.ord | none => r.ord
  let l := m.ctl.fabricFor d ord dispKinds
  Module.dispatchOn die q seq 4 (l.foldl (Module.hear die q seq) (m.onCtl (·.takeFabric d ord dispKinds)))

def execRtDisp (die queue seq : Nat) (s : State) : Host.Outcome State Fault Refusal :=
  match s.m.ctl.dieUp die, s.m.ctl.routeRun die queue seq 0x31 with
  | true, some (b, r) => .next (s.onM (·.disp die queue seq b r))
  | _, _ => .next s

/-- Counts come, or are taken as zero, and the dispatch goes on. -/
def Module.takeCounts (m : Module) (die q seq : Nat) (b : List Nat) (r : RouteRun) (rank src : Nat) (block : List Nat) (late : Bool) : Module :=
  if r.decided || r.heard.contains (rank, src) then m
  else Module.dispatchOn die q seq 4 (m.noteCounts die q seq b r rank src block late)

/-- COUNT_BLOCK_RECEIVE. -/
def execCountBlockReceive (die queue seq rank srcDie : Nat) (bytes : List Nat) (s : State) : Host.Outcome State Fault Refusal :=
  match s.m.ctl.dieUp die, s.m.ctl.routeRun die queue seq 0x31 with
  | true, some (b, r) => .next (s.onM (·.takeCounts die queue seq b r rank srcDie bytes false))
  | _, _ => .next s

/-- Has something come over the fabric that a descriptor has not looked at? A wait does not expire before it has. -/
def Ctl.unheard (c : Ctl) (die : Nat) (b : List Nat) (r : RouteRun) (kinds : List RouteKind) : Bool :=
  !(c.fabricFor (r.move (c.die die) die b) r.ord kinds).isEmpty

/-- DISPATCH_COUNT_TIMEOUT: after the die's own event 2. -/
def execDispatchCountTimeout (die queue seq rank srcDie : Nat) (s : State) : Host.Outcome State Fault Refusal :=
  match s.m.ctl.dieUp die, s.m.ctl.routeRun die queue seq 0x31 with
  | true, some (b, r) =>
    if r.event < 2 then .next s
    else if s.m.ctl.unheard die b r dispKinds then .next (s.onM (·.disp die queue seq b r))
    else .next (s.onM (·.takeCounts die queue seq b r rank srcDie [] true))
  | _, _ => .next s

/-- A source takes an owner's answer. -/
def Module.takeReturn (m : Module) (die q seq : Nat) (b : List Nat) (r : RouteRun) (rank own : Nat) (block : List Nat) : Module :=
  if r.owners.contains (rank, own) then m else Module.dispatchOn die q seq 4 (m.noteReturn die q seq b r rank own block)

/-- ADMITTED_COUNT_RETURN. -/
def execAdmittedCountReturn (die queue seq rank ownDie : Nat) (bytes : List Nat) (s : State) : Host.Outcome State Fault Refusal :=
  match s.m.ctl.dieUp die, s.m.ctl.routeRun die queue seq 0x31 with
  | true, some (b, r) => .next (s.onM (·.takeReturn die queue seq b r rank ownDie bytes))
  | _, _ => .next s

/-- An owner takes a row block. -/
def Module.takeRow (m : Module) (die q seq : Nat) (b : List Nat) (r : RouteRun) (rank src : Nat) (block : List Nat) : Module :=
  let d := r.move (m.ctl.die die) die b
  if !blockOk block || !m.ctl.rowDue d (m.ctl.owned d (m.experts d)) r (fieldAt block 0 2) (fieldAt block 4 4) rank src then m
  else Module.dispatchOn die q seq 4 (m.noteRow die q seq b r rank src block)

/-- ROUTE_ROW_RECEIVE. -/
def execRouteRowReceive (die queue seq rank srcDie : Nat) (bytes : List Nat) (s : State) : Host.Outcome State Fault Refusal :=
  match s.m.ctl.dieUp die, s.m.ctl.routeRun die queue seq 0x31 with
  | true, some (b, r) => .next (s.onM (·.takeRow die queue seq b r rank srcDie bytes))
  | _, _ => .next s

/-- DISPATCH_ROW_TIMEOUT: after event 4, rows that have not come are dropped. -/
def execDispatchRowTimeout (die queue seq : Nat) (s : State) : Host.Outcome State Fault Refusal :=
  match s.m.ctl.dieUp die, s.m.ctl.routeRun die queue seq 0x31 with
  | true, some (b, r) =>
    if r.decided && !r.expired && !r.missing.isEmpty then
      if s.m.ctl.unheard die b r dispKinds then .next (s.onM (·.disp die queue seq b r))
      else .next (s.onM (fun m => Module.dispatchOn die queue seq 4 (m.onCtl (fun c =>
        (c.bump Fld.rt_RT_TIMEOUT_CNT_COUNT die).setRoute die queue seq { r.flag 4 with expired := true }))))
    else .next s
  | _, _ => .next s

/-! ## rt.comb (R231 to R233) -/

/-- The slots of this die's experts that hold rows of tokens elsewhere: expert, entry, slot, the source's rank and die. -/
def Ctl.awaySlots (c : Ctl) (d : RouteDesc) (own : List (Nat × Expert)) : List (Nat × Expert × Nat × Nat × Nat) :=
  (((c.slotsOf d own).filter (fun s => !(s.rank == c.rankIn d.group && s.die == d.die))).map (fun s =>
    match own.find? (fun p => p.1 == s.expert) with
    | none => []
    | some p => (List.range s.n).map (fun i => (p.1, p.2, s.base + i, s.rank, s.die)))).flatten

/-- The ADMITTED choices whose experts this die owns: expert, entry, slot. -/
def Ctl.homeSlots (c : Ctl) (d : RouteDesc) (map : List (Option Expert)) (l : List Choice) : List (Nat × Expert × Nat) :=
  l.filterMap (fun x =>
    match x.status == 1, map.getD x.expert none with
    | true, some e => if c.mine d e then some (x.expert, e, x.slot) else none
    | _, _ => none)

/-- A returned row. -/
def RouteRun.back (r : RouteRun) (x : Choice) : Option (Option RowImg) :=
  (r.returns.find? (fun p => p.1 == x.expert && p.2.1 == x.slot)).map (·.2.2)

/-- Has every ADMITTED choice its return? -/
def allBack (l : List Choice) (r : RouteRun) : Bool := l.all (fun x => x.status != 1 || (r.back x).isSome)

/-- R232: a lost return changes its choice. -/
def linkDrop (r : RouteRun) (x : Choice) : Choice :=
  if x.status = 1 ∧ ((r.back x).getD none).isNone then { x with gate := 0, status := 3, slot := 0xFFFFFFFF } else x

/-- The exact sum of a token's weighted rows at a column; a masked element is left out (R42). -/
def combSum (d : RouteDesc) (r : RouteRun) (l : List Choice) (t c : Nat) : Val :=
  ((l.filter (fun x => x.tok == t && x.status == 1)).filterMap (fun x =>
    (((r.back x).getD none).bind (·.val c)).map (fun o => if d.wmode then o else (fp32Val x.gate).mul o))).foldl Val.add Val.zero

/-- The elements of the combined output. The spec names no unit for the random bits of this conversion: the slices are open. Log 102 (DESIGN CHOICE). -/
def combElems (d : RouteDesc) (r : RouteRun) (l : List Choice) (base : Nat) : List CElem :=
  ((List.range d.t).map (fun t => (List.range d.rows.cols).map (fun c =>
    ({ row := t, col := c, x := .val (combSum d r l t c), part := true, fill := false, slice := Config.openValue 3 [base, t, c] % 65536,
       run := if d.rows.innerRows then c * 2 ^ 32 + t / 32 else t * 2 ^ 32 + c / 32 } : CElem)))).flatten

/-- The rows kept under `KEEP_RET`. -/
def Module.keepRows (m : Module) (d : RouteDesc) (unit : Nat) (who : Option (Nat × Nat)) (r : RouteRun) (l : List Choice) : Module :=
  if !d.keepRet then m
  else l.foldl (fun m x =>
    let z := RowImg.zero d.ret.fmt d.ret.cols
    m.putImg d.die unit who d.ret (x.tok * d.k + x.kr) (if x.status = 1 then ((r.back x).getD none).getD z else z)) m

/-- The sums are formed and written, from the choices as read (`raw`) and with those of absent experts set aside (R218). The spec gives
`rt.comb` no lanes to count its window by: it counts as 256 lanes would. Log 170 (DESIGN CHOICE). -/
def Module.combine (m : Module) (q seq epoch : Nat) (d : RouteDesc) (r : RouteRun) (raw : List Choice) : Module :=
  let unit := m.ctl.ccUnit d.die q
  let l := dropAbsent (m.experts d) raw
  let l' := l.map (linkDrop r)
  let lost := (l'.filter (fun x => x.status == 3)).length - (l.filter (fun x => x.status == 3)).length
  let bare := ((bareTokens d l').filter (fun t => !(bareTokens d raw).contains t)).length
  let m := m.putThrough d.die unit (some (q, seq)) d.choice (choiceOuts d.choice d.k l') []
  let m := m.onCtl (fun c => (c.rtCount d.die unit Fld.rt_RT_DROPLINK_CNT_COUNT 26 lost).rtCount d.die unit Fld.rt_RT_TOKDROP_CNT_COUNT 27 bare)
  let w := (m.ctl.amaxFirst d.die d.cvt).window d.die unit d.cvt (some d.rows.idx) (d.t * cdiv d.rows.cols 256)
  let m := { m with ctl := w.2 }
  let res := m.convert d.cvt (some d.rows) (combElems d r l' w.1)
  let m := (m.putThrough d.die unit (some (q, seq)) d.rows res.writes res.scales).keepRows d unit (some (q, seq)) r l'
  let r := { (if lost = 0 then r else r.flag 1) with dropped := r.dropped + lost, tokDropped := r.tokDropped + bare, event := 7 }
  m.onCtl (fun c => (c.tally d.die unit epoch d.layer d.role d.cvt (some d.rows) res).setRoute d.die q seq r)

/-- The issue epoch of a descriptor. -/
def Ctl.epochOf (c : Ctl) (die q seq : Nat) : Nat := match c.desc die q seq with | some d => d.slot.epoch | none => 0

/-- The offset of the run that issued it (R285). -/
def Ctl.offOf (c : Ctl) (die q seq : Nat) : Nat := match c.desc die q seq with | some d => d.slot.off | none => 0

/-- May a combine ask for its window (R75)? -/
def Module.combTurn (m : Module) (die q seq : Nat) (d : RouteDesc) : Bool :=
  match m.ctl.desc die q seq with
  | some x => m.windowTurn die q x d.cvt
  | none => true

/-- A combine whose rows are sent goes on once its returns are there. Log 106 (DEDUCED). -/
def Module.combOn (m : Module) (die q seq : Nat) : Module :=
  match m.ctl.routeRun die q seq 0x33 with
  | none => m
  | some (b, r) =>
    let d := r.move (m.ctl.die die) die b
    let l := m.choices d
    if r.event = 5 ∧ (r.expired || allBack (dropAbsent (m.experts d) l) r) ∧ m.combTurn die q seq d = true then m.combine q seq (m.ctl.epochOf die q seq) d r l else m

/-- A row that a combine moves as owner: the expert, its entry and the slot; where it goes, none for a token of this die's own. -/
structure RowMove where
  expert : Nat
  entry : Expert
  slot : Nat
  dest : Option (Nat × Nat)
deriving DecidableEq, Repr

/-- The rows that a combine moves as owner, in order: first those of tokens elsewhere. -/
def Ctl.rowMoves (c : Ctl) (d : RouteDesc) (map : List (Option Expert)) (l : List Choice) : List RowMove :=
  (if d.noSend then [] else (c.awaySlots d (c.owned d map)).map (fun p => ⟨p.1, p.2.1, p.2.2.1, some p.2.2.2⟩))
    ++ (c.homeSlots d map l).map (fun p => ⟨p.1, p.2.1, p.2.2, none⟩)

/-- The tensor and row that a move reads; none where the row was lost on its way here. -/
def Module.moveRow (m : Module) (d : RouteDesc) (x : RowMove) : Option (Tensor × Nat) :=
  if (m.ctl.die d.die).lostSlots.contains (d.key, x.expert, x.slot) then none else (m.expertTens d x.entry.loc).map (fun t => (t, x.slot))

/-- The moves, from `i` on, whose rows may be read now (R192). -/
def Module.movesReady (m : Module) (d : RouteDesc) (l : List RowMove) (i : Nat) : List RowMove :=
  let l := l.drop i
  l.take ((List.range l.length).takeWhile (fun k => m.ctl.readable d.die ((l.take (k + 1)).filterMap (m.moveRow d)))).length

/-- The bytes of the rows that leave (R230, R259). Log 192 (DEDUCED). -/
def Module.movedBytes (m : Module) (d : RouteDesc) (l : List RowMove) : Nat :=
  (((l.filter (fun x => x.dest.isSome)).filterMap (m.moveRow d)).map (fun p => p.1.rowSent p.2)).foldl (· + ·) 0

/-- One move: a block to the token's die, or a row of its own. -/
def Module.moveOut (q seq : Nat) (d : RouteDesc) (ord : Nat) (m : Module) (x : RowMove) : Module :=
  let row := (m.moveRow d x).map (fun p => m.rowImg d.die p.1 p.2)
  match x.dest with
  | some o => m.onCtl (·.sendRoute d ord .back o.1 o.2 (match row with | some i => i.block x.expert x.slot | none => lostBlock x.expert x.slot))
  | none =>
    match m.ctl.routeRun d.die q seq 0x33 with
    | some (_, r) => m.onCtl (·.setRoute d.die q seq { r with returns := r.returns ++ [(x.expert, x.slot, row)] })
    | none => m

/-- `rt.comb` begins: what it reads of the map, the tables and the choices is counted, and it asks for power where its rows pass 1 MiB. -/
def Module.startComb (m : Module) (die q seq : Nat) (b : List Nat) (r : RouteRun) : Module :=
  let d := r.move (m.ctl.die die) die b
  let unit := m.ctl.ccUnit die q
  let map := m.experts d
  let bad := map.any Option.isNone
  let sn := ((m.recordSeen die d.map 0 (8 * d.e)).add (m.choiceSeen d)).add (m.tabSeen d (m.ctl.owned d map))
  let big := decide (0x100000 < m.movedBytes d (m.ctl.rowMoves d map (dropAbsent map (m.choices d))))
  m.onCtl (fun c =>
    let c := (c.saw die unit sn).rtCount die unit Fld.rt_RT_MAPINV_CNT_COUNT 30 (b2n bad)
    let st := c.noteStart d true
    let r := { (if bad then r.flag 3 else r) with event := 4, ord := st.1 }
    if big && !r.granted then st.2.askRoute q seq d b r else st.2.setRoute die q seq r)

/-- The rows that stand ready go out; with the last of them the combine waits for its returns. -/
def Module.combRows (m : Module) (die q seq : Nat) (b : List Nat) (r : RouteRun) : Module :=
  let d := r.move (m.ctl.die die) die b
  let map := m.experts d
  let all := m.ctl.rowMoves d map (dropAbsent map (m.choices d))
  let go := m.movesReady d all r.next
  let reads := go.filterMap (m.moveRow d)
  let sn := (reads.map (fun p => m.rowRaises die p.1 p.2)).foldl Seen.add Seen.none
  let m := go.foldl (Module.moveOut q seq d r.ord) (m.onCtl (·.saw die (m.ctl.ccUnit die q) sn))
  m.onCtl (fun c =>
    match c.routeRun die q seq 0x33 with
    | some (_, r) =>
      let last := all.length ≤ r.next + go.length
      (c.eachTook die reads).setRoute die q seq { r with next := r.next + go.length, event := if last then 5 else 4, sent := last }
    | none => c)

/-- A source notes a row returned by an owner: a damaged one is lost (R232). -/
def Module.noteBack (m : Module) (die q seq : Nat) (b : List Nat) (r : RouteRun) (rank own : Nat) (block : List Nat) : Module :=
  let d := r.move (m.ctl.die die) die b
  let e := fieldAt block 0 2
  let slot := fieldAt block 4 4
  let from' := match (m.experts d).getD e none with | some x => x.rank == rank && x.die == own | none => false
  if !blockOk block || !from' || r.returns.any (fun p => p.1 == e && p.2.1 == slot) then m
  else
    let v := if block.getD 2 0 = 0x0F then none else some (RowImg.ofBlock d.rows.cols block)
    m.onCtl (·.setRoute die q seq { r with returns := r.returns ++ [(e, slot, v)] })

/-- A returned row on the fabric is taken by a combine. -/
def Module.hearBack (die q seq : Nat) (m : Module) (x : RouteMsg) : Module :=
  match m.ctl.routeRun die q seq 0x33 with
  | none => m
  | some (b, r) => m.noteBack die q seq b r (m.ctl.rankIn x.key.group) x.die x.bytes

/-- What waits on the fabric is taken by a combine that has begun. -/
def Module.combHear (m : Module) (die q seq : Nat) : Module :=
  match m.ctl.routeRun die q seq 0x33 with
  | some (b, r) =>
    let d := r.move (m.ctl.die die) die b
    (m.ctl.fabricFor d r.ord [.back]).foldl (Module.hearBack die q seq) (m.onCtl (·.takeFabric d r.ord [.back]))
  | none => m

/-- The rows of a combine that has begun, where it need not wait for power. -/
def Module.combMove (m : Module) (die q seq : Nat) : Module :=
  match m.ctl.routeRun die q seq 0x33 with
  | some (b, r) => if r.event = 4 ∧ (!r.asked || r.granted) then m.combRows die q seq b r else m
  | none => m

/-- `rt.comb`: it begins, its rows go out as they stand ready, or it looks again at what has come; what waits on the fabric is taken. -/
def Module.comb (m : Module) (die q seq : Nat) (b : List Nat) (r : RouteRun) : Module :=
  let m := if r.event < 4 then m.startComb die q seq b r else m
  ((m.combHear die q seq).combMove die q seq).combOn die q seq

def execRtComb (die queue seq : Nat) (s : State) : Host.Outcome State Fault Refusal :=
  match s.m.ctl.dieUp die, s.m.ctl.routeRun die queue seq 0x33 with
  | true, some (b, r) => if r.event = 7 then .next s else .next (s.onM (·.comb die queue seq b r))
  | _, _ => .next s

/-- A returned row from an owner. -/
def Module.takeBack (m : Module) (die q seq : Nat) (b : List Nat) (r : RouteRun) (rank own : Nat) (block : List Nat) : Module :=
  if !blockOk block then m else (m.noteBack die q seq b r rank own block).combOn die q seq

/-- COMBINE_RETURN_RECEIVE. -/
def execCombineReturnReceive (die queue seq rank ownDie : Nat) (bytes : List Nat) (s : State) : Host.Outcome State Fault Refusal :=
  match s.m.ctl.dieUp die, s.m.ctl.routeRun die queue seq 0x33 with
  | true, some (b, r) => if r.event = 7 then .next s else .next (s.onM (·.takeBack die queue seq b r rank ownDie bytes))
  | _, _ => .next s

/-- COMBINE_RETURN_TIMEOUT: the returns still missing are lost. -/
def execCombineReturnTimeout (die queue seq : Nat) (s : State) : Host.Outcome State Fault Refusal :=
  match s.m.ctl.dieUp die, s.m.ctl.routeRun die queue seq 0x33 with
  | true, some (b, r) =>
    if r.event = 5 then
      if s.m.ctl.unheard die b r [.back] then .next (s.onM (·.comb die queue seq b r))
      else .next (s.onM (fun m => (m.onCtl (fun c =>
        (c.bump Fld.rt_RT_TIMEOUT_CNT_COUNT die).setRoute die queue seq { r.flag 4 with expired := true })).combOn die queue seq))
    else .next s
  | _, _ => .next s

/-! ## rt.exloop (R229, R230, R263) -/

/-- A 16-bit row field; a larger count has no code in it. Log 103 (DESIGN CHOICE). -/
def rowField (r : Nat) : Nat := if r < 65536 then r else Config.openValue 4 [r] % 65536

/-- The copies of one template for R rows: rows and what is added to `M0`. -/
def copyParts (opc mmax r : Nat) : List (Option Nat × Nat) :=
  if opc = 0x10 then
    (if r ≤ mmax then [(some r, 0)] else (List.range (cdiv r mmax)).map (fun i => (some (min mmax (r - mmax * i)), mmax * i)))
  else if opc = 0x20 then [(some (rowField r), 0)] else [(none, 0)]

/-- R of a local expert: the `ROWS` of the expert the map places there. Log 106 (DEDUCED). -/
def Module.localRows (m : Module) (die : Nat) (map cnt : Tensor) (group e n : Nat) : Nat :=
  let rank := m.ctl.rankIn group
  match (List.range e).find? (fun g => match m.expert die map group g with | some x => x.rank == rank && x.die == die && x.loc == n | none => false) with
  | some g => (let r := m.record die cnt (16 * g + 8) 4; if (m.record die cnt (16 * g) 16).2 then 0 else unle r.1)
  | none => 0

/-- The copies an `rt.exloop` writes, with their queues, and how many experts run on zero rows. -/
def Module.exloopCopies (m : Module) (die off : Nat) (b : List Nat) : List (Nat × Slot) × Nat :=
  let x := m.ctl.die die
  let nd := b.getD 20 0 % 32
  let rows := (List.range (fieldAt b 18 2)).map (fun i =>
    m.localRows die (x.tens (fieldAt b 8 2)) (x.tens (fieldAt b 10 2)) (fieldAt b 12 2) (fieldAt b 14 2) (b.getD 16 0 + i))
  ((rows.zipIdx.map (fun (p : Nat × Nat) => (List.range nd).map (fun k =>
    let i := fieldAt b 24 4 + p.2 * nd + k
    let tb := memRead m.mem (descAddr m.ctl die i) 64
    (copyParts (tb.getD 0 0) (x.passOf die 0 tb).shape.mmax p.1).map (fun c =>
      ((hdrOf tb).queue, ({ desc := i, epoch := x.epoch, copy := true, rerun := false, rows := c.1, m0add := c.2, tick := 0, off := off } : Slot)))))).flatten.flatten,
   (rows.filter (· == 0)).length)

/-- A slot is written at the tail of a queue. -/
def Ctl.pushSlot (c : Ctl) (die q : Nat) (s : Slot) : Ctl :=
  let n := c.rd Fld.que_Q_SLOTS die q
  let at' := c.rd Fld.que_Q_TAIL die q
  ((c.enqueueSlots die q [s] false).onQueue die q (fun x => { x with slots := x.slots.filter (fun p => p.1 != at') ++ [(at', s)] })).wr Fld.que_Q_TAIL ((c.rd Fld.que_Q_TAIL die q + 1) % (if n = 0 then 1 else n)) die q

/-- Is a ring full (R246)? -/
def Ctl.ringFull (c : Ctl) (die q : Nat) : Bool := decide (c.rd Fld.que_Q_SLOTS die q ≤ (c.queue die q).ring.length)

/-- WATCH after a core has written `Q_TAIL` (R483). -/
def Ctl.watchTail (c : Ctl) (die q : Nat) : Ctl := c.watch die (c.coreOf die q) 0x06 0 (0x40 * q + 8)

/-- Copies are written in order until a ring is full; how many. -/
def pushCopies (die : Nat) : List (Nat × Slot) → Ctl → Nat → Ctl × Nat
  | [], c, n => (c, n)
  | x :: t, c, n => if c.ringFull die x.1 then (c, n) else pushCopies die t (c.pushSlot die x.1 x.2) (n + 1)

/-- `rt.exloop`. -/
def Module.exloop (m : Module) (die q seq : Nat) (b : List Nat) (r : RouteRun) : Module :=
  let x := m.ctl.die die
  let unit := m.ctl.ccUnit die q
  let l := m.exloopCopies die (m.ctl.offOf die q seq) b
  let e := fieldAt b 14 2
  let map := x.tens (fieldAt b 8 2)
  let bad := (List.range e).any (fun g => (m.expert die map (fieldAt b 12 2) g).isNone)
  let sn := (m.recordSeen die map 0 (8 * e)).add (m.recordSeen die (x.tens (fieldAt b 10 2)) 0 (16 * e))
  m.onCtl (fun c =>
    let c := if r.next = 0 ∧ r.event = 0 then
        ((c.saw die unit sn).rtCount die unit Fld.rt_RT_SKIP_CNT_COUNT 29 l.2).rtCount die unit Fld.rt_RT_MAPINV_CNT_COUNT 30 (b2n bad)
      else c
    let p := pushCopies die (l.1.drop r.next) c r.next
    let c := p.1.each (dedup (((l.1.drop r.next).take (p.2 - r.next)).map (·.1))) (fun c k => c.watchTail die k)
    c.setRoute die q seq { r with next := p.2, skipped := l.2, event := if l.1.length ≤ p.2 then 7 else 1 })

def execRtExloop (die queue seq : Nat) (s : State) : Host.Outcome State Fault Refusal :=
  match s.m.ctl.dieUp die, s.m.ctl.routeRun die queue seq 0x32 with
  | true, some (b, r) => if r.event = 7 then .next s else .next (s.onM (·.exloop die queue seq b r))
  | _, _ => .next s

end Sys2Proof.Machine
end

