-- ==== Sys2Proof/Machine/Collect.lean ====
section
/-! DEFINITION. Collectives: decode, the dies' issue, the chunks at a combining point, distribution, exclusion and barriers (R341 to
R348, Tables 12-6 to 12-8). The final point sends its value straight to each member that receives it. -/

namespace Sys2Proof.Machine

/-! ## The descriptor (Table 12-6) -/

/-- The link format of GRAD of a rank's format (Table 6-3). -/
def linkFmt (fmt : Nat) : Nat := if fmt = 0x04 then 0x04 else 0x09

/-- The fields of a collective, with what the plan puts in force (R164, R343). -/
def DieSt.collOf (x : DieSt) (b : List Nat) : CollDesc :=
  let h := hdrOf b
  let o := b.getD 10 0
  { opc := h.opc, group := fieldAt b 8 2, redOp := o % 8, algo := o / 8 % 4, tc := 1 + o / 32 % 2, wrz := bit o 6,
    wireFmt := if h.role = 2 && (x.planOf h.layer).steered then linkFmt ((x.planOf h.layer).fmt.getD 1 0) else b.getD 11 0 % 64,
    dieMask := b.getD 12 0, root := fieldAt b 14 2, src := x.tens (fieldAt b 16 2), dst := x.tens (fieldAt b 18 2),
    timeout := fieldAt b 20 2, elems := fieldAt b 24 4, id := fieldAt b 28 4, srcE0 := fieldAt b 32 4, dstE0 := fieldAt b 36 4,
    cvt := x.planCvt h.layer h.role (Cvt.ofWord (fieldAt b 48 8)), layer := h.layer, role := h.role }

def CollDesc.reduces (d : CollDesc) : Bool := d.opc == 0x40 || d.opc == 0x41 || d.opc == 0x44
def CollDesc.barrier (d : CollDesc) : Bool := d.opc == 0x47

/-- Does this member read its source? Log 107 (DEDUCED). -/
def CollDesc.reads (d : CollDesc) (rank : Nat) : Bool := d.reduces || d.opc == 0x42 || d.opc == 0x45 || (d.opc == 0x43 && d.root == rank)

/-- Does this member's destination receive anything? Log 107 (DEDUCED). -/
def CollDesc.writes (d : CollDesc) (rank : Nat) : Bool :=
  d.opc == 0x40 || d.opc == 0x41 || d.opc == 0x42 || d.opc == 0x43 || d.opc == 0x46 || (d.opc == 0x44 && d.root == rank)

/-- Elements of the source and of the destination, for a group of `n`. -/
def CollDesc.srcLen (d : CollDesc) (n : Nat) : Nat := if d.opc = 0x41 then n * d.elems else d.elems
def CollDesc.dstLen (d : CollDesc) (n : Nat) : Nat := if d.opc = 0x42 then n * d.elems else d.elems

/-- Do a group's members span more than one board? -/
def GroupEnt.boards (g : GroupEnt) : Bool :=
  match g.members with
  | [] => false
  | m :: t => t.any (fun p => p.1 % 1024 != m.1 % 1024)

/-- The FIELD_INVALID checks that stand without the group (R342). -/
def collReserved (b : List Nat) : Bool :=
  (hdrOf b).rsv == 0 && decide (b.getD 10 0 % 8 < 4) && b.getD 10 0 / 8 % 4 != 3 && !bit (b.getD 10 0) 7 && decide (b.getD 11 0 < 64)
    && b.getD 13 0 == 0 && zeroBytes b 22 2 && zeroBytes b 40 8 && zeroBytes b 56 8

/-- Those that a barrier adds: the fields it does not use are reserved. -/
def barrierReserved (b : List Nat) : Bool := b.getD 11 0 == 0 && zeroBytes b 16 4 && zeroBytes b 24 4 && zeroBytes b 48 8

/-- Those of an operation that moves data: of `CVTCTL` and `WIRE_FMT` whatever the operation makes of them (R26, R49, R59, R60), of the
formats as far as it uses them, of the destination where it writes it (R59, R242). L8 and S8 enter no reduction (R26). Log 107 (DEDUCED).
Log 163 (DEDUCED). -/
def CollDesc.dataOk (d : CollDesc) (die rank n : Nat) (b : List Nat) : Bool :=
  cvtReserved (fieldAt b 48 8) && !(RMode.ofCode (bitsOf (fieldAt b 48 8) 6 3)).any RMode.isSr && !d.cvt.amaxEn && d.cvt.ok
    && (decide (d.cvt.scaleSrc < 2) || d.dst.scaled) && (Fmt.ofCode (b.getD 11 0)).isSome
    && (if d.reduces then
          [0x04, 0x09, 0x0C, 0x0E].contains d.wireFmt && d.src.fmt != 0x0B && d.src.fmt != 0x0F && (!d.writes rank || d.cvt.fits d.dst)
        else d.src.fmt == d.dst.fmt)
    && (!d.writes rank || writerOk d.dst d.layer d.role)
    && localTensor die d.src && localTensor die d.dst && decide (0 < n)

/-- Checks 3 and 4 of R256 for an operation that moves data, for a member of rank `rank` of `n`. -/
def CollDesc.ranges (d : CollDesc) (x : DieSt) (rank n : Nat) (b : List Nat) : List (Bool × Nat) :=
  [((x.tensor (fieldAt b 16 2)).isSome && (x.tensor (fieldAt b 18 2)).isSome, errTensor),
   ((!d.reads rank || decide (d.srcE0 + d.srcLen n ≤ d.src.size)) && (!d.writes rank || decide (d.dstE0 + d.dstLen n ≤ d.dst.size)),
     errLen)]

/-- Decode of a collective. A group that the record does not hold has no members to count: the ranges are then those of a group of one,
whose only member is the root. Log 107 (DEDUCED). Log 164 (DEDUCED). -/
def Ctl.decodeColl (c : Ctl) (die : Nat) (b : List Nat) : Decoded :=
  let x := c.die die
  let d := x.collOf b
  match c.group d.group with
  | none =>
    if d.barrier then .reject errField
    else if d.elems = 0 then .noop
    else .reject ((firstFail (d.ranges x d.root 1 b)).getD errField)
  | some g =>
    let n := g.members.length
    let common := collReserved b && g.member && decide (d.root < n) && bit d.dieMask die && !(d.algo == 2 && g.boards)
    if d.barrier then (if common && barrierReserved b then .go (.coll d []) 0 0 else .reject errField)
    else if d.elems = 0 then .noop
    else match firstFail (d.ranges x g.rank n b ++ [(common && d.dataOk die g.rank n b, errField)]) with
      | some e => .reject e
      | none =>
        let w := if d.reduces then fmtBits d.wireFmt else d.src.width
        let bytes := if d.reads g.rank then (d.srcLen n * w + 7) / 8 else 0
        .go (.coll d []) (if 0x100000 < bytes then c.routeUnits d.group else 0) 0

/-! ## Runs -/

def Ctl.collRun (c : Ctl) (group id : Nat) : Option CollRun := c.colls.find? (fun r => r.group == group && r.id == id)

/-- Put a run in its place. -/
def Ctl.setColl (c : Ctl) (r : CollRun) : Ctl :=
  if (c.collRun r.group r.id).isSome then
    { c with colls := c.colls.map (fun x => if x.group == r.group && x.id == r.id then r else x) }
  else { c with colls := c.colls ++ [r] }

def CollRun.fresh (group id : Nat) : CollRun := ⟨group, id, [], [], false, [], [], []⟩

def CollRun.chunk (r : CollRun) (k : Nat) : CollChunk := Tab.get CollChunk.reset r.chunks k
def CollRun.onChunk (r : CollRun) (k : Nat) (f : CollChunk → CollChunk) : CollRun := { r with chunks := r.chunks.upd CollChunk.reset k f }

/-- The descriptor whose fields all the dies' descriptors share. -/
def CollRun.head (r : CollRun) : Option CollDesc := (r.issued.head?).map (·.d)

/-- Chunks of `elems` elements. Log 109 (DEDUCED). -/
def chunksOf (elems : Nat) : Nat := cdiv elems 1024

/-- A collective at this module: its group, its descriptor, this module's rank, how many members. -/
structure CollCtx where
  g : GroupEnt
  d : CollDesc
  n : Nat
  rank : Nat
deriving DecidableEq, Repr

def Ctl.collCtx (c : Ctl) (r : CollRun) : Option CollCtx :=
  match c.group r.group, r.head with
  | some g, some d => some ⟨g, d, g.members.length, g.rank⟩
  | _, _ => none

/-- How many chunks the operation has: each member's share has its own. -/
def CollCtx.total (x : CollCtx) : Nat := if x.d.opc = 0x41 ∨ x.d.opc = 0x42 then x.n * chunksOf x.d.elems else chunksOf x.d.elems

/-- The share a chunk lies in, and its place in it. -/
def CollCtx.share (x : CollCtx) (k : Nat) : Nat := if x.d.opc = 0x41 ∨ x.d.opc = 0x42 then k / chunksOf x.d.elems else 0
def CollCtx.within (x : CollCtx) (k : Nat) : Nat := if x.d.opc = 0x41 ∨ x.d.opc = 0x42 then k % chunksOf x.d.elems else k

/-- How many elements a chunk has. -/
def CollCtx.len (x : CollCtx) (k : Nat) : Nat := min 1024 (x.d.elems - 1024 * x.within k)

/-- Its first element in a die's source and in a die's destination. -/
def CollCtx.srcAt (x : CollCtx) (d : CollDesc) (k : Nat) : Nat :=
  d.srcE0 + (if x.d.opc = 0x41 then x.share k * x.d.elems else 0) + 1024 * x.within k
def CollCtx.dstAt (x : CollCtx) (d : CollDesc) (k : Nat) : Nat :=
  d.dstE0 + (if x.d.opc = 0x42 then x.share k * x.d.elems else 0) + 1024 * x.within k

/-- The member that a chunk's RING and DIRECT end at. Log 109 (DEDUCED). -/
def CollCtx.owner (x : CollCtx) (k : Nat) : Nat := if x.d.opc = 0x41 then x.share k else k % max x.n 1

/-- R346: the final point of a chunk: the root of the tree has rank 0. Log 109 (DEDUCED). -/
def CollCtx.final (x : CollCtx) (k : Nat) : Nat := if x.d.algo = 0 then 0 else x.owner k

/-- The ranks whose inputs this module combines into a chunk. -/
def CollCtx.expected (x : CollCtx) (k : Nat) : List Nat :=
  match x.d.algo with
  | 0 => x.g.children
  | 1 => if x.n ≤ 1 ∨ x.rank = (x.owner k + 1) % x.n then [] else [(x.rank + x.n - 1) % x.n]
  | _ => if x.rank = x.owner k then (List.range x.n).filter (· != x.rank) else []

/-- Where it sends the chunk when it is not the final point. Log 109 (DEDUCED). -/
def CollCtx.next (x : CollCtx) (k : Nat) : Nat :=
  match x.d.algo with
  | 0 => x.g.parent
  | 1 => (x.rank + 1) % max x.n 1
  | _ => x.owner k

/-- The members that receive a chunk's value. Log 109 (DEDUCED). -/
def CollCtx.receivers (x : CollCtx) (k : Nat) : List Nat :=
  match x.d.opc with
  | 0x41 => [x.share k]
  | 0x44 => [x.d.root]
  | 0x45 => [x.d.root]
  | 0x46 => [x.rank]
  | _ => List.range x.n

/-- The member that a non-reducing chunk comes from. Log 108 (DEDUCED). -/
def CollCtx.source (x : CollCtx) (k : Nat) : Nat :=
  match x.d.opc with
  | 0x42 => x.share k
  | 0x45 => x.rank
  | _ => x.d.root

/-- Does this module wait for a chunk's distribution? -/
def CollCtx.waits (x : CollCtx) (k : Nat) : Bool :=
  (x.receivers k).contains x.rank && (if x.d.reduces then x.final k != x.rank else x.source k != x.rank)

/-! ## Values on the links (R345, R346) -/

/-- The conversion of the links. -/
def wireCvt (fmt : Nat) (rz : Bool) : Cvt := { Cvt.reset with tgt := fmt, rmode := b2n rz, scaleSrc := if fmt = 0x04 ∨ fmt = 0x09 then 3 else 0 }

/-- Lists of at most `n`. -/
def chop (n : Nat) : Nat → List Val → List (List Val)
  | 0, _ => []
  | f + 1, l => if l.isEmpty then [] else l.take n :: chop n f (l.drop n)

/-- A block narrowed: its codes, its scale, its SAT and UNF events. -/
def wireBlock (fmt : Nat) (rz : Bool) (l : List Val) : List Nat × Nat × Nat :=
  let cv := wireCvt fmt rz
  let sc := blockCode cv.fmt (l.map CIn.val)
  let o := l.map (fun v => cv.elem (if cv.scaleSrc = 3 then OScale.ofByte sc else .one) 0 (.val v))
  (o.map (·.code), sc, ((o.map (·.ev)).flatten.filter (fun e => e == 0 || e == 2)).length)

/-- A chunk narrowed: its payload and its events. Log 110 (DEDUCED). -/
def narrow (fmt : Nat) (rz : Bool) (l : List Val) : List Nat × Nat :=
  let bs := (chop 32 32 l).map (wireBlock fmt rz)
  let codes := (bs.map (·.1)).flatten
  let w := fmtBits fmt
  (le (runLen w 0 codes.length) (packCodes w codes) ++ (if fmt = 0x04 ∨ fmt = 0x09 then bs.map (·.2.1) else []),
    (bs.map (·.2.2)).foldl (· + ·) 0)

/-- The codes of a payload of `n` elements. -/
def payloadCodes (w n : Nat) (b : List Nat) : List Nat :=
  let v := unle (bytesAt b 0 (runLen w 0 n))
  (List.range n).map (fun i => bitsOf v (w * i) w)

/-- The scale bytes behind them. -/
def payloadScales (w n : Nat) (b : List Nat) : List Nat := b.drop (runLen w 0 n)

/-- The values of a payload. Log 110 (DEDUCED). -/
def widen (fmt n : Nat) (b : List Nat) : List Val :=
  let w := fmtBits fmt
  let sc := payloadScales w n b
  (payloadCodes w n b).zipIdx.map (fun (p : Nat × Nat) =>
    elemVal fmt { code := p.1, poison := false, scale := if fmt = 0x04 ∨ fmt = 0x09 then sc.getD (p.2 / 32) 0xFF else 0x78 })

/-- The bytes of a payload of `n` elements in a link format. -/
def wireLen (fmt n : Nat) : Nat := runLen (fmtBits fmt) 0 n + (if fmt = 0x04 ∨ fmt = 0x09 then cdiv n 32 else 0)

/-- The format of a payload of `n` elements from another module (Table 12-4): this module's own, where the length is that of it, else the
link format whose length it has: the commands carry no format code. Log 193 (DEDUCED). -/
def payloadFmt (own n : Nat) (b : List Nat) : Nat := (([own, 0x04, 0x09, 0x0C, 0x0E].find? (fun f => wireLen f n == b.length))).getD own

/-- One step of a reduction. Log 110 (DEDUCED). -/
def redStep (op : Nat) (a b : Val) : Val := match op with | 2 => fpMax a b | 3 => fpMin a b | _ => a.add b

/-- The reduction of a column; +0 of none, and of a sum equal to zero (Table 2-9). -/
def redAll (op : Nat) (l : List Val) : Val :=
  match l with
  | [] => Val.zero
  | v :: t => let r := t.foldl (redStep op) v; if op = 2 ∨ op = 3 then r else r.plusZero

/-- The reduction of lists of one length, element by element. -/
def redLists (op n : Nat) (l : List (List Val)) : List Val := (List.range n).map (fun i => redAll op (l.map (fun x => x.getD i Val.zero)))

/-- How a tensor's elements are scaled. -/
def Tensor.scaling (t : Tensor) : ScaleOf := if t.scaled then .block else .all 0xFF

/-- The places of a chunk in a tensor. -/
def chunkAt (t : Tensor) (e0 n : Nat) : List (Nat × Nat) := (List.range n).map (fun i => t.flat (e0 + i))

/-- The code of an element of a die's source: of a tile buffer, as it was taken from there. -/
def Module.collCode (m : Module) (q : CollDie) (r c : Nat) : Nat :=
  match q.held.find? (fun p => p.1 == r) with
  | some p => p.2.getD c 0
  | none => m.elemCode q.die q.d.src r c

/-- The elements of a die's source; a masked one takes no part. -/
def Module.srcElems (m : Module) (q : CollDie) (e0 n : Nat) : List (Option Val) :=
  let t := q.d.src
  (chunkAt t e0 n).map (fun p =>
    let e := m.elemAs t t.scaling (m.collCode q p.1 p.2) p.1 p.2
    if e.masked then none else some (elemVal t.fmt e))

/-- R344: the module's contribution to a chunk, exact. Log 110 (DEDUCED). -/
def Module.contribution (m : Module) (x : CollCtx) (dies : List CollDie) (k : Nat) : List Val :=
  let l := dies.map (fun q => m.srcElems q (x.srcAt q.d k) (x.len k))
  (List.range (x.len k)).map (fun i => redAll x.d.redOp (l.filterMap (fun s => s.getD i none)))

/-- Source bits and scale arrays of a chunk, unchanged. -/
def Module.rawChunk (m : Module) (x : CollCtx) (q : CollDie) (k : Nat) : List Nat :=
  let t := q.d.src
  let ps := chunkAt t (x.srcAt q.d k) (x.len k)
  le (runLen t.width 0 ps.length) (packCodes t.width (ps.map (fun p => if m.ctl.elemBad t p.1 p.2 then m.sentCode q.die t p.1 p.2 else m.collCode q p.1 p.2)))
    ++ (if t.scaled then (dedup (ps.map (fun p => t.scaleAddr p.1 p.2))).map (fun a => if m.ctl.lineBad (a / 64) then 0xFF else memByte m.mem a) else [])

/-- What the dies' reading of a chunk raises. -/
def Module.chunkSeen (m : Module) (x : CollCtx) (dies : List CollDie) (k : Nat) : Module :=
  dies.foldl (fun m q =>
    let sn := m.seenWith (m.collCode q) q.d.src q.d.src.scaling (chunkAt q.d.src (x.srcAt q.d k) (x.len k))
    m.onCtl (fun c => c.saw q.die (c.ccUnit q.die q.queue) sn)) m

/-! ## Sending -/

/-- A COLL frame to a member. Log 111 (DESIGN CHOICE). -/
def Ctl.sendColl (c : Ctl) (x : CollCtx) (rank k phase ncontrib fmt : Nat) (b : List Nat) : Ctl :=
  match x.g.members[rank]? with
  | some p =>
    let f := c.newFrame x.d.tc 4 (k % 4) p.1 x.g.id b
    f.2.route { f.1 with mseq := x.d.id, chunk := k, phase := phase, ncontrib := ncontrib, wireFmt := fmt } none
  | none => c

/-! ## Writing a destination -/

/-- The places of the block, or of the run of 32, that a place lies in (R41, R155). -/
def Tensor.blockOf (t : Tensor) (r c : Nat) : List (Nat × Nat) :=
  let n := if t.scaled then t.bsize else 32
  if t.innerRows then ((List.range n).map (fun i => (r / n * n + i, c))).filter (fun p => decide (p.1 < t.rows))
  else ((List.range n).map (fun i => (r, c / n * n + i))).filter (fun p => decide (p.2 < t.cols))

/-- The chunk that brings element `e` of a die's destination. -/
def CollCtx.chunkOf (x : CollCtx) (d : CollDesc) (e : Nat) : Nat :=
  let o := e - d.dstE0
  match x.d.opc with
  | 0x41 => x.rank * chunksOf x.d.elems + o / 1024
  | 0x42 => o / max x.d.elems 1 * chunksOf x.d.elems + o % max x.d.elems 1 / 1024
  | _ => o / 1024

/-- Has every element of the block of `e` come that the collective writes there? -/
def CollCtx.blockHere (x : CollCtx) (r : CollRun) (d : CollDesc) (e : Nat) : Bool :=
  let p := d.dst.flat e
  (d.dst.blockOf p.1 p.2).all (fun q =>
    let f := q.1 * d.dst.cols + q.2
    decide (f < d.dstE0) || decide (d.dstE0 + d.dstLen x.n ≤ f) || (r.chunk (x.chunkOf d f)).dist)

/-- Elements of a destination, by number, as `CVTCTL` meets them. -/
def collElems (t : Tensor) (l : List (Nat × Val)) : List CElem :=
  l.map (fun (p : Nat × Val) =>
    let a := t.flat p.1
    { row := a.1, col := a.2, x := .val p.2, part := true, fill := false, slice := 0,
      run := if t.innerRows then a.2 * 2 ^ 32 + a.1 / 32 else a.1 * 2 ^ 32 + a.2 / 32 })

/-- Values enter a die's destination through `CVTCTL`, block by block: those of a block that a chunk still to come completes are held
until then (R63, R64, R155). Log 110 (DEDUCED). -/
def Module.putConverted (m : Module) (x : CollCtx) (q : CollDie) (l : List (Nat × Val)) : Module :=
  match m.ctl.collRun x.d.group x.d.id with
  | none => m
  | some r =>
    let t := q.d.dst
    let all := ((r.held.filter (fun p => p.1 == q.die)).map (·.2)) ++ l
    let now := all.filter (fun p => x.blockHere r q.d p.1)
    let keep := (all.filter (fun p => !x.blockHere r q.d p.1)).map (fun p => (q.die, p))
    let m := m.onCtl (·.setColl { r with held := r.held.filter (fun p => p.1 != q.die) ++ keep })
    let unit := m.ctl.ccUnit q.die q.queue
    let res := m.convert q.d.cvt (some t) (collElems t now)
    let m := m.putThrough q.die unit (some (q.queue, q.seq)) t res.writes res.scales
    m.onCtl (fun c => c.tally q.die unit (c.epochOf q.die q.queue q.seq) q.d.layer q.d.role q.d.cvt (some t) res)

/-- The bits of a chunk enter it unchanged. -/
def Module.putRaw (m : Module) (x : CollCtx) (q : CollDie) (k : Nat) (b : List Nat) : Module :=
  let t := q.d.dst
  let e0 := x.dstAt q.d k
  let as := if t.scaled then dedup ((chunkAt t e0 (x.len k)).map (fun p => t.scaleAddr p.1 p.2)) else []
  m.putThrough q.die (m.ctl.ccUnit q.die q.queue) (some (q.queue, q.seq)) t (t.outsAt e0 (payloadCodes t.width (x.len k) b))
    (as.zip (payloadScales t.width (x.len k) b))

/-- A chunk's distributed payload reaches every die's destination. -/
def Module.putChunk (m : Module) (x : CollCtx) (dies : List CollDie) (k : Nat) (b : List Nat) : Module :=
  dies.foldl (fun m q =>
    if x.d.reduces then
      m.putConverted x q ((widen (payloadFmt x.d.wireFmt (x.len k) b) (x.len k) b).zipIdx.map (fun (p : Val × Nat) => (x.dstAt q.d k + p.2, p.1)))
    else m.putRaw x q k b) m

/-- R348: +0 in every element of a chunk; the blocks it completes are converted without them. -/
def Module.zeroChunk (m : Module) (x : CollCtx) (dies : List CollDie) (k : Nat) : Module :=
  dies.foldl (fun m q =>
    let t := q.d.dst
    let m := m.putThrough q.die (m.ctl.ccUnit q.die q.queue) (some (q.queue, q.seq)) t
      (t.outsAt (x.dstAt q.d k) (List.replicate (x.len k) (zeroCode ((Fmt.ofCode t.fmt).getD .fp32) false))) []
    if x.d.reduces then m.putConverted x q [] else m) m

/-! ## Combining (R346, R347) -/

/-- Inputs that a chunk still waits for. -/
def CollChunk.missing (h : CollChunk) (exp : List Nat) : List Nat :=
  exp.filter (fun r => !(h.inputs.any (fun i => i.1 == r)) && !h.excluded.contains r)

/-- May a chunk be combined? -/
def CollChunk.ready (h : CollChunk) (exp : List Nat) : Bool := h.own.isSome && !h.combined && (h.missing exp).isEmpty

/-- The combined chunk, rounded to FP32, and its contributions. -/
def CollCtx.sum (x : CollCtx) (k : Nat) (h : CollChunk) : List Val × Nat :=
  let ins := h.inputs.filter (fun i => (x.expected k).contains i.1)
  let l := (h.own.getD []) :: ins.map (fun i => widen (payloadFmt x.d.wireFmt (x.len k) i.2.2) (x.len k) i.2.2)
  ((redLists x.d.redOp (x.len k) l).map (fun v => fp32Val (fp32Round v)), 1 + (ins.map (·.2.1)).foldl (· + ·) 0)

/-- MEAN divides once, at the final point. -/
def CollCtx.finish (x : CollCtx) (l : List Val) (nc : Nat) : List Val :=
  if x.d.redOp = 1 then l.map (fun v => fp32Val (fp32Round (v.div (Val.ofInt nc)))) else l

/-- Combine a chunk and send it on: to the next combining point, or from the final point to the receivers. -/
def Module.combineChunk (m : Module) (r : CollRun) (x : CollCtx) (k : Nat) : Module :=
  let h := r.chunk k
  let s := x.sum k h
  let isFinal := x.final k == x.rank
  let nw := narrow x.d.wireFmt x.d.wrz (if isFinal then x.finish s.1 s.2 else s.1)
  let mine := isFinal && (x.receivers k).contains x.rank
  let m := m.onCtl (fun c =>
    let c := c.setColl (r.onChunk k (fun h => { h with combined := true, inputs := h.inputs.filter (fun i => i.1 == 65535), dist := h.dist || mine }))
    let c := c.bump Fld.ls_WIRE_SAT_CNT_COUNT 0 0 nw.2
    if isFinal then c.each ((x.receivers k).filter (· != x.rank)) (fun c t => c.sendColl x t k 1 s.2 x.d.wireFmt nw.1)
    else c.sendColl x (x.next k) k 0 s.2 x.d.wireFmt nw.1)
  if mine then m.putChunk x r.issued k nw.1 else m

/-- A chunk is combined where all is there. -/
def Module.tryCombine (m : Module) (group id k : Nat) : Module :=
  match m.ctl.collRun group id with
  | some r =>
    (match m.ctl.collCtx r with
     | some x => if r.started && x.d.reduces && (r.chunk k).ready (x.expected k) then m.combineChunk r x k else m
     | none => m)
  | none => m

/-- A payload that came before this module was ready is taken. -/
def Module.takeEarly (m : Module) (group id k : Nat) : Module :=
  match m.ctl.collRun group id with
  | some r =>
    (match m.ctl.collCtx r, (r.chunk k).inputs.find? (fun i => i.1 == 65535) with
     | some x, some i =>
       if r.started && x.waits k && !(r.chunk k).dist then
         (m.onCtl (·.setColl (r.onChunk k (fun h => { h with dist := true })))).putChunk x r.issued k i.2.2
       else m
     | _, _ => m)
  | none => m

/-! ## Barriers (R341) -/

/-- The barriers of a group that wait at this module. -/
def Ctl.barriersOf (c : Ctl) (group : Nat) : List CollRun :=
  c.colls.filter (fun r => r.group == group && r.started && (match r.head with | some d => d.barrier | none => false) && !(r.chunk 0).dist)

/-- Have all other members' tokens of the present barrier come? -/
def Ctl.tokensIn (c : Ctl) (g : GroupEnt) : Bool :=
  ((List.range g.members.length).filter (· != g.rank)).all (fun r => c.barriers.contains ⟨g.id, r, g.barrierSeq⟩)

/-- The oldest barrier that waits completes once every member has issued it. -/
def Ctl.barrierStep (c : Ctl) (group : Nat) : Ctl :=
  match c.group group, c.barriersOf group with
  | some g, r :: _ =>
    if c.tokensIn g then
      let c := c.setColl (r.onChunk 0 (fun h => { h with dist := true }))
      { c with barriers := c.barriers.filter (fun t => !(t.group == group && t.seq == g.barrierSeq))
               job := { c.job with roll := { c.job.roll with
                 groups := c.job.roll.groups.map (fun e => if e.id == group then { e with barrierSeq := (e.barrierSeq + 1) % 2 ^ 32 } else e) } } }
    else c
  | _, _ => c

/-- This module has issued a barrier: its tokens go to the other members. Log 111 (DESIGN CHOICE). -/
def Ctl.barrierIssue (c : Ctl) (x : CollCtx) (waiting : Nat) : Ctl :=
  let seq := (x.g.barrierSeq + waiting) % 2 ^ 32
  c.each (x.g.members.zipIdx.filter (fun (p : (Nat × Nat) × Nat) => p.2 != x.rank)) (fun c (p : (Nat × Nat) × Nat) =>
    c.sendFrame 0 2 0 p.1.1 x.g.id (le 2 x.g.id ++ le 2 x.rank ++ le 4 seq))

/-- BARRIER_TOKEN_RECEIVE. Log 111 (DESIGN CHOICE). -/
def Ctl.barrierToken (c : Ctl) (t : BarrierTok) : Ctl :=
  let c := if c.barriers.contains t then c else { c with barriers := c.barriers ++ [t] }
  c.barrierStep t.group

def execBarrierTokenReceive (group rank seq : Nat) (s : State) : Host.Outcome State Fault Refusal :=
  match s.m.ctl.group group with
  | some g => if rank < g.members.length ∧ rank ≠ g.rank then .next (s.onM (·.onCtl (·.barrierToken ⟨group, rank, seq⟩))) else .next s
  | none => .next s

/-! ## Issue and start (R344) -/

/-- One chunk at the start: the own contribution is formed, or the own source is sent. -/
def Module.startChunk (m : Module) (group id k : Nat) : Module :=
  match m.ctl.collRun group id with
  | some r =>
    (match m.ctl.collCtx r with
     | some x =>
       if x.d.reduces then
         let own := m.contribution x r.issued k
         ((m.chunkSeen x r.issued k).onCtl (·.setColl (r.onChunk k (fun h => { h with own := some own })))).tryCombine group id k
       else if x.d.opc != 0x46 && x.source k == x.rank then
         match r.issued.head? with
         | some q =>
           let b := m.rawChunk x q k
           let m := (m.chunkSeen x [q] k).onCtl (fun c =>
             c.each ((x.receivers k).filter (· != x.rank)) (fun c t => c.sendColl x t k 1 1 q.d.src.fmt b))
           if (x.receivers k).contains x.rank then (m.putChunk x r.issued k b).onCtl (·.setColl (r.onChunk k (fun h => { h with dist := true }))) else m
         | none => m
       else m
     | none => m)
  | none => m

/-- The rows of its source that a die's descriptor reads, of a group of `n` in which this module has rank `rank`. -/
def CollDesc.srcRows (d : CollDesc) (rank n : Nat) : List Nat := if !d.barrier && d.reads rank then d.src.rowSpan d.srcE0 (d.srcLen n) else []

/-- Every die has issued, or those that have not are left out. -/
def Module.startColl (m : Module) (group id : Nat) : Module :=
  match m.ctl.collRun group id with
  | some r =>
    (match m.ctl.collCtx r with
     | some x =>
       let waiting := (m.ctl.barriersOf group).length
       let m := m.onCtl (·.setColl { r with started := true })
       if x.d.barrier then m.onCtl (fun c => (c.barrierIssue x waiting).barrierStep group)
       else
         (List.range x.total).foldl (fun m k => (m.startChunk group id k).takeEarly group id k) m
     | none => m)
  | none => m

/-- The dies a collective asks for. -/
def CollDesc.dies (d : CollDesc) : List Nat := (List.range 8).filter (bit d.dieMask)

/-- Is nothing left of a run for the dies that issued it? -/
def CollRun.over (r : CollRun) : Bool := !r.issued.isEmpty && r.issued.all (fun q => r.ended.contains q.die)

/-- A die's descriptor joins its collective: a new one, where the last of its name is over. Log 108 (DEDUCED). -/
def Module.issueColl (m : Module) (q : CollDie) : Module :=
  let r := match m.ctl.collRun q.d.group q.d.id with
    | some r => if r.over then CollRun.fresh q.d.group q.d.id else r
    | none => CollRun.fresh q.d.group q.d.id
  let r := { r with issued := ((List.range 8).map (fun n => (r.issued ++ [q]).filter (fun x => x.die == n))).flatten }
  let m := m.onCtl (·.setColl r)
  if !r.started && q.d.dies.all (fun n => r.issued.any (fun x => x.die == n)) then m.startColl q.d.group q.d.id else m

/-- A running collective descriptor of an operation that has not joined yet. -/
def Ctl.collReady (c : Ctl) (die q seq opc : Nat) : Option CollDie :=
  match c.desc die q seq with
  | some x =>
    match x.stage, x.work with
    | .running, .coll d held =>
      if x.raw.getD 0 0 = opc ∧ !(c.colls.any (fun r => !r.over && r.issued.any (fun y => y.die == die && y.queue == q && y.seq == seq))) then
        some ⟨die, q, seq, d, held⟩
      else none
    | _, _ => none
  | none => none

/-- The rows of its source that a die's descriptor has still to take out of a tile buffer (R192). -/
def Ctl.collLeft (c : Ctl) (q : CollDie) : List Nat :=
  match c.group q.d.group with
  | some g => if q.d.src.inTb then (q.d.srcRows g.rank g.members.length).drop q.held.length else []
  | none => []

/-- Those of them that stand ready are taken; once all are, the descriptor joins its collective. -/
def Module.joinColl (m : Module) (q : CollDie) : Module :=
  let left := m.ctl.collLeft q
  let rows := left.take (m.ctl.readyRun q.die [] (q.d.src.rowsOf left))
  let held := q.held ++ rows.map (fun r => (r, (List.range q.d.src.cols).map (m.elemCode q.die q.d.src r)))
  let m := m.onCtl (fun c => (c.rowsTook q.die q.d.src rows).onDesc q.die q.queue q.seq (fun x => { x with work := .coll q.d held }))
  if rows.length = left.length then m.issueColl { q with held := held } else m

/-- The meaning the eight operations share. -/
def runColl (opc die queue seq : Nat) (s : State) : Host.Outcome State Fault Refusal :=
  match s.m.ctl.dieUp die, s.m.ctl.collReady die queue seq opc with
  | true, some q => .next (s.onM (·.joinColl q))
  | _, _ => .next s

def execClAllreduce (die queue seq : Nat) (s : State) : Host.Outcome State Fault Refusal := runColl 0x40 die queue seq s
def execClReducescatter (die queue seq : Nat) (s : State) : Host.Outcome State Fault Refusal := runColl 0x41 die queue seq s
def execClAllgather (die queue seq : Nat) (s : State) : Host.Outcome State Fault Refusal := runColl 0x42 die queue seq s
def execClBcast (die queue seq : Nat) (s : State) : Host.Outcome State Fault Refusal := runColl 0x43 die queue seq s
def execClReduce (die queue seq : Nat) (s : State) : Host.Outcome State Fault Refusal := runColl 0x44 die queue seq s
def execClSend (die queue seq : Nat) (s : State) : Host.Outcome State Fault Refusal := runColl 0x45 die queue seq s
def execClRecv (die queue seq : Nat) (s : State) : Host.Outcome State Fault Refusal := runColl 0x46 die queue seq s
def execClBarrier (die queue seq : Nat) (s : State) : Host.Outcome State Fault Refusal := runColl 0x47 die queue seq s

/-- DIE_ISSUE_TIMEOUT (R344). Log 108 (DEDUCED). -/
def Module.leaveOut (m : Module) (r : CollRun) (d : CollDesc) : Module :=
  let out := d.dies.filter (fun n => !r.issued.any (fun x => x.die == n))
  (m.onCtl (fun c => (c.setColl { r with leftOut := out }).bump Fld.ls_COLL_EXCL_CNT_COUNT 0 0 out.length)).startColl r.group r.id

def execDieIssueTimeout (group coll : Nat) (s : State) : Host.Outcome State Fault Refusal :=
  match s.m.ctl.collRun group coll with
  | some r => (match r.head with
    | some d => if r.started then .next s else .next (s.onM (·.leaveOut r d))
    | none => .next s)
  | none => .next s

/-! ## Inputs (R346, R348) -/

/-- The run that a payload belongs to: one that waits, or a new one where the last of its name is over. -/
def Ctl.collFor (c : Ctl) (group id : Nat) : CollRun :=
  match c.collRun group id with
  | some r => if r.over then CollRun.fresh group id else r
  | none => CollRun.fresh group id

/-- Was an input excluded from a chunk? Log 108 (DEDUCED). -/
def Ctl.wasExcluded (c : Ctl) (group id k rank : Nat) : Option CollRun :=
  match c.collRun group id with
  | some r => if (r.chunk k).excluded.contains rank then some r else none
  | none => none

/-- CHUNK_RECEIVE: an input of the reduce phase. -/
def Module.chunkIn (m : Module) (group id k rank nc : Nat) (b : List Nat) : Module :=
  match m.ctl.wasExcluded group id k rank with
  | some r => m.onCtl (fun c =>
      (c.setColl (r.onChunk k (fun h => { h with excluded := without h.excluded rank }))).bump Fld.ls_COLL_LATE_CNT_COUNT)
  | none =>
    let r := m.ctl.collFor group id
    let h := r.chunk k
    if h.combined || h.inputs.any (fun i => i.1 == rank) then m
    else (m.onCtl (·.setColl (r.onChunk k (fun h => { h with inputs := h.inputs ++ [(rank, nc, b)] })))).tryCombine group id k

def execChunkReceive (group coll chunk rank ncontrib : Nat) (bytes : List Nat) (s : State) : Host.Outcome State Fault Refusal :=
  match s.m.ctl.group group with
  | some g => if rank < g.members.length then .next (s.onM (·.chunkIn group coll chunk rank ncontrib bytes)) else .next s
  | none => .next s

/-- COMBINE_WAIT_TIMEOUT: what is missing is excluded and counted. -/
def Module.excludeMissing (m : Module) (r : CollRun) (x : CollCtx) (k : Nat) : Module :=
  let out := (r.chunk k).missing (x.expected k)
  (m.onCtl (fun c =>
    let c := c.setColl (r.onChunk k (fun h => { h with excluded := h.excluded ++ out }))
    let c := (c.bump Fld.ls_COLL_EXCL_CNT_COUNT 0 0 out.length).bump Fld.ls_STEP_DROPPED_COUNT 0 0 out.length
    { c with job := { c.job with dropped := c.job.dropped + out.length } })).tryCombine r.group r.id k

def execCombineWaitTimeout (group coll chunk : Nat) (s : State) : Host.Outcome State Fault Refusal :=
  match s.m.ctl.collRun group coll with
  | some r => (match s.m.ctl.collCtx r with
    | some x =>
      if r.started && x.d.reduces && (r.chunk chunk).own.isSome && !(r.chunk chunk).combined
          && !((r.chunk chunk).missing (x.expected chunk)).isEmpty then
        .next (s.onM (·.excludeMissing r x chunk))
      else .next s
    | none => .next s)
  | none => .next s

/-- DISTRIBUTE_RECEIVE: the final value of a chunk, or a source's bits. -/
def Module.distIn (m : Module) (group id k : Nat) (b : List Nat) : Module :=
  let r := m.ctl.collFor group id
  if (r.chunk k).dist || (r.chunk k).inputs.any (fun i => i.1 == 65535) then m
  else (m.onCtl (·.setColl (r.onChunk k (fun h => { h with inputs := h.inputs ++ [(65535, 0, b)] })))).takeEarly group id k

def execDistributeReceive (group coll chunk : Nat) (bytes : List Nat) (s : State) : Host.Outcome State Fault Refusal :=
  match s.m.ctl.group group with
  | some _ => .next (s.onM (·.distIn group coll chunk bytes))
  | none => .next s

/-- DIST_LOST (R348). Log 111 (DESIGN CHOICE). -/
def Module.distLost (m : Module) (r : CollRun) (x : CollCtx) (k : Nat) : Module :=
  ((m.onCtl (fun c =>
    ((c.setColl (r.onChunk k (fun h => { h with dist := true }))).bump Fld.ls_DIST_LOST_CNT_COUNT).post 0x0505 1 dieHB 0xFF
      (le 2 r.group ++ [0, 0] ++ le 4 r.id ++ le 4 k)))).zeroChunk x r.issued k

def execDistLost (group coll chunk : Nat) (s : State) : Host.Outcome State Fault Refusal :=
  match s.m.ctl.collRun group coll with
  | some r => (match s.m.ctl.collCtx r with
    | some x =>
      if r.started && decide (chunk < x.total) && x.waits chunk && !(r.chunk chunk).dist
          && (!x.d.reduces || (r.chunk chunk).combined) then
        .next (s.onM (·.distLost r x chunk))
      else .next s
    | none => .next s)
  | none => .next s

/-! ## Completion -/

/-- Has a collective done all that this module has to do? -/
def Ctl.collFinished (c : Ctl) (r : CollRun) : Bool :=
  match c.collCtx r with
  | some x =>
    r.started && (if x.d.barrier then (r.chunk 0).dist
      else (List.range x.total).all (fun k => (!x.d.reduces || (r.chunk k).combined) && (!x.waits k || (r.chunk k).dist)))
  | none => false

/-- The run a running descriptor belongs to, where it is finished. -/
def Ctl.collDone (c : Ctl) (die q seq : Nat) : Option CollRun :=
  c.colls.find? (fun r => r.issued.any (fun x => x.die == die && x.queue == q && x.seq == seq) && !r.ended.contains die && c.collFinished r)

/-- A die's descriptor completes: the run is forgotten once all have, unless an excluded input may still come. -/
def Ctl.collRetire (c : Ctl) (r : CollRun) (die : Nat) : Ctl :=
  let r := { r with ended := addNew r.ended die }
  if r.over && r.chunks.all (fun p => p.2.excluded.isEmpty) then
    { c with colls := c.colls.filter (fun x => !(x.group == r.group && x.id == r.id)) }
  else c.setColl r

end Sys2Proof.Machine
end

