-- ==== Sys2Proof/Machine/GenData.lean ====
section
/-! DEFINITION. The module sections of a generation as bytes, and read back from bytes (R360, R361, R383): the stream counter
tables, the committed Lantern state, the plan entries and the Roll Call record. -/

namespace Sys2Proof.Machine

/-! ## Stream counter tables (Table 3-5) -/

def Stream.bytes (s : Stream) : List Nat := le 8 s.next ++ le 2 s.owner ++ [b2n s.owned + 2 * b2n s.shared, 0, 0, 0, 0, 0]

def streamOf (b : List Nat) : Stream := ⟨fieldAt b 0 8, fieldAt b 8 2, bit (b.getD 10 0) 0, bit (b.getD 10 0) 1⟩

/-- A die's table: 65,536 entries of 16 bytes. -/
def DieSt.streamBytes (x : DieSt) : List Nat := ((List.range 65536).map (fun i => (Tab.get Stream.reset x.streams i).bytes)).flatten

/-- The tables of CD0 to CD7, in die order. -/
def Ctl.streamBytes (c : Ctl) : List Nat := ((List.range 8).map (fun d => (c.die d).streamBytes)).flatten

/-- R291: `GEN_DIGEST`. -/
def Ctl.genDigest (c : Ctl) : Nat := crc32c c.streamBytes

/-- The entries of a table read from bytes; those at reset are not listed. -/
def streamTab (b : List Nat) : Tab Nat Stream :=
  ((List.range 65536).map (fun i => (i, streamOf (bytesAt b (16 * i) 16)))).filter (fun (p : Nat × Stream) => p.2 != Stream.reset)

def Ctl.putStreams (c : Ctl) (b : List Nat) : Ctl :=
  c.each (List.range 8) (fun c d => c.onDie d (fun x => { x with streams := streamTab (bytesAt b (1048576 * d) 1048576) }))

/-! ## Committed Lantern state (R161) -/

/-- A die's part: `LN_DECAY`, `LN_AGREE`, 62 bytes 0, and 2,048 layer records (Table 6-1) with every provisional field 0. Log 125 (DESIGN CHOICE). -/
def Ctl.lanternBytes (c : Ctl) (d : Nat) : List Nat :=
  padTo 64 [c.rd Fld.ln_LN_DECAY_SHIFT d, c.rd Fld.ln_LN_AGREE_SHIFT d]
    ++ ((List.range 2048).map (fun l => (Tab.get LayerRec.reset (c.die d).layers l).clear.bytes)).flatten

def lanternLen : Nat := 64 + 2048 * 512

def roleStatOf (b : List Nat) : RoleStat :=
  ⟨fieldAt b 0 4, fieldAt b 4 4, fieldAt b 8 4, (List.range 16).map (fun i => fieldAt b (12 + 4 * i) 4)⟩

/-- A sum register holding what its FP32 field says, in units of 2^-64 (R156). Log 142 (DESIGN CHOICE). -/
def sumReg (v : Nat) : Nat := sumAdd 0 (fp32Val v)

/-- Log 142 (DESIGN CHOICE). -/
def wideOf (b : List Nat) : WideStat := ⟨fieldAt b 0 4, sumReg (fieldAt b 4 4), fieldAt b 8 4, sumReg (fieldAt b 12 4), sumReg (fieldAt b 16 4)⟩

/-- The committed part of a record; its provisional part clear. Log 125 (DESIGN CHOICE). Log 142 (DESIGN CHOICE). -/
def layerOf (b : List Nat) : LayerRec :=
  { LayerRec.reset with
    comm := (List.range 3).map (fun r => roleStatOf (bytesAt b (156 * r + 80) 76))
    runmax := (List.range 3).map (fun r => fieldAt b (156 * r + 76) 4)
    cWide := wideOf (bytesAt b 488 20) }

def layerTab (b : List Nat) : Tab Nat LayerRec :=
  ((List.range 2048).map (fun i => (i, layerOf (bytesAt b (512 * i) 512)))).filter (fun (p : Nat × LayerRec) => p.2 != LayerRec.reset)

/-- R161, R385: the committed state is written back and the provisional bank cleared. Log 142 (DESIGN CHOICE). -/
def Ctl.putLantern (c : Ctl) (b : List Nat) : Ctl :=
  c.each (List.range 8) (fun c d =>
    let x := bytesAt b (lanternLen * d) lanternLen
    let c := (c.wr Fld.ln_LN_DECAY_SHIFT (x.getD 0 0) d).wr Fld.ln_LN_AGREE_SHIFT (x.getD 1 0) d
    ((c.wr Fld.ln_LN_STATUS_FENCE 0 d).wr Fld.ln_LN_STATUS_CNT_SAT 0 d).onDie d (fun s => { s with
      layers := layerTab (x.drop 64)
      late := []
      fence := none }))

/-! ## Plan entries (Table 6-4) -/

def unpack3 (v : Nat) : List Nat := [v % 4, v / 4 % 4, v / 16 % 4]

def planOfBytes (b : List Nat) : Plan :=
  { fmt := (b.take 3).map (· % 64), scale := (b.drop 3).take 3, xbase := ((b.drop 6).take 3).map (sext 8), lrExp := sext 4 (b.getD 9 0),
    ceil := unpack3 (b.getD 10 0), floor := unpack3 (b.getD 11 0), serial := bit (b.getD 10 0) 6, steered := bit (b.getD 10 0) 7,
    fixedP := bit (b.getD 11 0) 6, fellBack := (List.range 3).map (bit (b.getD 12 0)), hold := bit (b.getD 12 0) 3,
    narrowRun := fieldAt b 14 2, planSeq := fieldAt b 16 4 }

def DieSt.planBytes (x : DieSt) : List Nat := ((List.range 2048).map (fun l => (x.planOf l).bytes)).flatten

def planTab (b : List Nat) : Tab Nat Plan :=
  ((List.range 2048).map (fun i => (i, planOfBytes (bytesAt b (32 * i) 32)))).filter (fun (p : Nat × Plan) => p.2 != Plan.reset)

def Ctl.putPlans (c : Ctl) (b : List Nat) : Ctl :=
  c.each (List.range 8) (fun c d =>
    let t := planTab (bytesAt b (65536 * d) 65536)
    c.onDie d (fun x => { x with
      plan := t
      planStep := t }))

/-! ## The Roll Call record (R383) -/

/-- The bytes of a member table. -/
def GroupEnt.table (g : GroupEnt) : List Nat :=
  (g.members.map (fun (m : Nat × Nat) => le 2 m.1 ++ [0, 0] ++ le 8 m.2 ++ [0, 0, 0, 0])).flatten

/-- `OWN_RANK` of a group entry. -/
def GroupEnt.ownRank (g : GroupEnt) : Nat := if g.member then g.rank else 0xFFFF

/-- A group entry (Table 13-8), its member table at `ofs`, with an `OWN_RANK`. -/
def GroupEnt.bytes (g : GroupEnt) (ofs : Nat) (own : Nat) : List Nat :=
  padTo 64 (le 2 g.id ++ [g.kind, b2n g.member] ++ le 2 g.members.length ++ le 2 own
    ++ le 2 g.parent ++ [g.children.length, g.parityK] ++ ((List.range 8).map (fun i => le 2 (g.children.getD i 0xFFFF))).flatten
    ++ le 8 g.routes ++ le 4 g.epoch ++ le 4 g.barrierSeq ++ le 4 ofs)

/-- The group entries, with the offsets of their member tables and the `OWN_RANK` that `own` gives. -/
def groupEntries (own : GroupEnt → Nat) : Nat → List GroupEnt → List Nat
  | _, [] => []
  | o, g :: t => g.bytes o (own g) ++ groupEntries own (o + 16 * g.members.length) t

/-- The bytes of a record. -/
def RollCall.size (r : RollCall) : Nat := 64 + 64 * r.groups.length + 16 * (r.groups.map (·.members.length)).sum

/-- The record, its `CRC` and the `OWN_RANK`s given. -/
def RollCall.withCrc (r : RollCall) (crc : Nat) (own : GroupEnt → Nat := GroupEnt.ownRank) : List Nat :=
  let n := r.groups.length
  let tabs := (r.groups.map GroupEnt.table).flatten
  let o := 64 + 64 * n
  padTo 64 ([0x52, 0x4C, 0x43, 0x30, 4, 0, 0, 0] ++ le 4 (o + tabs.length) ++ le 4 crc ++ le 4 r.seq ++ le 2 n ++ [0, 0] ++ le 2 r.coord
    ++ [r.sx - 1, r.sy - 1, 0, 0, 0, 0] ++ (r.mseq.map (le 4)).flatten) ++ groupEntries own o r.groups ++ tabs

def RollCall.bytes (r : RollCall) : List Nat := r.withCrc (crc32c (r.withCrc 0))

/-- The record in force, with the coordinates and the torus as the link summary holds them. -/
def Ctl.rollCall (c : Ctl) : RollCall := { c.job.roll with
  coord := c.coord
  sx := c.torus.1
  sy := c.torus.2 }

/-- One group read back. -/
def groupEntOf (rec b : List Nat) : GroupEnt :=
  let n := fieldAt b 4 2
  let o := fieldAt b 44 4
  { id := fieldAt b 0 2, kind := b.getD 2 0, member := bit (b.getD 3 0) 0, rank := fieldAt b 6 2, parent := fieldAt b 8 2,
    children := (List.range (min 8 (b.getD 10 0))).map (fun i => fieldAt b (12 + 2 * i) 2), parityK := b.getD 11 0,
    routes := fieldAt b 28 8, epoch := fieldAt b 36 4, barrierSeq := fieldAt b 40 4,
    members := (List.range n).map (fun i => (fieldAt rec (o + 16 * i) 2, fieldAt rec (o + 16 * i + 4) 8)) }

def rollCallOf (b : List Nat) : RollCall :=
  { seq := fieldAt b 16 4, coord := fieldAt b 24 2, sx := b.getD 26 0 + 1, sy := b.getD 27 0 + 1,
    mseq := (List.range 4).map (fun i => fieldAt b (32 + 4 * i) 4),
    groups := (List.range (fieldAt b 20 2)).map (fun i => groupEntOf b (bytesAt b (64 + 64 * i) 64)) }

/-- R387: the digest, with `OWN_RANK`, the coordinates and `MSEQ` taken as 0. Log 138 (DESIGN CHOICE). -/
def RollCall.digest (r : RollCall) : Nat :=
  crc32c (({ r with
    coord := 0
    mseq := [0, 0, 0, 0] } : RollCall).withCrc 0 (fun _ => 0))

/-! ## Sections by number -/

/-- The bytes of a module section: 0 streams, 1 Lantern, 2 plan, 3 Roll Call, with the step counter after the record, so that the
mirror carries it (R386). Log 135 (DESIGN CHOICE). -/
def Ctl.sectionBytes (c : Ctl) (n : Nat) : List Nat :=
  match n with
  | 0 => c.streamBytes
  | 1 => ((List.range 8).map c.lanternBytes).flatten
  | 2 => ((List.range 8).map (fun d => (c.die d).planBytes)).flatten
  | _ => c.rollCall.bytes ++ le 8 c.job.step

/-- R385: a section is written back; the Roll Call record waits for the replay. -/
def Ctl.putSection (c : Ctl) (n : Nat) (b : List Nat) : Ctl :=
  match n with
  | 0 => c.putStreams b
  | 1 => c.putLantern b
  | 2 => c.putPlans b
  | _ => c

end Sys2Proof.Machine
end

