-- ==== Sys2Proof/Machine/Gen.lean ====
section
/-! DEFINITION. Generations: the interval, the seal, the drain, protection by mirrors and parity, durability (R360 to R382,
R391 to R393, R479). -/

namespace Sys2Proof.Machine

/-! ## Settings and registers -/

def Ctl.durable (c : Ctl) : Nat := c.rd Fld.sg_SG_DURABLE_GEN

/-- The slot, if any, that holds a generation. -/
def Ctl.slotOfGen (c : Ctl) (g : Nat) : Option Nat :=
  [0, 1].find? (fun k => (c.gslot k).state != 0 && (c.gslot k).gen == g)

/-- The registers show the slots (Table 13-12). -/
def Ctl.showGen (c : Ctl) : Ctl :=
  let c := ((c.wr Fld.sg_SG_STATE_SLOT0 (c.gslot 0).state).wr Fld.sg_SG_STATE_SLOT1 (c.gslot 1).state).wr Fld.sg_SG_STATE_ENABLED (c.gset 0)
  (c.wr Fld.sg_SG_GEN0 (if (c.gslot 0).state = 0 then 0 else (c.gslot 0).gen)).wr Fld.sg_SG_GEN1
    (if (c.gslot 1).state = 0 then 0 else (c.gslot 1).gen)

/-- `STATE` of SG_STATE outside a hold or a restore: a drain, a protection, or nothing. -/
def Ctl.genIdle (c : Ctl) : Nat :=
  if c.gen.slots.any (fun g => g.state == 1) then 2 else if c.gen.slots.any (fun g => !g.extents.isEmpty) then 3 else 0

def Ctl.showState (c : Ctl) : Ctl :=
  let s := c.rd Fld.sg_SG_STATE
  (if s < 4 then c.wr Fld.sg_SG_STATE c.genIdle else c).showGen

/-! ## The interval (R378 to R380) -/

/-- floor(I / t), I = sqrt(2 C M), C in µs, `n` steps of `sum` µs together. -/
def stepsBetween (costUs : Nat) (m : Nat × Nat) (sum n : Nat) : Nat := isqrt (2 * costUs * m.1 * 1000000 * n * n / (m.2 * sum * sum))

/-- N. -/
def Ctl.interval (c : Ctl) : Nat :=
  if c.gset 1 ≠ 0 then c.gset 1
  else
    let m := meanTime (c.gset 4) (c.gset 5) c.gen.precursors.length
    max (c.gset 2) (min (c.gset 3) (stepsBetween c.gen.costUs m (c.gen.durations.foldl (· + ·) 0) c.gen.durations.length))

/-- `STEP` of the newest generation; none where there is none. -/
def Ctl.newestStep (c : Ctl) : Option Nat :=
  let l := c.gen.slots.filter (fun g => g.state != 0)
  (l.find? (fun g => l.all (fun h => decide (h.gen ≤ g.gen)))).map (·.step)

/-- INTERVAL_RECOMPUTE. Log 130 (DEDUCED). -/
def Ctl.setInterval (c : Ctl) : Ctl :=
  let c := c.showPrecursors.wr Fld.sg_SG_COST_MS (c.gen.costUs / 1000)
  let n := c.interval
  (c.wr Fld.sg_SG_INTERVAL n).wr Fld.sg_SG_DUE_STEP (match c.newestStep with | some s => s + n | none => 0)

/-- R378: is SEAL_REQ set in the token of the step in progress? -/
def Ctl.sealDue (c : Ctl) : Bool := c.gen.sealNow || (c.gset 0 == 1 && decide (c.rd Fld.sg_SG_DUE_STEP ≤ c.job.step))

/-- R379, R378: a committed step's duration; a step that began while the newest generation drained or was unprotected costs what
it took beyond the mean at the seal. Log 130 (DEDUCED). -/
def Ctl.stepTook (c : Ctl) (us : Nat) (during : Bool) : Ctl :=
  let t := c.gen.sealSum / max 1 c.gen.sealCount
  { c with gen := { c.gen with
    durations := (us :: c.gen.durations).take 64
    costNew := if during then c.gen.costNew.map (· + (us - t)) else c.gen.costNew } }

/-! ## Granules (R363) -/

/-- The granules that hold a tensor. -/
def granulesOf (t : Tensor) : List Nat :=
  (imageSpans t).foldl (fun l p => if p.2.1 = 0 then l else
    (List.range ((p.1 + p.2.1 - 1) / 65536 - p.1 / 65536 + 1)).foldl (fun l i => addNew l (p.1 / 65536 + i)) l) []

/-- `GEN_ATTR` of a tensor table entry: `METHOD`, `RSET`, `TKEY`. Log 81 (DEDUCED). -/
def attrOf (b : List Nat) : Nat × Nat × Nat := (fieldAt b 40 8 % 8, fieldAt b 41 2, fieldAt b 44 4)

/-- The tensors of the module with a method, in ascending (die, tensor index) order: die, index, entry. -/
def Ctl.captured (c : Ctl) : List (Nat × Nat × List Nat) :=
  ((List.range 8).map (fun d => match (c.die d).lesson with
    | some l => (l.tensors.zipIdx.filter (fun p => (attrOf p.1).1 != 0)).map (fun p => (d, p.2, p.1))
    | none => [])).flatten

/-- The step boundary: the written-this-step bits count toward f where the step committed, and clear. -/
def Ctl.noteStep (c : Ctl) (committed : Bool) : Ctl :=
  let w := c.gen.written
  let upd (t : Tab (Nat × Nat) Nat) (x : Nat × Nat × List Nat) : Tab (Nat × Nat) Nat :=
    Tab.upd 0 t (x.1, x.2.1) (fun n => max n ((granulesOf (tensorOf x.2.1 x.2.2)).filter w.contains).length)
  { c with gen := { c.gen with
    change := if committed then c.captured.foldl upd c.gen.change else c.gen.change
    changedSince := w.foldl addNew c.gen.changedSince
    written := [] } }

/-! ## The PROTECT group (R372, R373) -/

/-- The job's PROTECT group, where this module is a member of it. -/
def Ctl.protectGroup (c : Ctl) : Option GroupEnt := c.job.roll.groups.find? (fun g => g.kind == 5 && g.member)

/-- The buddy of a rank, and the member that a rank protects. -/
def GroupEnt.buddy (g : GroupEnt) (r : Nat) : Nat := (r + 1) % max 1 g.members.length
def GroupEnt.ward (g : GroupEnt) (r : Nat) : Nat := (r + g.members.length - 1) % max 1 g.members.length

/-- The first rank of the parity block of a rank, and the block's size. -/
def GroupEnt.block (g : GroupEnt) (r : Nat) : Nat × Nat :=
  let k := max 1 g.parityK
  (r / k * k, min k (g.members.length - r / k * k))

/-- R373: holder and parity index of strip j of member m of a block of r members. -/
def holderOf (m j r : Nat) : Nat × Nat := ((m + 1 + j % (r - 1)) % r, j / (r - 1))

/-- The strip of member m that the rule assigns to (h, q). -/
def stripFor (m h q r : Nat) : Nat := q * (r - 1) + (h + r - 1 - m) % r

/-- A member's coordinates. -/
def GroupEnt.coordOf (g : GroupEnt) (r : Nat) : Nat := (g.members.getD r (0, 0)).1

/-! ## The image of a slot in far memory -/

/-- A line of far memory: its bytes, and whether it is poisoned. -/
def Module.farLine (m : Module) (a : Nat) : List Nat × Bool := (memRead m.mem a 64, m.ctl.bad a)

/-- An entry's lines. -/
def Module.imageLine (m : Module) (k : Nat) (x : Image) (i : Nat) : List Nat × Bool := m.farLine (m.ctl.slotBase k + x.off + 64 * i)

/-- An entry's bytes. -/
def Module.imageBytes (m : Module) (k : Nat) (x : Image) : List Nat := memRead m.mem (m.ctl.slotBase k + x.off) x.len

/-- R366, R389: does the record in far memory, with its directory, stand as written? A record that fails counts as EMPTY. Log 126 (DESIGN CHOICE). -/
def Module.recordOk (m : Module) (k : Nat) : Bool :=
  let g := m.ctl.gslot k
  let a := m.ctl.slotBase k
  let n := 256 + 32 * g.images.length
  g.state != 0 && !m.ctl.badSpan a n && memRead m.mem a n == g.record ++ g.directory

/-! ### The mirror and parity areas of a slot (R365) -/

/-- A line of far memory is written, poisoned or clean. -/
def Module.putFar (m : Module) (a : Nat) (l : List Nat × Bool) : Module :=
  let m := m.write a (padTo 64 l.1)
  if l.2 then m.onCtl (·.setPoison (a / 64) true) else m

/-- Lines of far memory are copied, their poison with them. -/
def Module.copyFar (m : Module) (src dst len : Nat) : Module :=
  if len = 0 ∨ src = dst then m
  else
    let b := memRead m.mem src len
    let bad := (m.ctl.poison.filter (fun l => decide (src ≤ l * 64 ∧ l * 64 < src + len))).map (fun l => (l * 64 - src + dst) / 64)
    (m.write dst b).onCtl (fun c => c.each bad (fun c l => c.setPoison l true))

/-- The address of a held line of the protected member's mirror. -/
def Ctl.mirrorAt (c : Ctl) (k : Nat) (x : Bool × Nat × Nat × Nat) : Option Nat :=
  let g := c.gslot k
  if g.mirror.contains x then some (c.slotBase k + g.endOfs + 64 * g.mirror.idxOf x) else none

/-- The address of a line of a held parity strip. -/
def Ctl.parityAt (c : Ctl) (k q i : Nat) : Option Nat :=
  let g := c.gslot k
  if g.parity.contains q then some (c.slotBase k + g.parityOfs + stripLen * g.parity.idxOf q + 64 * i) else none

/-- The mirror area grows by lines it does not hold yet; the parity area moves up behind it. Log 126 (DESIGN CHOICE). -/
def Module.growMirror (m : Module) (k : Nat) (xs : List (Bool × Nat × Nat × Nat)) : Module :=
  let g := m.ctl.gslot k
  let new := xs.filter (fun x => !g.mirror.contains x)
  let a := m.ctl.slotBase k + g.parityOfs
  (m.copyFar a (a + 64 * new.length) (stripLen * g.parity.length)).onCtl (·.onSlot k (fun g => { g with mirror := g.mirror ++ new }))

/-- A strip of the parity area holds zeros; one not held yet is added at the end. -/
def Module.zeroStrip (m : Module) (k q : Nat) : Module :=
  let m := m.onCtl (·.onSlot k (fun g => { g with parity := addNew g.parity q }))
  match m.ctl.parityAt k q 0 with
  | some a => m.zero (fun x => decide (a ≤ x ∧ x < a + stripLen))
  | none => m

/-- Is there room in the slot for more mirror lines and strips? Log 179 (DESIGN CHOICE). -/
def Ctl.heldFits (c : Ctl) (k lines strips : Nat) : Bool :=
  decide ((c.gslot k).heldEnd + 64 * lines + stripLen * strips ≤ c.rd Fld.fl_FL_GEN_GIB * gib / 2)

/-! ## Abandoning (R368, R370) -/

/-- The drain of a slot ends, whatever it still had to do; the next slot in line asks for its grant. Log 128 (DEDUCED). -/
def Ctl.endDrain (c : Ctl) (k : Nat) : Ctl :=
  let c := c.onSlot k (fun g => { g with
    todo := []
    pool := [] })
  if c.gen.drain != some k then c
  else
    let c := ({ c with gen := { c.gen with
      drain := none
      granted := false
      started := false } }).hpForget .drain
    match [0, 1].find? (fun j => (c.gslot j).state == 1 && j != k) with
    | some j => ({ c with gen := { c.gen with drain := some j } }).hpRequest ⟨.drain, 7, 24, 0⟩
    | none => c

/-- R366: a slot whose record does not stand counts as EMPTY. -/
def Module.dropBad (m : Module) : Module :=
  [0, 1].foldl (fun m k =>
    if (m.ctl.gslot k).state != 0 && !m.recordOk k then
      m.onCtl (fun c => ((c.endDrain k).onSlot k (fun g => { g with
        state := 0
        extents := [] })).showState)
    else m) m

/-- A generation is given up: its slot is EMPTY, its lines unmarked, its pool returned. -/
def Module.abandon (m : Module) (k : Nat) : Module :=
  let g := m.ctl.gslot k
  let m := m.onCtl (fun c => (c.endDrain k).onSlot k (fun x => { x with
    state := 0
    extents := [] }))
  (m.putRecord k).onCtl (fun c => ((c.bump Fld.sg_SG_ABANDON_CNT_COUNT).post 0x0603 2 dieHB 0xFF (le 4 g.gen)).showState)

/-! ## The seal (R363, R367, R368) -/

/-- R368: the target slot. -/
def Ctl.sealTarget (c : Ctl) : Nat :=
  let d := c.durable
  let holds (k : Nat) : Bool := d != 0 && (c.gslot k).state != 0 && (c.gslot k).gen == d
  if holds 0 then 1 else if holds 1 then 0
  else if (c.gslot 0).state == 0 then 0 else if (c.gslot 1).state == 0 then 1
  else if (c.gslot 0).gen ≤ (c.gslot 1).gen then 0 else 1

/-- R363: the method of a captured tensor. Log 81 (DEDUCED). -/
def Ctl.methodOf (c : Ctl) (d i len : Nat) (t : Tensor) (a : Nat × Nat × Nat) : Nat :=
  let auto : Nat :=
    if len < c.gset 6 * 1048576 then 2
    else if c.gset 7 * (granulesOf t).length < 100 * Tab.get 0 c.gen.change (d, i) then 2 else 3
  if a.1 = 1 then
    (match c.group a.2.1 with
     | some g => if 2 ≤ g.members.length then 1 else auto
     | none => auto)
  else if a.1 = 4 then auto else a.1

/-- Entries with their offsets, from an offset on. Log 125 (DESIGN CHOICE). -/
def placeImages : Nat → List Image → List Image
  | _, [] => []
  | o, x :: t => { x with off := o } :: placeImages (o + x.len) t

/-- The sections' entries. -/
def sectImages (lens : List Nat) : List Image :=
  lens.zipIdx.map (fun (p : Nat × Nat) => ⟨true, p.2, 0, 8 + p.2, 0, 0, Tensor.none, 0, up64 p.1, 0, false, false⟩)

/-- The tensors' entries. -/
def Ctl.tensorImages (c : Ctl) : List Image :=
  c.captured.map (fun x =>
    let t := tensorOf x.2.1 x.2.2
    let a := attrOf x.2.2
    let n := up64 (imageLen t)
    let k := c.methodOf x.1 x.2.1 n t a
    ⟨false, a.2.2, x.1, k, a.2.1, x.2.1, t, 0, n, 0, false, (granulesOf t).all (fun g => !c.gen.changedSince.contains g)⟩)

/-- The directory of a seal: the sections, then the images. -/
def Ctl.sealImages (c : Ctl) : List Image :=
  let l := sectImages ((List.range 4).map (fun n => (c.sectionBytes n).length)) ++ c.tensorImages
  placeImages (up64 (256 + 32 * l.length)) l

/-- A number enters a rising list, once. -/
def insertLine (x : Nat) : List Nat → List Nat
  | [] => [x]
  | y :: t => if x < y then x :: y :: t else if x = y then y :: t else y :: insertLine x t

/-- The memory lines of an image, in ascending address (R371). -/
def imageLines (t : Tensor) : List Nat := (imageSpans t).foldr (fun p l => (spanLines p.1 p.2.1).foldr insertLine l) []

/-- Every line to drain, in order. -/
def todoOf (l : List Image) : List (Nat × Nat) :=
  ((l.zipIdx.filter (fun p => !p.1.isSect)).map (fun p => (imageLines p.1.t).map (fun x => (p.2, x)))).flatten

/-- What an image holds as memory stands: the bytes that the drain will find. -/
def Module.imageNow (m : Module) (x : Image) : List Nat :=
  padTo x.len ((imageSpans x.t).map (fun p => memRead m.mem p.1 p.2.1)).flatten

/-- R374: the slot of generation b. -/
def Ctl.baseSlot (c : Ctl) : Option Nat := if c.durable = 0 then none else c.slotOfGen c.durable

/-- The PARITY images of a directory. -/
def parityOf (l : List Image) : List Image := l.filter (fun x => !x.isSect && x.kind == 3)

/-- What makes two parity streams the same layout. -/
def parityShape (l : List Image) : List (Nat × Nat × Nat × Nat) := (parityOf l).map (fun x => (x.die, x.tensor, x.key, x.len))

/-- R374: must every strip go in full? -/
def Ctl.mustFull (c : Ctl) (l : List Image) : Bool :=
  match c.baseSlot with
  | none => true
  | some b =>
    let g := c.gslot b
    let same (x y : Option GroupEnt) : Bool := match x, y with
      | some x, some y => x.members == y.members && x.parityK == y.parityK && x.rank == y.rank
      | none, none => true
      | _, _ => false
    parityShape l != parityShape g.images || !same g.protect c.protectGroup

/-- The module sections are written to the slot. -/
def Module.putSections (m : Module) (k : Nat) (l : List Image) : Module :=
  (l.filter (·.isSect)).foldl (fun m x => m.write (m.ctl.slotBase k + x.off) (padTo x.len (m.ctl.sectionBytes x.key))) m

/-- R382: the digest of a group's REPLICA entries, in ascending order of (die, key). -/
def insertEnt (x : Image) : List Image → List Image
  | [] => [x]
  | y :: t => if x.die < y.die ∨ (x.die = y.die ∧ x.key ≤ y.key) then x :: y :: t else y :: insertEnt x t

/-- Log 129 (DEDUCED). -/
def replicaDigest (l : List Image) (rset : Nat) : Nat :=
  crc32c (((l.filter (fun x => !x.isSect && x.kind == 1 && x.rset == rset)).foldr insertEnt []).map (fun x => [x.die] ++ le 4 x.key ++ le 4 x.crc)).flatten

/-- The `RSET` groups of REPLICA entries. -/
def replicaSets (l : List Image) : List Nat := ((l.filter (fun x => !x.isSect && x.kind == 1)).map (·.rset)).foldl addNew []

/-- The digests go to the members of each group, in FW frames on TC1. Log 129 (DEDUCED). -/
def Ctl.sendDigests (c : Ctl) (gen : Nat) (l : List Image) : Ctl :=
  c.each (replicaSets l) (fun c r =>
    match c.group r with
    | none => c
    | some g => c.each (g.members.filter (fun (p : Nat × Nat) => p.1 != c.coord)) (fun c p =>
        c.sendFrame 1 3 0 p.1 r (le 4 gen ++ le 2 r ++ [0, 0] ++ le 4 (replicaDigest l r))))

/-- Another member's digest of a generation's `RSET` entries, as far as it has come. -/
def Ctl.digestOf (c : Ctl) (gen rset rank : Nat) : Option Nat :=
  (c.gen.digests.find? (fun d => d.1 == gen && d.2.1 == rset && d.2.2.1 == rank)).map (·.2.2.2)

/-- R382: does this module's digest differ from that of the lowest-ranked member? -/
def Ctl.digestDiffers (c : Ctl) (k rset : Nat) : Bool :=
  match c.group rset, c.digestOf (c.gslot k).gen rset 0 with
  | some g, some d => g.member && g.rank != 0 && replicaDigest (c.gslot k).images rset != d
  | _, _ => false

/-- The new generation of a slot. -/
def Ctl.newSlot (c : Ctl) (l : List Image) (stamp : Nat) : GenSlot :=
  let full := c.mustFull l
  let b := c.baseSlot
  { GenSlot.reset with
    state := 1
    flags := if full then 4 else 0
    rank := (match c.protectGroup with | some g => g.rank | none => 0)
    gen := c.gen.nextGen
    base := if full then 0 else c.durable
    step := c.job.step
    jobId := c.job.id
    planSeq := c.job.planSeq
    rcSeq := c.job.roll.seq
    sealStamp := stamp
    digest := c.genDigest
    lessonIds := (List.range 8).map c.lessonId
    ttId := (match c.job.timetable with | some t => t.id | none => 0)
    images := l
    todo := todoOf l
    protect := c.protectGroup
    parity := (match b with | some k => (c.gslot k).parity | none => []) }

/-- R374: the parity area of a new generation begins as that of generation b. -/
def Module.takeParity (m : Module) (k : Nat) : Module :=
  match m.ctl.baseSlot with
  | none => m
  | some b =>
    let o := m.ctl.gslot b
    m.copyFar (m.ctl.slotBase b + o.parityOfs) (m.ctl.slotBase k + (m.ctl.gslot k).parityOfs) (stripLen * o.parity.length)

/-- The sealed SRAM tensors are copied into the pool at once (Table 13-3, event 3). -/
def Module.sramPool (m : Module) (g : GenSlot) : Lines :=
  ((g.todo.map (·.2)).foldl addNew []).filterMap (fun l =>
    if (sramOf (l * 64)).isSome then some (l, memRead m.mem (l * 64) 64, m.ctl.bad (l * 64)) else none)

/-- After event 4: the drain asks for its units, the counts start anew, the interval is recomputed. -/
def Ctl.sealed (c : Ctl) (k quiesce : Nat) : Ctl :=
  let g := c.gslot k
  let c := c.post 0x0601 3 dieHB 0xFF (le 4 g.gen)
  let c := { c with gen := { c.gen with
    nextGen := c.gen.nextGen + 1
    change := []
    changedSince := []
    costUs := c.gen.costNew.getD 50000
    costNew := some quiesce
    sealSum := c.gen.durations.foldl (· + ·) 0
    sealCount := c.gen.durations.length
    digests := c.gen.digests.filter (fun d => decide (g.gen ≤ d.1 + 1)) } }
  let c := (c.wr Fld.sg_SG_QUIESCE_US (min quiesce 0xFFFFFFFF)).setInterval
  let c := if c.gen.drain.isSome then c else ({ c with gen := { c.gen with drain := some k } }).hpRequest ⟨.drain, 7, 24, 0⟩
  c.showState

/-- GEN_NOSPACE (R367). Log 128 (DEDUCED). -/
def Ctl.noSpace (c : Ctl) (need have' : Nat) : Ctl :=
  let c := (c.bump Fld.sg_SG_NOSPACE_CNT_COUNT).post 0x0604 0 dieHB 0xFF (le 8 need ++ le 8 have')
  c.wr Fld.sg_SG_DUE_STEP (c.rd Fld.sg_SG_DUE_STEP + c.rd Fld.sg_SG_INTERVAL)

/-- REPLICA_DIVERGED. -/
def Module.diverged (m : Module) (k rset : Nat) : Module :=
  let gen := (m.ctl.gslot k).gen
  ((m.onCtl (·.onSlot k (fun g => { g with flags := setBit g.flags 1 true }))).putRecord k).onCtl (fun c =>
    (c.bump Fld.sg_SG_DIVERGE_CNT_COUNT).post 0x0607 0 dieHB 0xFF (le 4 gen ++ le 2 rset))

/-- The seal that fits: `t0` is the stamp of event 1. Log 128 (DEDUCED). -/
def Module.sealInto (m : Module) (k t0 : Nat) (l : List Image) : Module :=
  let m := if (m.ctl.gslot k).state == 1 then m.abandon k else m
  let l := l.map (fun x => if x.isSect then { x with crc := crc32c (padTo x.len (m.ctl.sectionBytes x.key)) } else { x with crc := crc32c (m.imageNow x) })
  let m := m.putSections k l
  let st := m.ctl.stamp dieHD
  let g := st.2.newSlot l st.1
  let g := { g with pool := m.sramPool g }
  let base := m.ctl.slotBase k
  let m := { m with ctl := (st.2.onSlot k (fun _ => g)).each l (fun c x =>
    if x.isSect then c else { c with poison := c.poison.filter (fun p => !decide (base + x.off ≤ p * 64 ∧ p * 64 < base + x.off + x.len)) }) }
  let m := ((m.takeParity k).putRecord k).onCtl (fun c => (c.sendDigests g.gen l).sealed k ((st.1 + 2 ^ 64 - t0) % 2 ^ 64 / 1000))
  ((replicaSets l).filter (m.ctl.digestDiffers k)).foldl (fun m r => m.diverged k r) m

/-- SEAL (R367, R368): what must fit is what is captured, and the parity that R374 begins with. Log 128 (DEDUCED). -/
def Module.seal (m : Module) (t0 : Nat) : Module :=
  let l := m.ctl.sealImages
  let inherited := match m.ctl.baseSlot with | some b => (m.ctl.gslot b).parity.length | none => 0
  let need := l.foldl (fun n x => max n (x.off + x.len)) 0 + stripLen * inherited
  let room := m.ctl.rd Fld.fl_FL_GEN_GIB * gib / 2
  if room < need then m.onCtl (·.noSpace need room) else m.sealInto m.ctl.sealTarget t0 l

/-! ## The drain (R369, R371) -/

/-- DRAIN_START: the grant has come. -/
def execDrainStart (s : State) : Host.Outcome State Fault Refusal :=
  let g := s.m.ctl.gen
  if g.drain.isSome && g.granted && !g.started then .next (s.onM (·.onCtl (fun c => ({ c with gen := { c.gen with started := true } }).showState)))
  else .next s

/-- The line the drain copies next. -/
def Ctl.nextLine (c : Ctl) : Option (Nat × Nat × Nat) :=
  match c.gen.drain with
  | some k => if c.gen.started then (c.gslot k).todo.head?.map (fun x => (k, x)) else none
  | none => none

def execDrainLineCopy (s : State) : Host.Outcome State Fault Refusal :=
  match s.m.ctl.nextLine with
  | some (k, x) => .next (s.onM (·.copyLine k x))
  | none => .next s

/-! ### TENSOR_STAT (R479) -/

/-- The tensor as it stands in its image. -/
def Image.tensorAt (x : Image) (a : Nat) : Tensor :=
  let f := if x.t.steered && isIb x.t.decl then 0x3F else x.t.decl
  { x.t with
    base := a
    decl := f
    fmt := f
    steered := false
    inTb := false
    stride := imageRow x.t
    scaleBase := a + x.t.rows * imageRow x.t }

/-- Its elements off poisoned lines, decoded. -/
def Module.imageVals (m : Module) (x : Image) (a : Nat) : List Val :=
  let t := x.tensorAt a
  ((List.range (t.rows * t.cols)).map (fun i => m.elem x.die t t.scaling (i / t.cols) (i % t.cols))).filterMap
    (fun e => if e.poison || e.masked then none else some (elemVal t.fmt e))

/-- The largest finite magnitude, rounded upward, and the sum of squares. -/
def topFinite (l : List Val) : Nat := fp32RoundUp (l.foldl (fun k v => match v with | .fin _ q => k.max q | _ => k) (Mag.ofNat 0))
def sumSquares (l : List Val) : Nat := fp32Round ((l.map (fun v => fp32Val (fp32Round (v.mul v)))).foldl Val.add Val.zero)

/-- One record. Log 117 (DEDUCED). -/
def Module.tensorStat (m : Module) (k gen : Nat) (x : Image) : Module :=
  let l := m.imageVals x (m.ctl.slotBase k + x.off)
  let count (p : Val → Bool) : List Nat := le 4 (min 0xFFFFFFFF (l.filter p).length)
  let pl := le 4 gen ++ le 4 x.key ++ le 2 x.tensor ++ [x.t.decl, b2n x.bad + 2 * b2n x.unchanged] ++ le 4 x.crc ++ count (fun _ => true)
    ++ count Val.isZero ++ count Val.isNan ++ count (fun v => match v with | .inf _ => true | _ => false)
    ++ le 4 (topFinite l) ++ le 4 (sumSquares (l.filter Val.isFin))
  m.onCtl (·.emit x.die 0xFF 0x30 3 pl)

/-! ## Protection (R372 to R375) -/

/-- Table 13-4. -/
structure BulkHdr where
  gen : Nat
  kind : Nat
  isSect : Bool
  origin : Nat
  key : Nat
  kdie : Nat
  offset : Nat
  poison : Nat
deriving DecidableEq, Repr

def BulkHdr.bytes (h : BulkHdr) : List Nat :=
  le 4 h.gen ++ [h.kind, b2n h.isSect] ++ le 2 h.origin ++ le 4 h.key ++ [h.kdie, 0, 0, 0] ++ le 8 h.offset ++ le 8 h.poison

def bulkOf (b : List Nat) : BulkHdr :=
  ⟨fieldAt b 0 4, b.getD 4 0, bit (b.getD 5 0) 0, fieldAt b 6 2, fieldAt b 8 4, b.getD 12 0, fieldAt b 16 8, fieldAt b 24 8⟩

/-- Send a BULK frame to a member of the PROTECT group. -/
def Ctl.sendBulk (c : Ctl) (g : GroupEnt) (rank : Nat) (h : BulkHdr) (data : List Nat) : Ctl :=
  (c.sendFrame 2 6 0 (g.coordOf rank) g.id (h.bytes ++ data)).add Fld.sg_SG_SENT_BYTES data.length

/-- One data frame: lines that are poisoned go as zeros. -/
def Ctl.sendLines (c : Ctl) (g : GroupEnt) (rank : Nat) (h : BulkHdr) (l : List (List Nat × Bool)) : Ctl :=
  let mask := (l.zipIdx.filter (fun (p : (List Nat × Bool) × Nat) => p.1.2)).foldl (fun v p => v + 2 ^ p.2) 0
  c.sendBulk g rank { h with poison := mask } (l.map (fun (p : List Nat × Bool) => if p.2 then List.replicate 64 0 else padTo 64 p.1)).flatten

/-- The frames of an extent, 63 lines each: the last is shorter, or ends the 1 MiB. -/
def Ctl.sendParts (c : Ctl) (g : GroupEnt) (rank : Nat) (h : BulkHdr) : Nat → List (List Nat × Bool) → Nat → Ctl
  | 0, _, _ => c
  | n + 1, l, o =>
    let c := c.sendLines g rank { h with offset := h.offset + 64 * o } (l.take 63)
    if l.length < 63 ∨ o + l.length = 16384 ∧ l.length = 63 then c else Ctl.sendParts c g rank h n (l.drop 63) (o + 63)

def Ctl.sendExtent (c : Ctl) (g : GroupEnt) (rank : Nat) (h : BulkHdr) (l : List (List Nat × Bool)) : Ctl :=
  c.sendParts g rank h 262 l 0

/-- The lines of an extent of an entry. -/
def Module.extentLines (m : Module) (k : Nat) (x : Image) (offset : Nat) : List (List Nat × Bool) :=
  (List.range (min 16384 ((x.len - offset) / 64))).map (fun i => m.imageLine k x (offset / 64 + i))

/-- A line of a member's own parity stream; zeros beyond its end. -/
def Module.streamLine (m : Module) (k : Nat) : List Image → Nat → List Nat × Bool
  | [], _ => (List.replicate 64 0, false)
  | x :: t, i => if i < x.len / 64 then m.imageLine k x i else Module.streamLine m k t (i - x.len / 64)

/-- Strips of a parity stream. Log 131 (DEDUCED). -/
def streamStrips (l : List Image) : Nat := ((parityOf l).foldl (fun n x => n + x.len) 0 + stripLen - 1) / stripLen

/-- A strip's lines of an extent. -/
def Module.stripLines (m : Module) (k j offset : Nat) : List (List Nat × Bool) :=
  let l := parityOf (m.ctl.gslot k).images
  (List.range 16384).map (fun i => m.streamLine k l (j * 65536 + offset / 64 + i))

def xorLine (a b : List Nat × Bool) : List Nat × Bool := (List.zipWith (· ^^^ ·) (padTo 64 a.1) (padTo 64 b.1), a.2 || b.2)

/-- The lines of an extent of a mirror, as far as it goes. -/
def Module.mirrorExtent (m : Module) (k : Nat) (isSect : Bool) (key die offset : Nat) : List (List Nat × Bool) :=
  (List.range 16384).filterMap (fun i => (m.ctl.mirrorAt k (isSect, key, die, offset / 64 + i)).map m.farLine)

/-- The lines of an extent of a parity strip, zeros where none is held. -/
def Module.parityExtent (m : Module) (k q offset : Nat) : List (List Nat × Bool) :=
  (List.range 16384).map (fun i => match m.ctl.parityAt k q (offset / 64 + i) with
    | some a => m.farLine a
    | none => (List.replicate 64 0, false))

/-- The q under which this module holds a member's strip (R373). -/
def GroupEnt.heldFor (g : GroupEnt) (origin j : Nat) : Option Nat :=
  let b := g.block g.rank
  if b.2 < 2 ∨ (g.block origin).1 ≠ b.1 ∨ origin = g.rank then none
  else
    let h := holderOf (origin - b.1) j b.2
    if b.1 + h.1 = g.rank then some h.2 else none

/-- RESTORE_DATA (R386): of a member whose data it holds, the mirror, else the parity; of its own, the REPLICA image, else the
strip. -/
def Module.restoreLines (m : Module) (k : Nat) (e : Extent) : List (List Nat × Bool) :=
  let g := m.ctl.gslot k
  match g.protect with
  | none => []
  | some p =>
    if e.origin ≠ p.rank then
      if g.mirror.any (fun x => x.1 == e.isSect && x.2.1 == e.key && x.2.2.1 == e.kdie) then m.mirrorExtent k e.isSect e.key e.kdie e.offset
      else match p.heldFor e.origin e.key with
        | some q => m.parityExtent k q e.offset
        | none => []
    else match g.images.find? (fun x => !x.isSect && x.kind == 1 && x.key == e.key && x.die == e.kdie) with
      | some x => m.extentLines k x e.offset
      | none => m.stripLines k e.key e.offset

/-- The lines that an extent owed carries. -/
def Module.owedLines (m : Module) (k : Nat) (e : Extent) : List (List Nat × Bool) :=
  let g := m.ctl.gslot k
  if e.kind = 1 then
    (match g.images.find? (fun x => x.isSect == e.isSect && x.key == e.key && x.die == e.kdie) with
     | some x => m.extentLines k x e.offset
     | none => [])
  else if e.kind = 3 then m.stripLines k e.key e.offset
  else if e.kind = 4 then m.restoreLines k e
  else
    match m.ctl.slotOfGen g.base with
    | some b => List.zipWith xorLine (m.stripLines k e.key e.offset) (m.stripLines b e.key e.offset)
    | none => m.stripLines k e.key e.offset

/-- One extent is sent. -/
def Module.sendOwed (m : Module) (k : Nat) (e : Extent) : Module :=
  match (m.ctl.gslot k).protect with
  | none => m
  | some g =>
    let l := m.owedLines k e
    m.onCtl (·.sendExtent g e.peer ⟨(m.ctl.gslot k).gen, e.kind, e.isSect, e.origin, e.key, e.kdie, e.offset, 0⟩ l)

/-- R375: every extent not yet sent goes out once the grant has come. -/
def Module.sendPending (m : Module) (k : Nat) : Module :=
  let due := (m.ctl.gslot k).extents.filter (fun e => e.sent == 0)
  (due.foldl (fun m e => m.sendOwed k e) m).onCtl (·.onSlot k (fun g => { g with extents := g.extents.map (fun e => { e with sent := max 1 e.sent }) }))

def Module.sendProtection (m : Module) : Module := if m.ctl.gen.protGrant then (m.sendPending 0).sendPending 1 else m

/-- The grant of the protection traffic. -/
def Module.protGranted (m : Module) : Module := (m.onCtl (fun c => { c with gen := { c.gen with protGrant := true } })).sendProtection

/-- Protection traffic asks for 3 units a link of the group's routes (R369). Log 131 (DEDUCED). -/
def Ctl.askProtect (c : Ctl) (g : GroupEnt) : Ctl :=
  if c.hp.fifo.any (fun r => r.who == .protect) || c.hp.oversize.any (fun r => r.who == .protect) || c.hp.held.any (fun p => p.1 == .protect) then c
  else c.hpRequest ⟨.protect, 7, 3 * ((List.range 36).filter (bit g.routes)).length, 0⟩

/-- With no extent owed any more, the units of protection are free. -/
def Ctl.protectIdle (c : Ctl) : Ctl :=
  if c.gen.slots.all (fun g => g.extents.isEmpty) then ({ c with gen := { c.gen with protGrant := false } }).hpForget .protect else c

/-- The extents of an entry, for its peer. -/
def Image.owe (x : Image) (own peer : Nat) : List Extent :=
  (List.range ((x.len + extentLen - 1) / extentLen)).map (fun i => ⟨peer, 1, own, x.isSect, x.key, x.die, extentLen * i, 0⟩)

/-- R372: what the buddy is owed: the images, then the module sections. Log 131 (DEDUCED). -/
def oweMirrors (g : GroupEnt) (l : List Image) : List Extent :=
  let solo := (g.block g.rank).2 == 1
  ((l.filter (fun x => !x.isSect && (x.kind == 2 || (x.kind == 3 && solo))) ++ l.filter (·.isSect)).map
    (fun x => x.owe g.rank (g.buddy g.rank))).flatten

/-- R373, R374: a strip's extents, for its holder. -/
def oweStrip (g : GroupEnt) (j kind : Nat) : List Extent :=
  let b := g.block g.rank
  (List.range 4).map (fun i => ⟨b.1 + (holderOf (g.rank - b.1) j b.2).1, kind, g.rank, false, j, 0, extentLen * i, 0⟩)

/-- Is a strip's delta all zeros? -/
def Module.stripSame (m : Module) (k b j : Nat) : Bool :=
  (List.range 4).all (fun i => m.stripLines k j (extentLen * i) == m.stripLines b j (extentLen * i))

/-- The parity strips owed. -/
def Module.oweParity (m : Module) (k : Nat) (g : GroupEnt) : List Extent :=
  let s := m.ctl.gslot k
  if (g.block g.rank).2 < 2 then []
  else
    let js := List.range (streamStrips s.images)
    match (if s.base = 0 then none else m.ctl.slotOfGen s.base) with
    | none => (js.map (fun j => oweStrip g j 3)).flatten
    | some b => ((js.filter (fun j => !m.stripSame k b j)).map (fun j => oweStrip g j 2)).flatten

/-- Has the extent of a frame come whole? Log 131 (DEDUCED). -/
def extentWhole (l : List RxFrame) (f : RxFrame) : Bool :=
  let b := f.offset / extentLen * extentLen
  let mine := l.filter (fun r => r.rank == f.rank && r.kind == f.kind && r.origin == f.origin && r.isSect == f.isSect && r.key == f.key
    && r.kdie == f.kdie && r.offset / extentLen == f.offset / extentLen)
  match mine.find? (·.last) with
  | some z => (List.range ((z.offset - b) / 4032 + 1)).all (fun i => mine.any (fun r => r.offset == b + 4032 * i))
  | none => false

/-- The extents of a length. -/
def extentOfs (len : Nat) : List Nat := (List.range ((len + extentLen - 1) / extentLen)).map (extentLen * ·)

/-- The bytes of a module section of the protected member: the first three have one length on every module; the last begins with
its own (R383). Log 180 (DEDUCED). -/
def Module.wardLen (m : Module) (k n : Nat) : Nat :=
  match n with
  | 0 => 8 * 1048576
  | 1 => 8 * lanternLen
  | 2 => 8 * 65536
  | _ => match m.ctl.mirrorAt k (true, 3, 0, 0) with
    | some a => up64 (fieldAt (memRead m.mem a 64) 8 4 + 8)
    | none => extentLen

/-- R373, R374: of a strip that has begun to come, all four extents come; of a member that sends strips in full, the strips assigned to
this module before one that came. Log 180 (DEDUCED). -/
def GenSlot.stripsWhole (s : GenSlot) (g : GroupEnt) : Bool :=
  let b := g.block g.rank
  let whole (f : RxFrame) (j : Nat) : Bool := (List.range 4).all (fun i =>
    s.rx.any (fun r => r.rank == f.rank && r.kind == f.kind && r.key == j && r.offset / extentLen == i))
  s.rx.all (fun f => (f.kind != 2 && f.kind != 3) || (whole f f.key
    && (f.kind == 2 || (match g.heldFor f.origin f.key with
      | some q => (List.range q).all (fun p => whole f (stripFor (f.origin - b.1) (g.rank - b.1) p b.2))
      | none => true))))

/-- R366: is every extent that a slot holds for others complete? Each extent and strip begun, and the sections of the protected member,
which come after its images. Log 180 (DEDUCED). -/
def Module.holdsAll (m : Module) (k : Nat) : Bool :=
  let s := m.ctl.gslot k
  s.rx.all (extentWhole s.rx) && (match s.protect with
    | some g => decide (g.members.length < 2) || s.stripsWhole g && [0, 1, 2, 3].all (fun n => (extentOfs (m.wardLen k n)).all (fun o =>
        s.rx.any (fun r => r.kind == 1 && r.rank == g.ward g.rank && r.isSect && r.key == n && r.offset / extentLen == o / extentLen)))
    | none => true)

/-- R366: nothing is owed any more, and what the slot holds for others is complete. -/
def Module.settled (m : Module) (k : Nat) : Bool :=
  (m.ctl.gslot k).extents.isEmpty && !(m.ctl.gslot k).failed && m.holdsAll k

/-- LOCAL turns into PROTECTED. -/
def Module.settle (m : Module) (k : Nat) : Module :=
  if (m.ctl.gslot k).state == 2 && m.settled k then
    ((m.onCtl (·.onSlot k (fun x => { x with state := 3 }))).putRecord k).onCtl (fun c => c.protectIdle.showState)
  else m.onCtl (fun c => c.protectIdle.showState)

/-- Event 6 opens the way to protection: a group of one, or none, protects nothing. -/
def Module.protect (m : Module) (k : Nat) : Module :=
  let s := m.ctl.gslot k
  match s.protect with
  | none => m.settle k
  | some g =>
    if g.members.length < 2 then m.settle k
    else
      let owed := oweMirrors g s.images ++ m.oweParity k g
      let m := m.onCtl (fun c => (c.onSlot k (fun x => { x with extents := owed })).askProtect g)
      m.sendProtection.settle k

/-- The images' check codes, from far memory. Log 129 (DEDUCED). -/
def Module.imageCrcs (m : Module) (k : Nat) : List Image := (m.ctl.gslot k).images.map (fun x => { x with crc := crc32c (m.imageBytes k x) })

/-- The zero padding of an image's last line. -/
def Module.padImages (m : Module) (k : Nat) : Module :=
  ((m.ctl.gslot k).images.filter (fun x => !x.isSect)).foldl (fun m x =>
    m.write (m.ctl.slotBase k + x.off + imageLen x.t) (List.replicate (x.len - imageLen x.t) 0)) m

/-- Event 6 of Table 13-3. -/
def Module.drainDone (m : Module) (k : Nat) : Module :=
  let m := m.padImages k
  let l := m.imageCrcs k
  let st := m.ctl.stamp dieHD
  let m := { m with ctl := st.2.onSlot k (fun g => { g with
    state := 2
    images := l
    localStamp := st.1
    flags := setBit g.flags 0 (l.any (·.bad)) }) }
  let m := (m.onCtl (·.endDrain k)).putRecord k
  let m := (l.filter (fun x => !x.isSect)).foldl (fun m x => m.tensorStat k (m.ctl.gslot k).gen x) m
  m.protect k

def execDrainComplete (s : State) : Host.Outcome State Fault Refusal :=
  match s.m.ctl.gen.drain with
  | some k => if s.m.ctl.gen.started && (s.m.ctl.gslot k).todo.isEmpty then .next (s.onM (·.drainDone k)) else .next s
  | none => .next s

/-! ### What peers send (R373 to R375) -/

/-- A header that names what this module is not building is discarded and counted. -/
def Ctl.bulkBad (c : Ctl) : Ctl := c.bump Fld.sg_SG_PROTFAIL_CNT_COUNT

/-- R375: is this module building or restoring the generation of a slot? It builds it until the whole job holds it; it restores
the one named to it, and in HOLD the durable one. Log 178 (DEDUCED). -/
def Ctl.worksOn (c : Ctl) (k : Nat) : Bool :=
  let g := c.gslot k
  (g.state != 0 && (decide (c.durable < g.gen) || g.state != 3 || c.stage == 4)) ||
    (match c.gen.restore with | some r => r.gen == g.gen && (g.state != 0 || r.replacement) | none => false)

/-- The slot that a BULK header names. Log 178 (DEDUCED). -/
def Ctl.bulkSlot (c : Ctl) (gen : Nat) : Option Nat := [0, 1].find? (fun k => (c.gslot k).gen == gen && gen != 0 && c.worksOn k)

/-- The data lines of a payload. -/
def bulkLines (b : List Nat) : List (List Nat × Bool) :=
  let d := b.drop 32
  let p := fieldAt b 24 8
  (List.range (min 63 (d.length / 64))).map (fun i => (bytesAt d (64 * i) 64, bit p i))

/-- A frame received. -/
def rxOf (rank : Nat) (h : BulkHdr) (n : Nat) : RxFrame :=
  ⟨rank, h.kind, h.origin, h.isSect, h.key, h.kdie, h.offset, n, decide (n < 63) || (h.offset + 64 * n) % extentLen == 0⟩

/-- The PROTECT group that BULK frames of a slot belong to: the job's, or, after a reset that has left the job none yet (R389), the one
kept with the slot. -/
def Ctl.slotGroup (c : Ctl) (k : Nat) : Option GroupEnt :=
  match c.protectGroup with
  | some g => some g
  | none => (c.gslot k).protect

/-- The frame is noted; where its extent is whole, it is acknowledged. Log 131 (DEDUCED). -/
def Ctl.noteRx (c : Ctl) (k rank : Nat) (h : BulkHdr) (n : Nat) : Ctl :=
  let f := rxOf rank h n
  let c := c.onSlot k (fun g => if g.rx.contains f then g else { g with rx := g.rx ++ [f] })
  match c.slotGroup k with
  | some g =>
    if extentWhole (c.gslot k).rx f then
      c.sendBulk g rank ⟨h.gen, 5, h.isSect, h.origin, h.key, h.kdie, h.offset / extentLen * extentLen, 0⟩ []
    else c
  | none => c

/-- A frame's lines go to the addresses that `at` gives them, combined with what lies there. -/
def Module.putLines (m : Module) (at' : Nat → Option Nat) (f : List Nat × Bool → List Nat × Bool → List Nat × Bool)
    (l : List (List Nat × Bool)) : Module :=
  l.zipIdx.foldl (fun m (p : (List Nat × Bool) × Nat) => match at' p.2 with
    | some a => m.putFar a (f (m.farLine a) p.1)
    | none => m) m

/-- MIRROR_DATA: lines of the protected member's data enter the mirror area, and the record follows. Log 126 (DESIGN CHOICE). -/
def Module.mirrorIn (m : Module) (k rank : Nat) (h : BulkHdr) (l : List (List Nat × Bool)) : Module :=
  let line (i : Nat) : Bool × Nat × Nat × Nat := (h.isSect, h.key, h.kdie, h.offset / 64 + i)
  let m := m.growMirror k ((List.range l.length).map line)
  let at' := fun i => m.ctl.mirrorAt k (line i)
  ((m.putLines at' (fun _ n => n) l).putRecord k).onCtl (·.noteRx k rank h l.length)

/-- A parity frame of a member of the block, whose strip is held under q: a frame had before is not folded in again. Log 126 (DESIGN CHOICE). Log 131 (DEDUCED). -/
def Module.parityIn (m : Module) (k rank q : Nat) (isFull : Bool) (h : BulkHdr) (l : List (List Nat × Bool)) : Module :=
  let g := m.ctl.gslot k
  let m :=
    if g.rx.contains (rxOf rank h l.length) || (!isFull && g.full.contains q) then m
    else
      let m := if (isFull && !g.full.contains q) || !g.parity.contains q then m.zeroStrip k q else m
      let m := if isFull then m.onCtl (·.onSlot k (fun g => { g with full := addNew g.full q })) else m
      let at' := fun i => m.ctl.parityAt k q (h.offset / 64 + i)
      (m.putLines at' xorLine l).putRecord k
  m.onCtl (·.noteRx k rank h l.length)

/-- A BULK data frame for a slot, of the kind its command names; none where it is to be discarded. Log 132 (DEDUCED). -/
def Ctl.bulkFor (c : Ctl) (kind rank : Nat) (b : List Nat) : Option (Nat × GroupEnt × BulkHdr) :=
  let h := bulkOf b
  match c.bulkSlot h.gen with
  | some k => (match c.slotGroup k with
    | some g => if h.kind = kind ∧ rank < g.members.length then some (k, g, h) else none
    | none => none)
  | none => none

/-- Log 179 (DESIGN CHOICE). -/
def Module.mirrorData (m : Module) (rank : Nat) (b : List Nat) : Module :=
  match m.ctl.bulkFor 1 rank b with
  | some (k, g, h) =>
    if h.origin = rank ∧ g.ward g.rank = rank ∧ rank ≠ g.rank ∧ m.ctl.heldFits k (bulkLines b).length 0 = true then
      (m.mirrorIn k rank h (bulkLines b)).settle k
    else m.onCtl Ctl.bulkBad
  | none => m.onCtl Ctl.bulkBad

/-- Log 179 (DESIGN CHOICE). -/
def Module.parityData (m : Module) (kind rank : Nat) (b : List Nat) : Module :=
  match m.ctl.bulkFor kind rank b with
  | some (k, g, h) =>
    match (if h.origin = rank then g.heldFor rank h.key else none) with
    | some q =>
      if m.ctl.heldFits k 0 (b2n (!(m.ctl.gslot k).parity.contains q)) = true ∧ h.offset + 64 * (bulkLines b).length ≤ stripLen then
        (m.parityIn k rank q (kind == 3) h (bulkLines b)).settle k
      else m.onCtl Ctl.bulkBad
    | none => m.onCtl Ctl.bulkBad
  | none => m.onCtl Ctl.bulkBad

def execMirrorData (rank : Nat) (bytes : List Nat) (s : State) : Host.Outcome State Fault Refusal := .next (s.onM (·.mirrorData rank bytes))
def execParityDelta (rank : Nat) (bytes : List Nat) (s : State) : Host.Outcome State Fault Refusal := .next (s.onM (·.parityData 2 rank bytes))
def execParityFull (rank : Nat) (bytes : List Nat) (s : State) : Host.Outcome State Fault Refusal := .next (s.onM (·.parityData 3 rank bytes))

/-- The first of a list that satisfies a test goes. -/
def dropFirst {α : Type} (p : α → Bool) : List α → List α
  | [] => []
  | x :: t => if p x then t else x :: dropFirst p t

/-- ACK: the extent is owed no more; protection may be complete. Log 131 (DEDUCED). -/
def Module.ackIn (m : Module) (rank : Nat) (b : List Nat) : Module :=
  match m.ctl.bulkFor 5 rank b with
  | none => m.onCtl Ctl.bulkBad
  | some (k, _, h) =>
    (m.onCtl (·.onSlot k (fun g => { g with
      extents := dropFirst (fun e => e.peer == rank && e.origin == h.origin && e.isSect == h.isSect && e.key == h.key && e.kdie == h.kdie
        && e.offset == h.offset && e.sent != 0) g.extents }))).settle k

def execAck (rank : Nat) (bytes : List Nat) (s : State) : Host.Outcome State Fault Refusal := .next (s.onM (·.ackIn rank bytes))

/-- The extents sent and not acknowledged, with their slots. -/
def Ctl.unacked (c : Ctl) : List (Nat × Extent) :=
  ([0, 1].map (fun k => ((c.gslot k).extents.filter (fun e => e.sent != 0)).map (fun e => (k, e)))).flatten

/-- PROTECT_FAIL. -/
def Ctl.protectFail (c : Ctl) (k : Nat) (e : Extent) : Ctl :=
  let gen := (c.gslot k).gen
  let c := c.onSlot k (fun g => { g with
    failed := true
    extents := [] })
  (((c.bump Fld.sg_SG_PROTFAIL_CNT_COUNT).post 0x0606 1 dieHB 0xFF (le 4 gen ++ le 2 e.peer)).protectIdle).showState

/-- An extent unacknowledged for 10 ms is sent again; after 8 sendings the protection has failed. -/
def Module.retransmit (m : Module) (k : Nat) (e : Extent) : Module :=
  if 8 ≤ e.sent then m.onCtl (·.protectFail k e)
  else (m.sendOwed k e).onCtl (·.onSlot k (fun g => { g with extents := g.extents.map (fun x => if x == e then { x with sent := x.sent + 1 } else x) }))

def execProtectRetransmit (index : Nat) (s : State) : Host.Outcome State Fault Refusal :=
  match s.m.ctl.unacked[index]? with
  | some (k, e) => .next (s.onM (·.retransmit k e))
  | none => .next s

/-! ## Durability (R376, R377) -/

/-- The job's CHECK group, where this module is a member of it. -/
def Ctl.checkGroup (c : Ctl) : Option GroupEnt := c.job.roll.groups.find? (fun g => g.kind == 4 && g.member)

/-- Is this module the root of its CHECK group? -/
def GroupEnt.root (g : GroupEnt) : Bool := g.parent == 0xFFFF

/-- A message to the parent, and one to every child, in TOKEN frames on TC0. -/
def Ctl.toParent (c : Ctl) (g : GroupEnt) (b : List Nat) : Ctl := c.sendFrame 0 2 0 (g.coordOf g.parent) g.id b
def Ctl.toChildren (c : Ctl) (g : GroupEnt) (b : List Nat) : Ctl := c.each g.children (fun c r => c.sendFrame 0 2 0 (g.coordOf r) g.id b)

/-- The generations of PROTECTED slots. -/
def Ctl.protectedGens (c : Ctl) : Nat × Nat :=
  let one (k : Nat) : Nat := if (c.gslot k).state == 3 then (c.gslot k).gen else 0
  (one 0, one 1)

/-- Set intersection of the nonzero generations of two reports. -/
def meetGens (x y : Nat × Nat) : Nat × Nat :=
  let keep (g : Nat) : Nat := if g ≠ 0 ∧ (g = y.1 ∨ g = y.2) then g else 0
  (keep x.1, keep x.2)

/-- The 32 bytes of a report. Log 132 (DEDUCED). -/
def reportBytes (step : Nat) (r : Nat × Nat) : List Nat :=
  let b := le 8 step ++ le 4 r.1 ++ le 4 r.2
  padTo 32 (b ++ le 4 (crc32c b))

/-- `JOB_DURABLE` advances (R377: it never decreases), and goes down the tree. -/
def Ctl.setDurable (c : Ctl) (g : Nat) : Ctl :=
  if g ≤ c.durable then c
  else
    let c := (c.wr Fld.sg_SG_DURABLE_GEN g).post 0x0602 3 dieHB 0xFF (le 4 g)
    match c.checkGroup with
    | some k => c.toChildren k (reportBytes c.job.step (g, 0))
    | none => c

/-- A node combines the reports of its children with its own, once it has all of them. -/
def Ctl.meetReports (c : Ctl) : Ctl :=
  match c.checkGroup, c.gen.report with
  | some g, some own =>
    if g.children.all (fun r => Tab.has c.gen.reports r) then
      let all := g.children.foldl (fun x r => meetGens x (Tab.get (0, 0) c.gen.reports r)) own
      let c := { c with gen := { c.gen with
        report := none
        reports := [] } }
      if g.root then c.setDurable (max all.1 all.2) else c.toParent g (reportBytes c.job.step all)
    else c
  | _, _ => c

/-- At a boundary this module's own report is due. Log 132 (DEDUCED). -/
def Ctl.reportDue (c : Ctl) : Ctl := ({ c with gen := { c.gen with report := some c.protectedGens } }).meetReports

def execDurabilityReportReceive (rank genA genB : Nat) (s : State) : Host.Outcome State Fault Refusal :=
  match s.m.ctl.checkGroup with
  | some g =>
    if g.children.contains rank then
      .next (s.onM (·.onCtl (fun c => ({ c with gen := { c.gen with reports := c.gen.reports.set rank (genA, genB) } }).meetReports)))
    else .next s
  | none => .next s

def execDurableAnnounce (gen : Nat) (s : State) : Host.Outcome State Fault Refusal := .next (s.onM (·.onCtl (·.setDurable gen)))

/-! ## Replica digests (R382) -/

/-- A digest of another member is kept. -/
def Ctl.noteDigest (c : Ctl) (rank : Nat) (b : List Nat) : Ctl :=
  let gen := fieldAt b 0 4
  let rset := fieldAt b 4 2
  { c with gen := { c.gen with
    digests := c.gen.digests.filter (fun d => !(d.1 == gen && d.2.1 == rset && d.2.2.1 == rank)) ++ [(gen, rset, rank, fieldAt b 8 4)] } }

/-- REPLICA_DIGEST: that of the lowest-ranked member is compared with this module's own, now or at its own seal (R382). -/
def Module.digestIn (m : Module) (rank : Nat) (b : List Nat) : Module :=
  let m := m.onCtl (·.noteDigest rank b)
  match rank, m.ctl.slotOfGen (fieldAt b 0 4) with
  | 0, some k => if m.ctl.digestDiffers k (fieldAt b 4 2) then m.diverged k (fieldAt b 4 2) else m
  | _, _ => m

/-- Log 129 (DEDUCED). -/
def execReplicaDigestReceive (rank : Nat) (bytes : List Nat) (s : State) : Host.Outcome State Fault Refusal :=
  .next (s.onM (·.digestIn rank bytes))

end Sys2Proof.Machine
end

