-- ==== Sys2Proof/Machine/Pci.lean ====
section
/-! DEFINITION. The PCIe function: configuration space with its capabilities, power states, the DOE mailbox and the CDAT table (R394 to
R397). The spec names the capabilities; where they lie and the layout of each are those of PCIe and CXL. Log 183 (PRESUMED). -/

namespace Sys2Proof.Machine

/-- The PCI vendor identifier (Table 14-1a). Log 183 (PRESUMED). -/
def vendorId : Nat := 0x1F4E

/-- The size of the CXL.mem window in bytes. -/
def Ctl.windowSize (c : Ctl) : Nat := c.rd Fld.fl_FL_BAR2_SIZE_GIB * gib

/-! ## The CDAT table (R396) -/

/-- A DSMAS entry: the range of `size` bytes from device address 0. Log 183 (PRESUMED). -/
def dsmas (size : Nat) : List Nat := [0, 0] ++ le 2 24 ++ [0, 0, 0, 0] ++ le 8 0 ++ le 8 size

/-- A DSLBIS entry of the range: data type 1 a read latency, 4 a read bandwidth, 5 a write bandwidth; in units of `unit` ps or MB/s. Log 183 (PRESUMED). -/
def dslbis (type unit v : Nat) : List Nat := [1, 0] ++ le 2 24 ++ [0, 0, type, 0] ++ le 8 unit ++ le 2 v ++ [0, 0, 0, 0, 0, 0]

/-- The entries: the range, 600 ns, and 110 GB/s each way. -/
def cdatEntries (size : Nat) : List (List Nat) := [dsmas size, dslbis 1 1000 600, dslbis 4 1000 110, dslbis 5 1000 110]

/-- The table's header; all bytes of the table sum to 0 mod 256. -/
def cdatHeader (size : Nat) : List Nat :=
  let n := 16 + (cdatEntries size).flatten.length
  let plain := le 4 n ++ [1, 0, 0, 0, 0, 0, 0, 0] ++ le 4 0
  let s := (plain ++ (cdatEntries size).flatten).sum
  le 4 n ++ [1, (256 - s % 256) % 256, 0, 0, 0, 0, 0, 0] ++ le 4 0

/-- The table by entry handle, its header first. Log 183 (PRESUMED). -/
def cdatTable (size : Nat) : List (List Nat) := cdatHeader size :: cdatEntries size

/-! ## The DOE mailbox (R394, Table 14-1) -/

/-- The data object types of the mailbox, in the order of discovery: discovery, CMA/SPDM, secured SPDM, CDAT. Log 184 (DESIGN CHOICE). -/
def doeTypes : List Nat := [0, 1, 2, 3]

/-- A data object: header, length in double words, content. -/
def doeObject (type : Nat) (body : List Nat) : List Nat := [vendorId + 2 ^ 16 * type, body.length + 2] ++ body

/-- DOE discovery: an index names a type, and the index after it. -/
def doeDiscovery (index : Nat) : List Nat :=
  match doeTypes[index]? with
  | some t => doeObject 0 [vendorId + 2 ^ 16 * t + 2 ^ 24 * ((index + 1) % doeTypes.length)]
  | none => doeObject 0 [0x00FFFFFF]

/-- CDAT table access: an entry by its handle, and the next handle; nothing where the table has no such entry. -/
def Ctl.cdatAccess (c : Ctl) (w : Nat) : List Nat :=
  let l := cdatTable c.windowSize
  let h := bitsOf w 16 16
  match l[h]? with
  | some b => if w % 65536 = 0 then doeObject 3 ((2 ^ 16 * (if h + 1 < l.length then h + 1 else 0xFFFF)) :: words (b.length / 4) b) else []
  | none => []

/-- What the mailbox answers to an object. SPDM objects are taken by the commands of their own. Log 184 (DESIGN CHOICE). -/
def Ctl.doeAnswer (c : Ctl) (req : List Nat) : List Nat :=
  match req with
  | h :: _ :: w :: _ =>
    if h % 65536 ≠ vendorId then []
    else if bitsOf h 16 8 = 0 then doeDiscovery (w % 256)
    else if bitsOf h 16 8 = 3 then c.cdatAccess w
    else []
  | _ => []

/-- `GO`: an object whose length field does not tell its length is an error. -/
def Ctl.doeGo (c : Ctl) : Ctl :=
  let q := c.host.doeReq
  if q.length < 2 ∨ q.getD 1 0 % 2 ^ 18 ≠ q.length then { c with host := { c.host with doeReq := [], doeError := true } }
  else { c with host := { c.host with doeReq := [], doeResp := c.doeAnswer q } }

/-- A write of the DOE control word: `ABORT`, else `GO`. -/
def Ctl.doeControl (c : Ctl) (v : Nat) : Ctl :=
  if bit v 0 then { c with host := { c.host with doeReq := [], doeResp := [], doeError := false } }
  else if bit v 31 then c.doeGo else c

/-- The DOE status word: an error, an object ready to be read. -/
def Ctl.doeStatus (c : Ctl) : Nat := 4 * b2n c.host.doeError + 2 ^ 31 * b2n (c.host.doeResp != [])

/-! ## Capabilities and the words of configuration space -/

/-- The speed code of a link rate in GT/s. -/
def speedCode (rate : Nat) : Nat :=
  match rate with
  | 2 => 1 | 5 => 2 | 8 => 3 | 16 => 4 | 32 => 5 | 64 => 6 | _ => 0

/-- The header of an extended capability. -/
def extCap (id version next : Nat) : Nat := id + 2 ^ 16 * version + 2 ^ 20 * next

/-- The words of the capabilities that the spec gives the function: power management with D0 and D3hot, MSI-X with 32 vectors, PCI
Express without ASPM, the DVSECs of a CXL device with one HDM range and of the Register Locator, DOE, and IDE with one selective
stream. No other capability is in the chains. Log 183 (PRESUMED). -/
def Ctl.capWord (c : Ctl) (off : Nat) : Option Nat :=
  match off with
  | 0x34 => some 0x40
  | 0x40 => some (0x01 + 2 ^ 8 * 0x50 + 2 ^ 16 * 3)
  | 0x44 => some (8 + (if c.host.d3 then 3 else 0))
  | 0x50 => some (0x11 + 2 ^ 8 * 0x60 + 2 ^ 16 * 31 + 2 ^ 30 * b2n c.host.msixFmask + 2 ^ 31 * b2n c.host.msixEnable)
  | 0x54 => some 0x40000
  | 0x58 => some 0x41000
  | 0x60 => some (0x10 + 2 ^ 16 * 2)
  | 0x84 => some (2 ^ 16)
  | 0x8C => some 0x7E
  | 0x6C => some (6 + 2 ^ 4 * 16)
  | 0x70 => some (2 ^ 16 * (speedCode c.host.rate + 2 ^ 4 * c.host.width))
  | 0x100 => some (extCap 0x23 1 0x140)
  | 0x104 => some (vendorId + 2 ^ 16 * 3 + 2 ^ 20 * 0x3C)
  | 0x108 => some (2 ^ 16 * 0x97)
  | 0x140 => some (extCap 0x23 1 0x180)
  | 0x144 => some (vendorId + 2 ^ 20 * 0x14)
  | 0x148 => some 8
  | 0x14C => some (4 + 2 ^ 8)
  | 0x150 => some 0
  | 0x180 => some (extCap 0x2E 2 0x1C0)
  | 0x184 => some 0
  | 0x188 => some 0
  | 0x18C => some c.doeStatus
  | 0x190 => some 0
  | 0x194 => some (c.host.doeResp.headD 0)
  | 0x1C0 => some (extCap 0x30 1 0)
  | 0x1C4 => some 0x42
  | _ => none

/-- The other words of the CXL device's DVSEC, with what was last written: control; no further status; a device cache of 1 MiB; one
range of the window's size, volatile, its base as written; no second range; no further capability. Log 183 (PRESUMED). -/
def Ctl.cxlWord (c : Ctl) (off w : Nat) : Option Nat :=
  match off with
  | 0x10C => some (setBit (w % 2 ^ 12) 1 true)
  | 0x110 => some (w % 2)
  | 0x114 => some (w % 2 + 2 ^ 16 * 0x0102)
  | 0x118 => some (c.windowSize / 2 ^ 32)
  | 0x11C => some (c.windowSize % 2 ^ 32 / 2 ^ 28 * 2 ^ 28 + 3)
  | 0x120 => some (w % 2 ^ 32)
  | 0x124 => some (w % 2 ^ 32 / 2 ^ 28 * 2 ^ 28)
  | 0x128 | 0x12C | 0x130 | 0x134 | 0x138 => some 0
  | _ => none

/-- Words in which PCIe leaves fields to the device: the subsystem's vendor is that of R395; the device's capabilities hold FLR,
role-based errors and no latency of a link state that R394 leaves out. Log 183 (PRESUMED). -/
def mixedWord (off rest : Nat) : Option Nat :=
  match off with
  | 0x2C => some (vendorId + 2 ^ 16 * (rest / 2 ^ 16 % 2 ^ 16))
  | 0x64 => some (rest % 8 + 2 ^ 5 * (rest / 2 ^ 5 % 2) + 2 ^ 15 + 2 ^ 28)
  | _ => none

/-- A double word of configuration space: identity, class and revision as R395 gives them, the BARs of Table 14-3 (each 64 bits wide,
not prefetchable, its size the bits that stay 0), no interrupt pin, and the capabilities; PCIe and CXL give the rest. Log 39 (DEDUCED). Log 183 (PRESUMED). -/
def Ctl.configWord (c : Ctl) (off : Nat) : Nat :=
  let w := Tab.get 0 c.host.config off
  if off == 0 then 0x0836 * 2 ^ 16 + vendorId
  else if off == 8 then 0x120000B0
  else if off == 0x10 then w / 2 ^ 26 * 2 ^ 26 + 4
  else if off == 0x20 then w / 2 ^ 20 * 2 ^ 20 + 4
  else if off == 0x14 || off == 0x24 then w
  else if off == 0x18 || off == 0x1C then 0
  else if off == 0x3C then w % 256
  else (((c.capWord off).or (c.cxlWord off w)).or (mixedWord off (Config.pcieConfig off w))).getD (Config.pcieConfig off w)

/-- The power state is written: D0 or D3hot; no other state exists. Log 185 (PRESUMED). -/
def Ctl.setPower (c : Ctl) (v : Nat) : Ctl :=
  if v % 4 = 3 then { c with host := { c.host with d3 := true } }
  else if v % 4 = 0 then ({ c with host := { c.host with d3 := false } }).msixRelease
  else c

/-- A write of a double word. -/
def Ctl.configWrite (c : Ctl) (off v : Nat) : Ctl :=
  match off with
  | 0x44 => c.setPower v
  | 0x50 => ({ c with host := { c.host with msixFmask := bit v 30, msixEnable := bit v 31 } }).msixRelease
  | 0x188 => c.doeControl v
  | 0x190 => { c with host := { c.host with doeReq := c.host.doeReq ++ [v % 2 ^ 32] } }
  | 0x194 => { c with host := { c.host with doeResp := c.host.doeResp.drop 1 } }
  | _ => { c with host := { c.host with config := c.host.config.set off v } }

/-- CONFIGURATION_REQUEST. Log 39 (DEDUCED). Log 40 (DEDUCED). -/
def Ctl.configRequest (c : Ctl) (off : Nat) (write : Option Nat) : Ctl :=
  if c.stage == 0 then c.send .crs
  else match write with
    | some v => c.configWrite off v
    | none => c.send (.answer (le 4 (c.configWord off)))

end Sys2Proof.Machine
end

