-- ==== Sys2Proof/Machine/Host.lean ====
section
/-! DEFINITION. The host interface and the sideband: BAR0, doorbells, the event ring, the function's resets, the CXL.mem
window, configuration space, the I3C target (R394 to R417). -/

namespace Sys2Proof.Machine

/-! ## Doorbells (R409) -/

/-- DB_PEND_CLEAR: bits written 1 clear. -/
def Ctl.clearPend (c : Ctl) (v : Nat) : Ctl := c.wr Fld.db_DB_PEND (c.rd Fld.db_DB_PEND - (c.rd Fld.db_DB_PEND &&& v))

/-- DB_MASK_WRITE: a pending bit whose mask clears sends its message. -/
def Ctl.setMask (c : Ctl) (v : Nat) : Ctl :=
  let old := c.rd Fld.db_DB_MASK
  let p := c.rd Fld.db_DB_PEND
  (c.wr Fld.db_DB_MASK v).each (List.range 32) (fun c n => if bit old n && ! bit v n && bit p n then c.msix n else c)

def execDbPendClear (value : Nat) (s : State) : Host.Outcome State Fault Refusal :=
  if s.m.ctl.hostUp then .next (s.onM (·.onCtl (·.clearPend value))) else .next s

def execDbMaskWrite (value : Nat) (s : State) : Host.Outcome State Fault Refusal :=
  if s.m.ctl.hostUp then .next (s.onM (·.onCtl (·.setMask value))) else .next s

/-! ## The event ring (R411 to R413) -/

/-- An alarm that waits enters the ring once there is room. -/
def Ctl.drainAlarm (c : Ctl) (e : Event) : Ctl :=
  if c.freeCount == 0 then c
  else ({ c with host := { c.host with alarms := c.host.alarms.drop 1 } }).writeEntry e

/-- Room has come: waiting alarms in order, then the loss summary. -/
def Ctl.drainRing (c : Ctl) : Ctl := (c.each c.host.alarms Ctl.drainAlarm).flushLoss

/-- `HEAD` moves: never past `TAIL`. The oldest unread entry is now another. -/
def Ctl.setHead (c : Ctl) (v : Nat) : Ctl :=
  let n := v % 16384
  let d := (n + 16384 - c.rd Fld.ev_EV_HEAD) % 16384
  let c := c.wr Fld.ev_EV_HEAD (if c.unread < d then c.rd Fld.ev_EV_TAIL else n)
  let old := match Tab.get none (c.host.ring.map (fun p => (p.1, some p.2))) (c.rd Fld.ev_EV_HEAD) with
    | some e => e.stamp
    | none => c.host.oldest
  ({ c with host := { c.host with oldest := old } }).drainRing

def execEvHeadWrite (value : Nat) (s : State) : Host.Outcome State Fault Refusal :=
  if s.m.ctl.hostUp then .next (s.onM (·.onCtl (·.setHead value))) else .next s

/-- EVENT_DELAY_EXPIRY: `DELAY` µs have passed since the oldest unread entry was written (R412). -/
def execEventDelayExpiry (s : State) : Host.Outcome State Fault Refusal :=
  if s.m.ctl.hdUp && s.m.ctl.rd Fld.ev_EV_DELAY != 0 && s.m.ctl.unread != 0 then .next (s.onM (·.onCtl (·.ring 0))) else .next s

/-! ## Resets of the function (R414) -/

/-- Is a channel owned by a HOST sender? Log 42 (DEDUCED). -/
def Ctl.hostOwned (c : Ctl) (ch : Nat) : Bool := c.rd Fld.mb_MB_OWN_OWNER ch % 16 == 1

/-- A HOST channel is released; a message in progress completes, its response discarded and its doorbell not set. Log 42 (DEDUCED). -/
def Ctl.flrChan (c : Ctl) (ch : Nat) : Ctl :=
  if !c.hostOwned ch then c
  else if c.busy ch then
    { c with host := { c.host with releasing := addNew c.host.releasing ch, quiet := addNew c.host.quiet ch } }
  else c.freeChan ch

/-- FLR: the words of configuration space and of the MSI-X table return to reset; those of BAR4 stand. Log 42 (DEDUCED). -/
def Ctl.flr (c : Ctl) : Ctl :=
  let c := { c with host := { c.host with
    config := c.host.config.filter (fun p => decide (0x2000000 ≤ p.1))
    msixMask := List.range 32
    msixPend := []
    msixEnable := false
    msixFmask := false
    d3 := false
    doeReq := []
    doeResp := []
    doeError := false } }
  let c := (c.wr Fld.db_DB_PEND 0).wr Fld.db_DB_MASK 0xFFFFFFFF
  (c.each (List.range 32) Ctl.flrChan).setHead (c.rd Fld.ev_EV_TAIL)

/-- CXL Reset: as FLR; the device cache, the decoder and the IDE streams besides. -/
def Ctl.cxlReset (c : Ctl) : Ctl :=
  let c := c.flr
  { c with
    host := { c.host with
      devCache := []
      decoder := none
      decoderErr := false
      config := Tab.upd 0 c.host.config 0x2001320 (fun w => setBit w 9 false) }
    sec := { c.sec with ide := [] } }

/-- Hot reset and link down: as CXL Reset; the link trains again before anything travels on it. -/
def Ctl.linkLost (c : Ctl) : Ctl :=
  let c := c.cxlReset
  { c with host := { c.host with linkTrained := false, cxlOn := false, width := 0, rate := 0 } }

def execFlr (s : State) : Host.Outcome State Fault Refusal :=
  if s.m.ctl.hdUp then .next (s.onM (·.onCtl (·.flr))) else .next s

def execCxlReset (s : State) : Host.Outcome State Fault Refusal :=
  if s.m.ctl.hdUp then .next (s.onM (·.onCtl (·.cxlReset))) else .next s

def execHotReset (s : State) : Host.Outcome State Fault Refusal :=
  if s.m.ctl.hdUp then .next (s.onM (·.onCtl (·.linkLost))) else .next s

/-- CX_PERST_ASSERT: acts as link down, and never resets the module (R515). -/
def Ctl.perstOn (c : Ctl) : Ctl :=
  let c := if c.hdUp then c.linkLost else c
  { c with host := { c.host with perst := true } }

def execCxPerstAssert (s : State) : Host.Outcome State Fault Refusal := .next (s.onM (·.onCtl (·.perstOn)))

def execCxPerstDeassert (s : State) : Host.Outcome State Fault Refusal :=
  .next (s.onM (·.onCtl (fun c => { c with host := { c.host with perst := false } })))

/-! ## The link and the window (R394, R399 to R401) -/

/-- CXL_LINK_TRAINED: CXL.cache and CXL.mem only at 32 or 64 GT/s. -/
def Ctl.cxlUp (c : Ctl) (width rate : Nat) : Ctl :=
  { c with host := { c.host with linkTrained := true, cxlOn := rate == 32 || rate == 64, width := width, rate := rate } }

def execCxlLinkTrained (width rate : Nat) (s : State) : Host.Outcome State Fault Refusal :=
  if s.m.ctl.hdUp && !s.m.ctl.host.perst && !s.m.ctl.tap.pinsTaken then .next (s.onM (·.onCtl (·.cxlUp width rate))) else .next s

/-- HDM_DECODER_COMMIT (R399). Log 43 (DEDUCED). -/
def Ctl.commitHdm (c : Ctl) (base size ways : Nat) : Ctl :=
  let ok := size != 0 && size == c.windowSize && ways == 1
  { c with host := { c.host with decoder := if ok then some (base, size) else none, decoderErr := !ok } }

/-- Log 43 (DEDUCED). -/
def execHdmDecoderCommit (base size ways : Nat) (s : State) : Host.Outcome State Fault Refusal :=
  if s.m.ctl.hostUp && s.m.ctl.host.linkTrained then .next (s.onM (·.onCtl (·.commitHdm base size ways))) else .next s

/-- The device physical address of byte `off` of the decoder range (R400). -/
def Ctl.hdmAddr (c : Ctl) (off : Nat) : Nat := farBase + c.rd Fld.fl_FL_BAR2_BASE_GIB * gib + off

/-- Does a span lie in the committed range? -/
def Ctl.inHdm (c : Ctl) (off len : Nat) : Bool :=
  c.host.cxlOn && !c.host.d3 && (match c.host.decoder with | some (_, size) => decide (off + len ≤ size) | none => false)

/-- Each poisoned line of a reading is counted once (R310). -/
def Ctl.countPoison (c : Ctl) (lines : List Nat) : Ctl := c.each lines (fun c l => c.poisonCnt (l * 64) 1)

/-- A host read: the data, with the poison indication of each poisoned line. -/
def Module.hostRead (m : Module) (a len : Nat) (errs : Errs) : Module :=
  let c := m.ctl.memErrs errs
  let bad := (spanLines a len).filter c.poison.contains
  { m with ctl := (c.countPoison bad).send (.memData (memRead m.mem a len) bad) }

/-- A host write: whole lines lose their poison, the rest of memory keeps its bytes (R305, R309, R400). -/
def Module.hostWrite (m : Module) (a : Nat) (b : List Nat) (errs : Errs) : Module :=
  { m with ctl := m.ctl.memErrs errs }.write a b

/-- CXL_MEM_ACCESS. -/
def Module.memAccess (m : Module) (off len : Nat) (write : Option (List Nat)) (errs : Errs) : Module :=
  match write with
  | some b => m.hostWrite (m.ctl.hdmAddr off) b errs
  | none => m.hostRead (m.ctl.hdmAddr off) len errs

def execCxlMemAccess (off len : Nat) (write : Option (List Nat)) (errs : Errs) (s : State) : Host.Outcome State Fault Refusal :=
  if s.m.ctl.inHdm off (match write with | some b => b.length | none => len) then .next (s.onM (·.memAccess off len write errs))
  else .next s

/-! ## Configuration space (R395, R501) -/

/-- Log 40 (DEDUCED). -/
def execConfigurationRequest (off : Nat) (write : Option Nat) (s : State) : Host.Outcome State Fault Refusal :=
  if s.m.ctl.hdUp && !s.m.ctl.host.perst then .next (s.onM (·.onCtl (·.configRequest off write))) else .next s

/-! ## The heartbeat -/

/-- ST_BEAT_TICK: it pauses during a handover, and halts with the firmware. -/
def execStBeatTick (s : State) : Host.Outcome State Fault Refusal :=
  let c := s.m.ctl
  if c.hdUp && c.stage != 0 && c.stage != 5 && c.sec.updState != 5 then
    .next (s.onM (·.onCtl (fun c => c.add Fld.st_ST_BEAT_COUNT 1)))
  else .next s

/-! ## BAR0 (Table 14-4) -/

/-- A write to a mailbox channel. Log 41 (DEDUCED). -/
def Ctl.chanWrite (c : Ctl) (p : Port) (ch off v : Nat) : Ctl :=
  if off == 0x44 then
    let c := if bit v 0 then c.claim p ch else c
    if bit v 1 then c.releaseChan p ch else c
  else if off == 0x48 && bit v 8 then c.goChan p ch v
  else c.writeChan p ch off v

/-- The vector control word of an MSI-X table entry: its mask. An unmasked vector whose bit is pending sends its message. Log 38 (PRESUMED). -/
def Ctl.msixControl (c : Ctl) (n v : Nat) : Ctl :=
  if bit v 0 then { c with host := { c.host with msixMask := addNew c.host.msixMask n } }
  else ({ c with host := { c.host with msixMask := without c.host.msixMask n } }).msixRelease

/-- A word write to the MSI-X table. Log 38 (PRESUMED). -/
def Ctl.msixWrite (c : Ctl) (o v : Nat) : Ctl :=
  let c := { c with host := { c.host with config := c.host.config.set (0x1000000 + o) v } }
  if o % 16 == 12 then c.msixControl (o / 16) v else c

/-- The block that a BAR0 offset decodes to, and the offset in it. Log 49 (DESIGN CHOICE). -/
def bar0Block (off : Nat) : Option (Blk × Nat × Nat) :=
  if off < 0x1000 then some (.st, 0, off)
  else if 0x10000 ≤ off && off < 0x12000 then some (.mb, (off - 0x10000) / 0x100, off % 0x100)
  else if 0x20000 ≤ off && off < 0x21000 then some (.db, 0, off - 0x20000)
  else if 0x30000 ≤ off && off < 0x31000 then some (.ev, 0, off - 0x30000)
  else if 0x50000 ≤ off && off < 0x51000 then some (.sb, 0, off - 0x50000)
  else none

/-- A word write at a BAR0 offset. Log 49 (DESIGN CHOICE). -/
def Ctl.bar0Write (c : Ctl) (p : Port) (off v : Nat) : Ctl :=
  if 0x40000 ≤ off && off < 0x40200 then c.msixWrite (off - 0x40000) v
  else match bar0Block off with
    | some (.mb, ch, o) => c.chanWrite p ch o v
    | some (.db, _, 0) => c.clearPend v
    | some (.db, _, 4) => c.setMask v
    | some (.ev, _, 4) => c.setHead v
    | some (b, i, o) => c.wrWord b i o v
    | none => c

/-- A word of the MSI-X table: after reset each vector is masked. Log 38 (PRESUMED). -/
def Ctl.msixRead (c : Ctl) (o : Nat) : Nat :=
  if o % 16 == 12 then b2n (c.host.msixMask.contains (o / 16)) else Tab.get 0 c.host.config (0x1000000 + o)

/-- A word read at a BAR0 offset. Log 49 (DESIGN CHOICE). -/
def Ctl.bar0Read (c : Ctl) (off : Nat) : Nat × Ctl :=
  if 0x40000 ≤ off && off < 0x40200 then (c.msixRead (off - 0x40000), c)
  else if off == 0x41000 then (c.host.msixPend.foldl (fun w n => w + 2 ^ n) 0, c)
  else if 0x100000 ≤ off && off < 0x200000 then
    let e := match Tab.get none (c.host.ring.map (fun p => (p.1, some p.2))) ((off - 0x100000) / 64) with
      | some e => e.bytes
      | none => []
    (fieldAt e (off % 64) 4, c)
  else if 0x2000000 ≤ off && off < 0x4000000 then (fieldAt (c.slot ((off - 0x2000000) / 64)) (off % 64) 4, c)
  else match bar0Block off with
    | some (.st, _, o) => c.readStatus o
    | some (b, i, o) => c.readCap b i o
    | none => (0, c)

/-! ### The CXL component registers (BAR4 of Table 14-3) -/

/-- `IW` of a decoder: the ways of its interleave. -/
def waysOf (iw : Nat) : Nat := if iw < 5 then 2 ^ iw else 0

/-- Where BAR4's written words stand in the configuration table. -/
def componentKey (off : Nat) : Nat := 0x2000000 + off

def Ctl.componentGet (c : Ctl) (off : Nat) : Nat := Tab.get 0 c.host.config (componentKey off)

/-- A word of BAR4: the capability array (RAS, link, HDM decoder, IDE), the capability words of the link and of IDE with its skid and
containment modes, and HDM decoder 0; CXL gives the rest. Log 186 (PRESUMED). -/
def Ctl.componentRead (c : Ctl) (off : Nat) : Nat :=
  match off with
  | 0x1000 => 1 + 2 ^ 16 + 2 ^ 20 + 2 ^ 24 * 4
  | 0x1004 => 2 + 2 ^ 16 * 2 + 2 ^ 20 * 0x100
  | 0x1008 => 4 + 2 ^ 16 * 2 + 2 ^ 20 * 0x200
  | 0x100C => 5 + 2 ^ 16 * 3 + 2 ^ 20 * 0x300
  | 0x1010 => 0xB + 2 ^ 16 * 2 + 2 ^ 20 * 0x400
  | 0x1200 => 1 + 2 ^ 8 * (Config.pcieConfig (componentKey off) 0 % 2 ^ 8)
  | 0x1400 => 7 + 2 ^ 17
  | 0x1300 => 0
  | 0x1310 => (match c.host.decoder with | some (b, _) => b % 2 ^ 32 | none => c.componentGet off / 2 ^ 28 * 2 ^ 28)
  | 0x1314 => (match c.host.decoder with | some (b, _) => b / 2 ^ 32 | none => c.componentGet off)
  | 0x1318 => (match c.host.decoder with | some (_, n) => n % 2 ^ 32 | none => c.componentGet off / 2 ^ 28 * 2 ^ 28)
  | 0x131C => (match c.host.decoder with | some (_, n) => n / 2 ^ 32 | none => c.componentGet off)
  | 0x1320 => c.componentGet off % 2 ^ 10 + 2 ^ 10 * b2n c.host.decoder.isSome + 2 ^ 11 * b2n c.host.decoderErr
  | _ => if off / 0x1000 = 1 then Config.pcieConfig (componentKey off) (c.componentGet off) else 0

/-- A word write of BAR4: the decoder's control word commits it. Log 186 (PRESUMED). -/
def Ctl.componentWrite (c : Ctl) (off v : Nat) : Ctl :=
  let c := { c with host := { c.host with config := c.host.config.set (componentKey off) v } }
  if off = 0x1320 then
    (if !bit v 9 then { c with host := { c.host with decoder := none, decoderErr := false } }
     else if c.host.decoder.isSome then c
     else c.commitHdm (c.componentGet 0x1310 / 2 ^ 28 * 2 ^ 28 + 2 ^ 32 * c.componentGet 0x1314)
        (c.componentGet 0x1318 / 2 ^ 28 * 2 ^ 28 + 2 ^ 32 * c.componentGet 0x131C) (waysOf (bitsOf v 4 4)))
  else c

/-! ### Host accesses (R398) -/

/-- R398: any other access is refused and counted. -/
def Ctl.badAccess (c : Ctl) : Ctl := c.bump Fld.st_ST_STATE_BAD_ACCESS

/-- The offsets of the words of an aligned access of 4 or 8 bytes, in ascending order; none for any other access. -/
def accessWords (off size : Nat) : List Nat :=
  if size = 4 ∧ off % 4 = 0 then [off] else if size = 8 ∧ off % 8 = 0 then [off, off + 4] else []

/-- A host write, in BAR4 or BAR0. -/
def Ctl.hostStore (c : Ctl) (p : Port) (size bar off v : Nat) : Ctl :=
  let l := (accessWords off size).zipIdx
  if bar = 4 then c.each l (fun c x => c.componentWrite x.1 (bitsOf v (32 * x.2) 32))
  else if l.isEmpty then c.badAccess
  else c.each l (fun c x => c.bar0Write p x.1 (bitsOf v (32 * x.2) 32))

/-- Words read one after another. -/
def Ctl.bar0Reads (c : Ctl) : List Nat → List Nat × Ctl
  | [] => ([], c)
  | o :: t =>
    let r := c.bar0Read o
    let q := Ctl.bar0Reads r.2 t
    (le 4 r.1 ++ q.1, q.2)

/-- A host read, in BAR4 or BAR0. -/
def Ctl.hostLoad (c : Ctl) (size bar off : Nat) : Ctl :=
  let l := accessWords off size
  if bar = 4 then c.send (.answer (if l.isEmpty then List.replicate size 0 else (l.map (fun o => le 4 (c.componentRead o))).flatten))
  else if l.isEmpty then c.badAccess.send (.answer (List.replicate size 0))
  else
    let r := c.bar0Reads l
    r.2.send (.answer r.1)

/-! ## The I3C sideband (R415 to R417) -/

/-- Does the target answer? Log 37 (DEDUCED). -/
def Ctl.sbAnswers (c : Ctl) : Bool := c.hdUp && c.stage != 0

/-- May the sideband read a BAR0 word? In FAULT only the module status block. -/
def Ctl.sbMayRead (c : Ctl) (off : Nat) : Bool :=
  off % 4 == 0 &&
    (decide (off < 0x1000) || (c.stage != 5 &&
      ((decide (0x50000 ≤ off) && decide (off < 0x51000)) || (decide (0x30000 ≤ off) && decide (off < 0x31000))
        || (decide (0x100000 ≤ off) && decide (off < 0x200000))
        || (decide (0x10000 ≤ off) && decide (off < 0x12000) && c.permits ((off - 0x10000) / 0x100) 2))))

/-- May it write one? -/
def Ctl.sbMayWrite (c : Ctl) (off : Nat) : Bool :=
  off % 4 == 0 && c.stage != 5 && decide (0x10000 ≤ off) && decide (off < 0x12000) && c.permits ((off - 0x10000) / 0x100) 2

/-- A refused access. Log 47 (DEDUCED). -/
def Ctl.denied (c : Ctl) : Ctl := c.bump Fld.sb_SB_DENIED

/-- One word of a private write. -/
def Ctl.sbStore (c : Ctl) (off v : Nat) : Ctl := if c.sbMayWrite off then c.bar0Write .sideband off v else c.denied

/-- The words of a private write, at rising offsets. -/
def Ctl.sbStores (c : Ctl) : Nat → List Nat → Ctl
  | _, [] => c
  | off, w :: t => (c.sbStore off w).sbStores (off + 4) t

/-- PRIVATE_WRITE. Log 47 (DEDUCED). -/
def Ctl.privWrite (c : Ctl) (b : List Nat) : Ctl :=
  ({ c with host := { c.host with sbOffset := fieldAt b 0 4 } }).sbStores (fieldAt b 0 4) (words ((b.length - 4) / 4) (b.drop 4))

/-- One word of a private read. -/
def Ctl.sbLoad (c : Ctl) (off : Nat) : Nat × Ctl := if c.sbMayRead off then c.bar0Read off else (0, c.denied)

/-- The words of a private read. Log 47 (DEDUCED). -/
def Ctl.sbLoads : Nat → Ctl → Nat → List Nat × Ctl
  | 0, c, _ => ([], c)
  | n + 1, c, off =>
    let r := c.sbLoad off
    let q := Ctl.sbLoads n r.2 (off + 4)
    (r.1 :: q.1, q.2)

/-- PRIVATE_READ: words from the offset of the last write. Log 47 (DEDUCED). -/
def Ctl.privRead (c : Ctl) (n : Nat) : Ctl :=
  let r := Ctl.sbLoads n c c.host.sbOffset
  r.2.send (.answer (unwords r.1))

def execPrivateWrite (bytes : List Nat) (s : State) : Host.Outcome State Fault Refusal :=
  if s.m.ctl.sbAnswers then .next (s.onM (·.onCtl (·.privWrite bytes))) else .next s

def execPrivateRead (words : Nat) (s : State) : Host.Outcome State Fault Refusal :=
  if s.m.ctl.sbAnswers then .next (s.onM (·.onCtl (·.privRead words))) else .next s

/-- R417: a common command of the sideband; in FAULT it is refused and counted. Log 47 (DEDUCED). -/
def State.sbCommand (s : State) (ok : Bool) (f : Ctl → Ctl) : Host.Outcome State Fault Refusal :=
  if !s.m.ctl.sbAnswers then .next s
  else if s.m.ctl.stage == 5 then .next (s.onM (·.onCtl Ctl.denied))
  else if ok then .next (s.onM (·.onCtl f)) else .next s

/-- A dynamic address is assigned. -/
def Ctl.assign (c : Ctl) (addr : Nat) : Ctl := (c.wr Fld.sb_SB_STATE_DADDR addr).wr Fld.sb_SB_STATE_DAVALID 1

/-- Has the target a dynamic address? -/
def Ctl.hasAddr (c : Ctl) : Bool := c.on Fld.sb_SB_STATE_DAVALID

/-- ENTDAA: a target with no dynamic address takes the one it is given. -/
def execEntdaa (addr : Nat) (s : State) : Host.Outcome State Fault Refusal := s.sbCommand (!s.m.ctl.hasAddr) (·.assign addr)

/-- SETDASA: the same by the static address 0x4C. -/
def execSetdasa (static addr : Nat) (s : State) : Host.Outcome State Fault Refusal :=
  s.sbCommand (!s.m.ctl.hasAddr && static == 0x4C) (·.assign addr)

/-- RSTDAA: the dynamic address is given up. -/
def execRstdaa (s : State) : Host.Outcome State Fault Refusal :=
  s.sbCommand true (fun c => (c.wr Fld.sb_SB_STATE_DADDR 0).wr Fld.sb_SB_STATE_DAVALID 0)

/-- ENEC: bit 0 of the event byte enables in-band interrupts. -/
def execEnec (events : Nat) (s : State) : Host.Outcome State Fault Refusal :=
  s.sbCommand (bit events 0) (·.wr Fld.sb_SB_STATE_IBI_EN 1)

/-- DISEC. -/
def execDisec (events : Nat) (s : State) : Host.Outcome State Fault Refusal :=
  s.sbCommand (bit events 0) (·.wr Fld.sb_SB_STATE_IBI_EN 0)

/-- GETPID: the provisional identifier, most significant byte first. Log 48 (PRESUMED). -/
def execGetpid (s : State) : Host.Outcome State Fault Refusal :=
  s.sbCommand s.m.ctl.hasAddr (fun c => c.send (.answer (be 6 (c.rd Fld.sb_SB_PID))))

def execGetbcr (s : State) : Host.Outcome State Fault Refusal := s.sbCommand s.m.ctl.hasAddr (·.send (.answer [0x06]))

def execGetdcr (s : State) : Host.Outcome State Fault Refusal := s.sbCommand s.m.ctl.hasAddr (·.send (.answer [0x00]))

/-- GETSTATUS: two bytes, whose bits the spec leaves to I3C. Log 48 (PRESUMED). -/
def Ctl.getStatus (c : Ctl) : Ctl :=
  let r := c.fresh
  r.2.send (.answer (be 2 (r.1 % 2 ^ 16)))

def execGetstatus (s : State) : Host.Outcome State Fault Refusal := s.sbCommand s.m.ctl.hasAddr (·.getStatus)

/-- Log 48 (PRESUMED). -/
def execGetmwl (s : State) : Host.Outcome State Fault Refusal := s.sbCommand s.m.ctl.hasAddr (·.send (.answer (be 2 68)))

/-- Log 48 (PRESUMED). -/
def execGetmrl (s : State) : Host.Outcome State Fault Refusal := s.sbCommand s.m.ctl.hasAddr (·.send (.answer (be 2 64)))

end Sys2Proof.Machine
end

