-- ==== Sys2Proof/Machine/Steer.lean ====
section
/-! DEFINITION. Recompute attempts, fallbacks and sampled comparisons (R166 to R176, Table 6-5). An attempt runs in one command once
its grant has come. -/

namespace Sys2Proof.Machine

/-! ## Settings and the ladder (Tables 6-3, 6-8) -/

/-- A setting of the precision policy in force, by its place in Table 6-8. -/
def Ctl.policy (c : Ctl) (i : Nat) : Nat := c.job.policy.getD i 0

def Ctl.adaptive (c : Ctl) : Bool := c.policy 0 == 0

/-- The formats of the ladder, by rank. -/
def ladder : List Nat := [0x04, 0x05, 0x09, 0x0C]

/-- The rank of a format. -/
def rankOf (fmt : Nat) : Option Nat := (ladder.zipIdx.find? (fun (p : Nat × Nat) => p.1 == fmt)).map (·.2)

/-- Does a role follow the serial ladder (R163)? -/
def Plan.isSerial (p : Plan) (role : Nat) : Bool := p.serial && role == 1

/-- The code of the serial width a rank stands for. -/
def serialFmt (r : Nat) : Nat := 0x33 + 4 * r

/-- The format a role takes at its ceiling and at its floor. -/
def Plan.ceilFmt (p : Plan) (role : Nat) : Nat :=
  let r := p.ceil.getD (role - 1) 0
  if p.isSerial role then serialFmt r else ladder.getD r 0x0C
def Plan.floorFmt (p : Plan) (role : Nat) : Nat :=
  let r := p.floor.getD (role - 1) 0
  if p.isSerial role then serialFmt r else ladder.getD r 0x04

/-- One rank, or two bits, wider; none at the ceiling or off the ladder (R167, R169). -/
def Plan.wider (p : Plan) (role fmt : Nat) : Option Nat :=
  if p.isSerial role then (if fmt + 2 ≤ p.ceilFmt role then some (fmt + 2) else none)
  else match rankOf fmt with
    | some r => if r < p.ceil.getD (role - 1) 0 then ladder[r + 1]? else none
    | none => none

/-! ## What is flagged (R167) -/

/-- The running group of a descriptor. -/
def Ctl.groupOf (c : Ctl) (die q seq : Nat) : Option (Nat × GroupRun) :=
  match c.desc die q seq with
  | some x => (match x.stage, x.work with
    | .running, .pass d => (match (c.arr die d.phys).run with
      | some g => if g.queue = q ∧ g.seq = seq then some (d.phys, g) else none
      | none => none)
    | _, _ => none)
  | none => none

/-- Why a tile has failed, over all its attempts: XBASE, OSCALE. -/
def GroupRun.fails (g : GroupRun) (tile : Nat) : Bool × Bool := (g.stat.why.contains (tile, false), g.stat.why.contains (tile, true))

/-! ## Raises (Table 6-5) -/

/-- `XBASE` raised by `b`; none past 127. -/
def raiseX (hold : Bool) (b : Nat) (x : Int) : Option Int := if x + b ≤ 127 then some (x + b) else if hold then some 127 else none

/-- The output scale raised by `b` binades; none where it has none to raise or the raise would pass exponent 30. -/
def raiseS (hold : Bool) (b : Nat) (cv : Cvt) : Option Nat :=
  if cv.scaleSrc = 1 ∧ cv.oscale / 8 + b ≤ 30 then some (cv.oscale + 8 * b)
  else if hold then some (if cv.scaleSrc = 1 ∧ cv.oscale / 8 ≤ 30 then 0xF0 + cv.oscale % 8 else cv.oscale)
  else none

/-- A group with its failing scales raised by `b` binades; a serial role raises `XBASE` only (R169). -/
def PassDesc.raise (d : PassDesc) (serial hold : Bool) (fails : Bool × Bool) (b : Nat) : Option PassDesc :=
  match (if serial || fails.1 then raiseX hold b d.xbase else some d.xbase),
      (if fails.2 && !serial then raiseS hold b d.cvt else some d.cvt.oscale) with
  | some x, some s => some { d with xbase := x, cvt := { d.cvt with oscale := s } }
  | _, _ => none

/-- A group at a wider format (R164). -/
def PassDesc.widen (d : PassDesc) (fmt : Nat) : PassDesc :=
  { d with cvt := { d.cvt with tgt := fmt, scaleSrc := if fmt = 0x0C then 0 else d.cvt.scaleSrc }, outx := d.outx && smallFmt fmt,
           tc := if d.tc.steered then { d.tc with fmt := fmt } else d.tc }

/-- Does a group's role use the serial ladder? -/
def Ctl.serialRole (c : Ctl) (d : PassDesc) : Bool := ((c.die d.die).planOf d.layer).isSerial d.role

/-- What comes next for a tile. -/
inductive Attempt where
  /-- a retry with these fields -/
  | retry (d : PassDesc)
  /-- the fallback's own run -/
  | wide (d : PassDesc)
  /-- a fallback is due -/
  | fall (fmt : Nat)
  /-- none left -/
  | exhausted
deriving DecidableEq, Repr

/-- The format a fallback of a group would take; none where there is no fallback (R167, R174). -/
def Ctl.fallFmt (c : Ctl) (d : PassDesc) : Option Nat :=
  let p := (c.die d.die).planOf d.layer
  if c.adaptive && !p.fixedP then p.wider d.role d.cvt.tgt else none

/-- Table 6-5 for a tile at attempt `a`. -/
def Ctl.attemptOf (c : Ctl) (g : GroupRun) (tile a : Nat) : Attempt :=
  let serial := c.serialRole g.d
  let fails := g.fails tile
  let fall : Attempt := match c.fallFmt g.d with | some f => .fall f | none => .exhausted
  if a = 255 then
    (match g.d.raise serial true fails (2 * (c.policy 3 + 1)) with | some d => .wide d | none => .exhausted)
  else if a ≤ c.policy 3 then (match g.d.raise serial false fails (2 * a) with | some d => .retry d | none => fall)
  else fall

/-! ## Running a tile again -/

/-- The beats of one pass. -/
def Module.passBeats (m : Module) (tab : List (Int × Int)) : Nat → Beat → Beat
  | 0, b => b
  | n + 1, b => match b.g.act with | none => b | some _ => Module.passBeats m tab n (m.beat tab 65536 b)

/-- One pass: its load, the switch and its beats. -/
def Module.runPass (m : Module) (tab : List (Int × Int)) (b : Beat) (s : Pass) : Beat :=
  let t := m.loadTile b.g.d s
  let b := { b with g := b.g.switch t.1, seen := b.seen.add t.2.1, ev := b.ev ++ t.2.2 }
  m.passBeats tab (b.g.d.bp + b.g.d.m + 8) b

/-- A tile run over its full K range from a clear bank. -/
def Module.runTile (m : Module) (g : GroupRun) (d : PassDesc) (tile : Nat) : Beat :=
  let g := { g with d := d, act := none, pend := none, todo := [], row := 0, beat := 0, lanes := [] }
  ((m.tilePasses d tile).filter (fun s => !s.skip)).foldl (m.runPass (m.ctl.logTab d.die)) ⟨g, [], [], Seen.none, 0, 0⟩

/-- A row of a rerun tile is read out. -/
def Module.rerunRow (die : Nat) (d : PassDesc) (rd : Readout) (b : Beat) (row : Nat) (acc : Module × List Nat × Seen) :
    Module × List Nat × Seen :=
  let m := acc.1
  let r := m.readRow d { rd with row := row } b.bank [] true
  let m := (m.makeWay die (some (b.g.queue, b.g.seq)) (putSpans d.tc r.writes r.res.scales ++ putSpans d.tsout r.side [])).writeRow d r
  (m.onCtl (·.rowTally d b.g.epoch r), acc.2.1 ++ r.events, acc.2.2.add r.res.seen)

/-- `MXSTAT` after an attempt on a tile (R170): the tile's flag is the attempt's. -/
def MxStat.merge (s : MxStat) (tile : Nat) (ev : List Nat) (sn : Seen) (skipped : Nat) : MxStat :=
  let s := ({ s with flags := without s.flags tile, skipped := s.skipped + skipped }).note tile ev sn
  s

/-- One attempt: the tile's passes, its readout, what they raise (R167, R170, R171). Log 112 (DEDUCED). -/
def Module.attempt (m : Module) (die p : Nat) (g : GroupRun) (d : PassDesc) (tile : Nat) : Module :=
  let b := m.runTile g d tile
  let skips := ((m.tilePasses d tile).filter (·.skip)).length
  let m := m.onCtl (fun c =>
    let c := ((c.onArr die p (fun a => { a with bank := b.bank })).setFrame d).arrEvents d g.epoch b.ev b.seen
    ((c.add Fld.ma_BEAT_BEATS b.beats (maInst die p)).add Fld.ma_ZSKIP_SKIPPED b.saved (maInst die p)).add Fld.ma_SKIP_PASSES skips
      (maInst die p))
  let w := m.ctl.beginRead d ⟨tile, 0, 0, false, skips == d.chunks, false, false⟩
  let r := (List.range d.m).foldl (fun acc row => Module.rerunRow die d w.1 b row acc) ({ m with ctl := w.2 }, [], Seen.none)
  r.1.onCtl (fun c =>
    match (c.arr die p).run with
    | some x => c.setGrp die p true { x with
        stat := x.stat.merge tile (b.ev ++ r.2.1) (b.seen.add r.2.2) skips, beats := x.beats + b.beats,
        issued := x.issued + (d.chunks - skips), last := (tile, d) :: x.last.filter (fun y => y.1 != tile) }
    | none => c)

/-- R248: the pending tile of the next group is discarded, to be loaded again. -/
def ArraySt.dropPending (a : ArraySt) : ArraySt :=
  { a with next := a.next.map (fun g => match g.pend with
      | some t => { g with pend := none, todo := t.pass :: g.todo }
      | none => g) }

/-- Does a holder wait for power, or hold it? -/
def HpSt.knows (h : HpSt) (w : HpWho) : Bool :=
  h.fifo.any (fun r => r.who == w) || h.oversize.any (fun r => r.who == w) || h.held.any (fun p => p.1 == w)

/-- R168: an attempt asks for power. -/
def Ctl.askAttempt (c : Ctl) (die q seq : Nat) (raw : List Nat) (d : PassDesc) (beats : Nat) : Ctl :=
  let w : HpWho := .attempt die q seq
  if c.hp.knows w then c
  else
    let t := c.stamp die
    (t.2.onDesc die q seq (fun x => { x with recomp := x.recomp.map (fun y => { y with askedAt := t.1 }) })).hpRequest
      ⟨w, (hdrOf raw).prio, d.units, beats⟩

/-- The next tile's turn. -/
def Recomp.nextTile (r : Recomp) : Recomp := { r with tiles := r.tiles.drop 1, attempt := 1 }

/-- R166: what a role remembers of a step. -/
def Ctl.track (c : Ctl) (die layer role : Nat) (f : RoleTrack → RoleTrack) : Ctl :=
  c.onDie die (fun x => { x with track := x.track.upd RoleTrack.reset (layer, role) f })

/-- Events of Table 6-9 are counted (R188). -/
def Ctl.planEvent (c : Ctl) (code n : Nat) : Ctl :=
  { c with job := { c.job with planEvents := c.job.planEvents.upd 0 code (· + n) } }

/-- A tile keeps a flag after its last attempt: RECOMPUTE_EXHAUSTED. -/
def Ctl.tileExhausted (c : Ctl) : Ctl := ({ c with job := { c.job with exhausted := c.job.exhausted + 1 } }).planEvent 0x0102 1

/-- The state after an attempt on the first tile: the tile is done, or its next attempt is due, or it is exhausted. Log 112 (DEDUCED). -/
def Ctl.afterAttempt (c : Ctl) (die p q seq : Nat) (r : Recomp) (tile : Nat) (isWide : Bool) (fails : Bool × Bool) : Ctl :=
  let c := c.hpFree (.attempt die q seq)
  match (c.arr die p).run with
  | none => c
  | some g =>
    let ok := !g.stat.flags.contains tile
    let raise := if !isWide && (c.serialRole g.d || fails.1) then 2 * r.attempt else 0
    let r := { r with granted := false }
    if ok then
      (c.track die g.d.layer g.d.role (fun t => { t with raise := max t.raise raise })).onDesc die q seq
        (fun x => { x with recomp := some { r with raised := max r.raised raise }.nextTile })
    else if isWide then
      c.tileExhausted.onDesc die q seq (fun x => { x with recomp := some r.nextTile })
    else c.onDesc die q seq (fun x => { x with recomp := some { r with attempt := r.attempt + 1 } })

/-- A granted attempt runs. Log 112 (DEDUCED). -/
def Module.runAttempt (m : Module) (die p q seq : Nat) (g : GroupRun) (r : Recomp) (d : PassDesc) (tile : Nat) (isWide : Bool) : Module :=
  let fails := g.fails tile
  (m.attempt die p g d tile).onCtl (·.afterAttempt die p q seq r tile isWide fails)

/-- One call: the attempt asks for its grant, runs, or the tile is exhausted. -/
def Module.recompute (m : Module) (die p q seq : Nat) (x : Desc) (g : GroupRun) (r : Recomp) (tile : Nat) : Module :=
  let m := m.onCtl (fun c => (c.onDesc die q seq (fun y => { y with recomp := some r })).onArr die p ArraySt.dropPending)
  let go (d : PassDesc) (isWide : Bool) : Module :=
    if r.granted then m.runAttempt die p q seq g r d tile isWide
    else m.onCtl (·.askAttempt die q seq x.raw d (m.beatsOf d [tile]))
  match m.ctl.attemptOf g tile r.attempt with
  | .retry d => go d false
  | .wide d => go d true
  | .fall _ => m
  | .exhausted => m.onCtl (fun c =>
      c.tileExhausted.onDesc die q seq (fun y => { y with recomp := some r.nextTile }))

/-- RECOMPUTE_ATTEMPT: of the first flagged tile of a group whose run is done. -/
def execRecomputeAttempt (die queue seq : Nat) (s : State) : Host.Outcome State Fault Refusal :=
  let c := s.m.ctl
  match c.dieUp die, c.desc die queue seq, c.groupOf die queue seq with
  | true, some x, some (p, g) =>
    (match g.done, (x.recompOf g).tiles with
     | true, t :: _ => .next (s.onM (·.recompute die p queue seq x g (x.recompOf g) t))
     | _, _ => .next s)
  | _, _, _ => .next s

/-! ## FALLBACK (R172) -/

/-- The completion semaphore of a layer and role. -/
def DieSt.groupSem (x : DieSt) (layer role : Nat) : Nat :=
  match x.lesson with
  | some l => (match l.groups.find? (fun g => g.layer == layer && g.role == role) with | some g => g.sem | none => 256)
  | none => 256

/-- The fallback of a layer and role in progress. -/
def DieSt.fall (x : DieSt) (layer role : Nat) : Option FallRun := x.falls.find? (fun f => f.layer == layer && f.role == role)

/-- Step 1: the wider format and `FELL_BACK` in the plan entry; signals to the layer's semaphore are held from now on. Log 112 (DEDUCED). -/
def DieSt.fallBack (x : DieSt) (layer role fmt : Nat) : DieSt :=
  let p := x.planOf layer
  let x := { x with plan := x.plan.set layer { p with fmt := p.fmt.set (role - 1) fmt, fellBack := p.fellBack.set (role - 1) true } }
  if (x.fall layer role).isSome then x else { x with falls := x.falls ++ [⟨layer, role, x.groupSem layer role, 0, []⟩] }

/-- The fallback of the tile in hand: the role widens, and the group goes on at the wider format. -/
def Ctl.fallOn (c : Ctl) (die p q seq : Nat) (g : GroupRun) (r : Recomp) (fmt : Nat) : Ctl :=
  let c := (c.onDie die (·.fallBack g.d.layer g.d.role fmt)).setGrp die p true { g with d := g.d.widen fmt }
  let c := ({ c with job := { c.job with fallbacks := c.job.fallbacks + 1 } }).planEvent 0x0101 1
  c.onDesc die q seq (fun y => { y with recomp := some { r with attempt := 255, fallback := true } })

def execFallback (die queue seq : Nat) (s : State) : Host.Outcome State Fault Refusal :=
  let c := s.m.ctl
  match c.dieUp die, c.desc die queue seq, c.groupOf die queue seq with
  | true, some x, some (p, g) =>
    (match g.done, (x.recompOf g).tiles with
     | true, t :: _ => (match c.attemptOf g t (x.recompOf g).attempt with
       | .fall f => .next (s.onM (·.onCtl (·.fallOn die p queue seq g (x.recompOf g) f)))
       | _ => .next s)
     | _, _ => .next s)
  | _, _, _ => .next s

/-- Step 2: the reruns of the pass groups of a layer and role, each at the head of the queue of its original, in order. Log 112 (DEDUCED). -/
def Ctl.pushReruns (c : Ctl) (die layer role : Nat) : Ctl :=
  let x := c.die die
  let mine := x.doneGroups.filter (fun g => g.1 == layer && g.2.1 == role)
  let c := c.onDie die (fun x => { x with
    falls := x.falls.map (fun f => if f.layer == layer && f.role == role then { f with reruns := f.reruns + mine.length } else f) })
  c.each (dedup (mine.map (·.2.2.1))) (fun c q =>
    let l := (mine.filter (fun g => g.2.2.1 == q)).map (fun g => { g.2.2.2 with rerun := true, epoch := x.epoch })
    c.enqueueSlots die q l true)

/-! ## SAMPLED_AGREE_COMPARE (R175, R176) -/

/-- R176. -/
def sampledTile (step layer j n : Nat) : Bool :=
  let h := (step % 2 ^ 32 * 0x9E3779B9 + layer * 0x85EBCA6B + j * 0xC2B2AE35) % 2 ^ 32
  h / 2 ^ (32 - min n 32) == 0

/-- Is an n-tile of a group to be compared? -/
def Ctl.selects (c : Ctl) (g : GroupRun) (j : Nat) : Bool :=
  bit (c.policy 4) 0 && g.d.recomputable && !g.accFrame && g.d.tb.masterEn && decide (j < g.d.tiles)
    && sampledTile c.job.step g.d.layer j (c.rd Fld.ln_LN_AGREE_SHIFT g.d.die)

/-- The tiles that still have to be compared. Log 113 (DEDUCED). -/
def Ctl.toCompare (c : Ctl) (g : GroupRun) : List Nat :=
  (List.range g.d.tiles).filter (fun j => c.selects g j && !g.compared.contains j)

/-- The group that a comparison runs again: as the tile last ran, with the stationary operand from its master copy and the readout in
FP32 (R168, R175). -/
def PassDesc.wideOf (d : PassDesc) (t : Tensor) : PassDesc :=
  { d with tb := t, blkB := t.scaled, scaleB := if t.scaled then 0 else 0xFF, cvt := { d.cvt with tgt := 0x0E, scaleSrc := 0 }, outx := false }

/-- The n-tiles of the wider group that hold columns of an n-tile of the narrow one: their shapes differ. -/
def PassDesc.wideTiles (w d : PassDesc) (tile : Nat) : List Nat :=
  let lo := tile * d.shape.nc
  let hi := lo + d.tileCols tile
  (List.range w.tiles).filter (fun j => decide (j * w.shape.nc < hi) && decide (lo < (j + 1) * w.shape.nc))

/-- An entry as an FP32 readout gives it; a sum past the window is not finite. -/
def CIn.wide : CIn → Val
  | .val v => fp32Val (fp32Round v)
  | .past n => .inf n

/-! ### A master copy that no format of the array pairs with -/

/-- A stationary element in the master copy. Log 113 (DEDUCED). -/
def Module.masterElem (m : Module) (d : PassDesc) (t : Tensor) (s : Pass) (x : Cell) : Elem :=
  let q := t.at (d.cellCol s x) (d.cellPos s x)
  m.elem d.die t (if t.scaled then .block else .all 0xFF) q.1 q.2

/-- A term of an operation of Table 5-8, exactly. -/
def exactTerm (op : Nat) (a b : Val) : Val :=
  match op with
  | 0 => a.mul b
  | 1 => (a.add b.negate).abs
  | 2 => (a.add b.negate).mul (a.add b.negate)
  | 3 => a.add b
  | 4 => a.add b
  | _ => Val.ofInt (b2n (a.eqv b))

/-- The terms of an output in one pass, with the stationary operand from its master copy; masked elements add nothing (R42). -/
def Module.masterTerms (m : Module) (d : PassDesc) (t : Tensor) (p row nn : Nat) (s : Pass) : List Val :=
  if !m.marked d p s.tile s.chunk then []
  else
    let a := (m.aRow d p row s.chunk).1
    ((List.range (d.probRows + d.spare)).map (fun i =>
      let x : Cell := ⟨p, nn, i⟩
      let e := m.statAt d s x
      let b := m.masterElem d t s x
      if !e.live || b.masked then []
      else match a.at e.k with
        | none => []
        | some y =>
          if y.masked then []
          else exactTerm d.op (elemVal d.ta.fmt y) (elemVal t.fmt b)
            :: (a.side.filter (fun z => z.1 == e.k)).map (fun z => (elemVal 0x09 ⟨z.2, false, y.scale⟩).mul (elemVal t.fmt b)))).flatten

/-- The terms combined as Table 5-8 says. -/
def combineTerms (op : Nat) (l : List Val) : Val :=
  match op with
  | 3 => l.foldl (fun x y => if x.isNan || y.isNan then .nan else if x.lt y then y else x) (Val.ofInt (-(2 ^ 95 : Nat)))
  | 4 => l.foldl (fun x y => if x.isNan || y.isNan then .nan else if y.lt x then y else x) (Val.ofInt ((2 ^ 95 : Nat) - 1))
  | _ => l.foldl Val.add Val.zero

/-- The exact sum of an output, rounded to FP32 once. Log 113 (DEDUCED). -/
def Module.exactOut (m : Module) (d : PassDesc) (t : Tensor) (tile p row nn : Nat) : Val :=
  fp32Val (fp32Round (combineTerms d.op
    (((m.tilePasses d tile).filter (fun s => !s.skip)).map (m.masterTerms d t p row nn)).flatten))

/-- What forming these sums reads: each row of A, and the tile's places of the master copy, once for each pass. -/
def Module.exactSeen (m : Module) (d : PassDesc) (t : Tensor) (tile : Nat) : Seen :=
  ((m.tilePasses d tile).filter (fun s => !s.skip)).foldl (fun z s =>
    (List.range d.problems).foldl (fun z p =>
      let cells := ((List.range (d.tileCols tile)).map (fun nn => (List.range (d.probRows + d.spare)).map (fun i =>
        (⟨p, nn, i⟩ : Cell)))).flatten
      let at' := (cells.filter (m.holds d s)).map (fun x => t.at (d.cellCol s x) (d.cellPos s x))
      (List.range d.m).foldl (fun z row => z.add (m.aRow d p row s.chunk).2.1)
        (z.add (m.seenAt d.die t (if t.scaled then .block else .all 0xFF) at'))) z) Seen.none

/-! ### The re-run -/

/-- What a re-run gives: its outputs by problem, row and column of the tile, what it raises, and its beats. -/
structure WideRun where
  out : Nat → Nat → Nat → Val
  ev : List Nat
  seen : Seen
  bank : Tab Nat AccEntry
  beats : Nat
  saved : Nat

/-- The tile run again with the stationary operand from its master copy: by the array, where the formats pair; else exactly. Log 113 (DEDUCED). -/
def Module.wideRun (m : Module) (g : GroupRun) (d : PassDesc) (t : Tensor) (tile : Nat) : WideRun :=
  let w := d.wideOf t
  if (shapeOf w.fa w.fb w.sparse w.h w.w).isSome then
    let runs := (w.wideTiles d tile).map (fun j => (j, m.runTile g w j))
    { out := fun p row nn =>
        let col := tile * d.shape.nc + nn
        match runs.find? (fun r => r.1 == col / w.shape.nc) with
        | some r => (entryIn w (Tab.get (accClear w.op) r.2.bank (bankKey p row (col % w.shape.nc)))).wide
        | none => Val.zero
      ev := (runs.map (fun r => r.2.ev)).flatten
      seen := runs.foldl (fun z r => z.add r.2.seen) Seen.none
      bank := match runs.getLast? with | some r => r.2.bank | none => []
      beats := (runs.map (fun r => r.2.beats)).foldl (· + ·) 0
      saved := (runs.map (fun r => r.2.saved)).foldl (· + ·) 0 }
  else
    { out := m.exactOut d t tile, ev := [], seen := m.exactSeen d t tile, bank := (m.ctl.arr d.die d.phys).bank, beats := 0, saved := 0 }

/-- The output scale of an element as the tile wrote it. -/
def PassDesc.outScale (d : PassDesc) : ScaleOf :=
  if d.cvt.scaleSrc = 1 then .all d.cvt.oscale else if d.tc.scaled && decide (2 ≤ d.cvt.scaleSrc) then .block else .all 0xFF

/-- The places of the side record of an output. -/
def sidePlaces (o n : Nat) : List (Nat × Nat) := (List.range 8).map (fun i => (o, 8 * (n / 32) + i))

/-- Is it on a poisoned line? Then it is ignored (Table 11-5). -/
def Module.sideBad (m : Module) (d : PassDesc) (o n : Nat) : Bool := (sidePlaces o n).any (fun q => m.ctl.elemBad d.tsout q.1 q.2)

/-- The side-lane value of an output, where its block has one for it. -/
def Module.sideOut (m : Module) (d : PassDesc) (o n : Nat) : Option Nat :=
  if !d.outx || m.sideBad d o n then none
  else
    let v := unle ((sidePlaces o n).map (fun q => m.elemCode d.die d.tsout q.1 q.2))
    ((List.range (v % 8)).find? (fun e => bitsOf v (8 + 5 * e) 5 == n % 32)).map (fun e => bitsOf v (32 + 8 * e) 8)

/-- What the tile wrote, decoded. -/
def Module.narrowOut (m : Module) (d : PassDesc) (o n : Nat) : Val :=
  let q := d.tc.at o n
  let e := m.elem d.die d.tc d.outScale q.1 q.2
  match m.sideOut d o n with
  | some c => elemVal 0x09 { e with code := c }
  | none => if d.tc.fmt = 0x0B then (match logOf e.code e.scale with | .zero => Val.zero | .val s l => fp32OfLog s l) else elemVal d.tc.fmt e

/-- What reading a tile's outputs back raises. -/
def Module.narrowSeen (m : Module) (d : PassDesc) (at' : List (Nat × Nat)) : Seen × List Nat :=
  let s := m.seenAt d.die d.tc d.outScale (at'.map (fun x => d.tc.at x.1 x.2))
  if !d.outx then (s, [])
  else
    let blocks := (at'.map (fun x => (x.1, x.2 / 32))).eraseDups
    (s.add (m.seenAt d.die d.tsout (.all 0xFF) (blocks.map (fun b => sidePlaces b.1 (32 * b.2))).flatten),
     (blocks.filter (fun b => m.sideBad d b.1 (32 * b.2))).map (fun _ => 12))

/-- E of R175, in units of 2^-64: both sums as R156 forms them. -/
def disagreement (l : List (Val × Val)) : Nat :=
  let l := l.filter (fun p => p.1.isFin && p.2.isFin)
  let num := (l.map (fun p => p.1.add p.2.negate)).foldl sumAdd 0
  let den := (l.map (·.2)).foldl sumAdd 0
  if den = 0 then (if num = 0 then 0 else 2 ^ 64) else min sumTop (num * 2 ^ 64 / den)

/-- The group as it last ran an n-tile: as the last attempt ran it (R176), else as decoded. -/
def GroupRun.ranAs (g : GroupRun) (x : Desc) (tile : Nat) : PassDesc :=
  match g.last.find? (fun p => p.1 == tile), x.work with
  | some p, _ => p.2
  | none, .pass d => d
  | none, _ => g.d

/-- What a re-run leaves in the array and its counters. What it reads and raises is counted there (R535) and merged nowhere (R175). -/
def Ctl.wideTally (c : Ctl) (die p : Nat) (d : PassDesc) (t : Tensor) (r : WideRun) (sn : Seen × List Nat) : Ctl :=
  let ev := r.ev ++ sn.2
  let c := ((c.saw die p (r.seen.add sn.1)).countAll die p ev).maCount die p ev
  let c := (c.add Fld.ma_BEAT_BEATS r.beats (maInst die p)).add Fld.ma_ZSKIP_SKIPPED r.saved (maInst die p)
  if r.beats = 0 then c else (c.onArr die p (fun a => { a with bank := r.bank })).setFrame (d.wideOf t)

/-- The comparison of an n-tile, once its grant has come. E is kept by `P_AG_MAX` as the FP32 value nearest to it. Log 113 (DEDUCED). -/
def Module.compare (m : Module) (die p q seq : Nat) (x : Desc) (g : GroupRun) (t : Tensor) (tile : Nat) : Module :=
  let d := g.ranAs x tile
  let w := m.wideRun g d t tile
  let places := ((List.range d.problems).map (fun pr => ((List.range d.m).map (fun row => (List.range (d.tileCols tile)).map (fun nn =>
    (pr, row, nn)))).flatten)).flatten
  let at' (y : Nat × Nat × Nat) : Nat × Nat := (d.m0 + y.1 * d.m + y.2.1, d.n0 + tile * d.shape.nc + y.2.2)
  let e := disagreement (places.map (fun y => (m.narrowOut d (at' y).1 (at' y).2, w.out y.1 y.2.1 y.2.2)))
  m.onCtl (fun c =>
    let c := (c.hpFree (.attempt die q seq)).wideTally die p d t w (m.narrowSeen d (places.map at'))
    let c := c.wideMerge die g.epoch d.layer { WideStat.reset with agTiles := 1, agSum := e, agMax := sumField e }
    (c.setGrp die p true { g with compared := g.compared ++ [tile] }).onDesc die q seq
      (fun x => { x with recomp := some { (x.recompOf g) with granted := false } }))

/-- SAMPLED_AGREE_COMPARE: after a group's last recompute attempt; it asks for its grant, then compares. Log 113 (DEDUCED). -/
def Module.sampled (m : Module) (die p q seq : Nat) (x : Desc) (g : GroupRun) (tile : Nat) : Module :=
  let r := x.recompOf g
  let t := (m.ctl.die die).tens g.d.tb.master
  if r.granted then m.compare die p q seq x g t tile
  else m.onCtl (fun c =>
    (c.onDesc die q seq (fun y => { y with recomp := some r })).askAttempt die q seq x.raw (g.d.wideOf t)
      (m.beatsOf (g.d.wideOf t) ((g.d.wideOf t).wideTiles g.d tile)))

def execSampledAgreeCompare (die queue seq tile : Nat) (s : State) : Host.Outcome State Fault Refusal :=
  let c := s.m.ctl
  match c.dieUp die, c.desc die queue seq, c.groupOf die queue seq with
  | true, some x, some (p, g) =>
    if g.done && (x.recompOf g).tiles.isEmpty && (c.toCompare g).contains tile then .next (s.onM (·.sampled die p queue seq x g tile))
    else .next s
  | _, _, _ => .next s

end Sys2Proof.Machine
end

