-- ==== Sys2Proof/Machine/Plan.lean ====
section
/-! DEFINITION. Precision plans: statistics of committed steps, proposals, their agreement, plan switches, WIDE_HOLD, the
calibration of the fixed plan (R165, R166, R173, R177 to R185, R234, R279). -/

namespace Sys2Proof.Machine

/-! ## Statistics over the dies of the module -/

/-- Layers of the longest Lesson. -/
def Ctl.planLayers (c : Ctl) : Nat := (List.range 8).foldl (fun n d => max n (c.rd Fld.ln_LN_LAYERS_COUNT d)) 0

/-- The entry of a steered layer: that of the lowest die whose entry is steered. -/
def Ctl.steeredEntry (c : Ctl) (layer : Nat) : Option Plan :=
  ((List.range 8).map (fun d => (c.die d).planOf layer)).find? (·.steered)

/-- The steered layers. -/
def Ctl.steeredLayers (c : Ctl) : List Nat := (List.range c.planLayers).filter (fun l => (c.steeredEntry l).isSome)

/-- The committed records of a layer. -/
def Ctl.records (c : Ctl) (layer : Nat) : List LayerRec := (List.range 8).map (fun d => Tab.get LayerRec.reset (c.die d).layers layer)

/-- A committed role block over the dies: counts summed, maxima combined (R165, R178). -/
def Ctl.roleComm (c : Ctl) (layer role : Nat) : RoleStat :=
  ((c.records layer).map (fun r => r.comm.getD (role - 1) RoleStat.reset)).foldl
    (fun a b => ⟨max a.amax b.amax, a.ovf + b.ovf, a.unf + b.unf, List.zipWith (· + ·) a.hist b.hist⟩) RoleStat.reset

def Ctl.runMax (c : Ctl) (layer role : Nat) : Nat := ((c.records layer).map (fun r => r.runmax.getD (role - 1) 0)).foldl max 0

/-- The layer-wide committed fields over the dies: the exact 128-bit registers, which ρ (R176) and the mean of R178 are formed from, and
not the FP32 values they read as. Log 195 (DESIGN CHOICE). -/
def Ctl.wideComm (c : Ctl) (layer : Nat) : WideStat :=
  ((c.records layer).map (·.cWide)).foldl
    (fun a b => ⟨a.agTiles + b.agTiles, a.agSum + b.agSum, max a.agMax b.agMax, a.dwSq + b.dwSq, a.wSq + b.wSq⟩) WideStat.reset

/-! ## The ladder (Table 6-3) -/

def rankM (k : Nat) : Nat := [1, 2, 3, 7].getD k 7
def rankR (k : Nat) : Nat := [4, 9, 18].getD k 0
def rankFmt (k : Nat) : Nat := ladder.getD k 0x0C

/-- LOST(k) as (part, whole): 0 at rank 3 and for an empty histogram. -/
def lostOf (h : List Nat) (k : Nat) : Nat × Nat :=
  let all := h.foldl (· + ·) 0
  if k ≥ 3 ∨ all = 0 then (0, 1) else ((h.drop (min (rankR k - 1) 15)).foldl (· + ·) 0, all)

/-- LOST(k) ≤ 2^−T, and LOST(k) > 4 × 2^−T. -/
def lostLow (h : List Nat) (k t : Nat) : Bool := decide ((lostOf h k).1 * 2 ^ t ≤ (lostOf h k).2)
def lostHigh (h : List Nat) (k t : Nat) : Bool := decide (4 * (lostOf h k).2 < (lostOf h k).1 * 2 ^ t)

/-- R165: the S8 code of a role whose target rank is below 3. -/
def planScale (runmax fmt headroom old : Nat) : Nat :=
  if runmax = 0 then old
  else match fp32Val runmax, (Fmt.ofCode fmt).bind Fmt.float with
    | .fin _ m, some f =>
      8 * (((List.range 30).map (· + 1)).find? (fun (e : Nat) =>
        decide ((m.mul (Mag.ofNat (2 ^ headroom))).le (f.maxMag.mul (Mag.dyadic 1 ((e : Int) - 15)))))).getD 30
    | _, _ => 240

/-! ## R173: what a step leaves of the plan -/

/-- The roles of a die that fell back: layer, role, the format used. -/
def DieSt.fellRoles (x : DieSt) : List (Nat × Nat × Nat) :=
  (x.plan.map (fun (p : Nat × Plan) => ([1, 2, 3].filter (fun r => p.2.fellBack.getD (r - 1) false)).map (fun r => (p.1, r, p.2.fmt.getD (r - 1) 0)))).flatten

/-- The wider of two formats of a role. -/
def widerFmt (a b : Nat) : Nat :=
  match rankOf a, rankOf b with
  | some x, some y => if x < y then b else a
  | none, _ => if a < b then b else a
  | _, none => b

/-- One entry a role, with the widest format of the dies. -/
def mergeFell (l : List (Nat × Nat × Nat)) : List (Nat × Nat × Nat) :=
  l.foldl (fun acc x =>
    if acc.any (fun y => y.1 == x.1 && y.2.1 == x.2.1) then
      acc.map (fun y => if y.1 == x.1 && y.2.1 == x.2.1 then (y.1, y.2.1, widerFmt y.2.2 x.2.2) else y)
    else acc ++ [x]) []

/-- Step 1 of R283: `FELL_BACK` is read, every entry returns to the plan of the step; FALLBACK and RECOMPUTE_EXHAUSTED (R188). What the
proposals read of the roles that fell back is the committed step's (R178). -/
def Ctl.returnPlans (c : Ctl) (committed : Bool) : Ctl :=
  let fell := mergeFell ((List.range 8).map (fun d => (c.die d).fellRoles)).flatten
  let layers := (fell.map (·.1)).foldl addNew []
  let ex := c.job.exhausted
  let c := c.each (List.range 8) (fun c d => c.onDie d (fun x => { x with plan := x.planStep }))
  let c := { c with job := { c.job with
    fell := if committed then fell else c.job.fell
    fallbacks := 0
    exhausted := 0 } }
  let c := if layers.isEmpty then c else c.post 0x0101 2 dieHD 0xFF (le 4 layers.length)
  if ex = 0 then c else c.post 0x0102 2 dieHD 0xFF (le 4 ex)

/-! ## After a commit -/

/-- Did every copy of a layer's templates in the step have no rows (R234)? -/
def Ctl.idleLayer (c : Ctl) (layer : Nat) : Bool :=
  let l := ((List.range 8).map (fun d => (c.die d).copies)).flatten
  l.contains (layer, false) && !l.contains (layer, true)

/-- What the dies remember of a role in the step: the largest raise, and whether XOVF or ACC_SAT was raised. -/
def Ctl.trackOf (c : Ctl) (layer role : Nat) : Nat × Bool :=
  ((List.range 8).map (fun d => Tab.get RoleTrack.reset (c.die d).track (layer, role))).foldl
    (fun a t => (max a.1 t.raise, a.2 || t.high)) (0, false)

/-- R166: the raise of the committed step, and the calm steps in a row; after `XBASE_RELAX` of them the base is due to fall, and stays so
until a plan update has taken it. -/
def Ctl.noteRole (c : Ctl) (x : Nat × Nat) : Ctl :=
  let t := c.trackOf x.1 x.2
  let calm := if !t.2 && (c.roleComm x.1 x.2).unf != 0 then Tab.get 0 c.job.calm x + 1 else 0
  let due := decide (0 < calm) && decide (c.policy 2 ≤ calm)
  { c with job := { c.job with
    raise := c.job.raise.set x t.1
    calm := c.job.calm.set x (if due then 0 else calm)
    fallDue := if due && !c.job.fallDue.contains x then c.job.fallDue ++ [x] else c.job.fallDue } }

/-- The mantissa width of a layer's master weights (R177). Log 117 (DEDUCED). -/
def DieSt.masterWidth (x : DieSt) (layer : Nat) : Option Nat :=
  match x.lesson with
  | none => none
  | some l =>
    let ts := l.tensors.zipIdx.map (fun p => tensorOf p.2 p.1)
    match ts.find? (fun t => t.wlayer == layer && t.wrole == 3 && t.masterEn) with
    | none => none
    | some t => match (ts.getD t.master Tensor.none).decl with
      | 0x0C => some 7
      | 0x0D => some 10
      | 0x0E => some 23
      | _ => none

def Ctl.masterWidth (c : Ctl) (layer : Nat) : Option Nat := (List.range 8).findSome? (fun d => (c.die d).masterWidth layer)

/-- ρ < 2^−a and ρ > 2^−b, ρ² = Σ(Δw)² / Σw². -/
def ratioLow (w : WideStat) (a : Nat) : Bool := (w.dwSq == 0 && w.wSq == 0) || decide (w.dwSq * 2 ^ (2 * a) < w.wSq)
def ratioHigh (w : WideStat) (b : Nat) : Bool := decide (w.wSq < w.dwSq * 2 ^ (2 * b))

/-- One layer's step in the window of UPDATE_RATIO. -/
def Ctl.noteRatio (c : Ctl) (layer : Nat) : Ctl :=
  match c.masterWidth layer with
  | none => c
  | some mw =>
    let w := c.wideComm layer
    { c with job := { c.job with
      urLow := c.job.urLow.set layer (Tab.get true c.job.urLow layer && ratioLow w (mw + c.policy 14))
      urHigh := c.job.urHigh.set layer (Tab.get false c.job.urHigh layer || ratioHigh w (c.policy 15)) } }

/-- The end of a window: the moves of `LR_EXP`, beside those that no plan update has taken yet. -/
def Ctl.endWindow (c : Ctl) (layers : List Nat) : Ctl :=
  if c.job.urCount < c.policy 13 then c
  else
    let move (l : Nat) : Int := if Tab.get false c.job.urHigh l then -1 else if Tab.get false c.job.urLow l then 1 else 0
    { c with job := { c.job with
      lrMove := layers.map (fun l => (l, Tab.get 0 c.job.lrMove l + move l))
      urLow := []
      urHigh := []
      urCount := 0 } }

/-- R177. -/
def Ctl.updateRatio (c : Ctl) : Ctl :=
  if c.adaptive && bit (c.policy 4) 1 then
    let ls := c.steeredLayers
    let c := c.each ls Ctl.noteRatio
    ({ c with job := { c.job with urCount := c.job.urCount + 1 } }).endWindow ls
  else c

/-- R184: a calibration step's histograms, raises and maxima are added up. -/
def Ctl.calibrateRole (c : Ctl) (x : Nat × Nat) : Ctl :=
  let s := c.roleComm x.1 x.2
  let h := Tab.get (List.replicate 16 0) c.job.calHist x
  { c with job := { c.job with
    calHist := c.job.calHist.set x (List.zipWith (· + ·) h s.hist)
    calRaise := c.job.calRaise.set x (max (Tab.get 0 c.job.calRaise x) (Tab.get 0 c.job.raise x))
    calMax := if x.2 = 1 then c.job.calMax.set x.1 (max (Tab.get 0 c.job.calMax x.1) s.amax) else c.job.calMax } }

def Ctl.rolesOf (c : Ctl) : List (Nat × Nat) := (c.steeredLayers.map (fun l => [(l, 1), (l, 2), (l, 3)])).flatten

def Ctl.calibrate (c : Ctl) : Ctl :=
  if c.adaptive || c.job.fixedAgreed || decide (c.policy 10 ≤ c.job.calDone) then c
  else
    let c := c.each c.rolesOf Ctl.calibrateRole
    let last := decide (c.policy 10 ≤ c.job.calDone + 1)
    { c with job := { c.job with
      calDone := c.job.calDone + 1
      calRunmax := if last then c.rolesOf.map (fun x => (x, c.runMax x.1 x.2)) else c.job.calRunmax
      propDue := last } }

/-- After a commit: statistics are taken, and under ADAPTIVE a proposal is due (R178). -/
def Ctl.planCommit (c : Ctl) : Ctl :=
  let c := ((c.each c.rolesOf Ctl.noteRole).updateRatio).calibrate
  let c := { c with job := { c.job with
    idle := c.steeredLayers.filter c.idleLayer
    runCounted := false } }
  if c.adaptive then { c with job := { c.job with propDue := true } } else c

/-! ## One replica's proposal (R165, R166, R177, R178, R184, R185) -/

/-- What a role's rules decide: the format, and the clean steps. -/
structure RoleMove where
  fmt : Nat
  run : Nat
deriving DecidableEq, Repr

/-- Did a role fall back, and to which format? Log 115 (DEDUCED). -/
def Ctl.fellTo (c : Ctl) (layer role : Nat) : Option Nat := (c.job.fell.find? (fun x => x.1 == layer && x.2.1 == role)).map (·.2.2)

/-- R178, R183: the format that is proposed for a role that widens: one step wider, or the format it fell back to where that is wider, for
the layers of a mass fallback are planned at the widest format used. Log 115 (DEDUCED). -/
def Ctl.widenTo (c : Ctl) (layer role up : Nat) : Nat :=
  match c.fellTo layer role with
  | some f => widerFmt up f
  | none => up

/-- The clean steps of a role with the committed step, which is counted once (R178); an idle layer's stay (R234). Log 171 (DEDUCED). -/
def Ctl.nextRun (c : Ctl) (layer role : Nat) (clean : Bool) : Nat :=
  let run := Tab.get 0 c.job.narrow (layer, role)
  if c.job.runCounted || c.job.idle.contains layer then run else if clean then min 65535 (run + 1) else 0

/-- R178 for a ladder role at rank `k`. -/
def Ctl.moveRank (c : Ctl) (p : Plan) (layer role k : Nat) : RoleMove :=
  let s := c.roleComm layer role
  let w := c.wideComm layer
  let t := c.policy 7
  let hi := p.ceil.getD (role - 1) 0
  let lo := p.floor.getD (role - 1) 0
  let tolE := rankM k + c.policy 6
  let agHigh := bit (c.policy 4) 0 && (match fp32Val w.agMax with | .fin _ m => (Mag.dyadic 1 (-(tolE : Int))).lt m | _ => true)
  let widen := (c.fellTo layer role).isSome || lostHigh s.hist k t || agHigh || (c.job.alarmLayers.contains layer && role != 3)
  if widen then ⟨if k < hi then c.widenTo layer role (rankFmt (k + 1)) else rankFmt k, 0⟩
  else
    let agOk := w.agTiles == 0 || decide (w.agSum * 2 ^ (tolE + 2) ≤ w.agTiles * 2 ^ 64)
    let clean := (k == 0 || lostLow s.hist (k - 1) t) && agOk && !p.hold
    let run := c.nextRun layer role clean
    ⟨if c.policy 8 ≤ run ∧ lo < k ∧ p.hold = false then rankFmt (k - 1) else rankFmt k, run⟩

/-- R178 for a serial role at a width. -/
def Ctl.moveSerial (c : Ctl) (p : Plan) (layer fmt : Nat) : RoleMove :=
  let s := c.roleComm layer 1
  let b := fmt - 0x2F
  if (c.fellTo layer 1).isSome || decide (0 < s.ovf) || c.job.alarmLayers.contains layer then
    ⟨if fmt + 2 ≤ p.ceilFmt 1 then c.widenTo layer 1 (fmt + 2) else fmt, 0⟩
  else
    let small := match fp32Val s.amax with | .fin _ m => m.le (Mag.ofNat (2 ^ (b - 3) - 1)) | _ => false
    let run := c.nextRun layer 1 (small && !p.hold)
    ⟨if c.policy 8 ≤ run ∧ p.floorFmt 1 + 2 ≤ fmt ∧ p.hold = false then fmt - 2 else fmt, run⟩

/-- A role's format in the proposal; a format off its ladder goes to the ceiling. -/
def Ctl.moveRole (c : Ctl) (p : Plan) (layer role : Nat) : RoleMove :=
  let fmt := p.fmt.getD (role - 1) 0
  if p.isSerial role then
    (if 0x33 ≤ fmt ∧ fmt ≤ 0x3F ∧ (fmt - 0x33) % 2 = 0 then c.moveSerial p layer fmt else ⟨p.ceilFmt 1, 0⟩)
  else match rankOf fmt with
    | some k => c.moveRank p layer role k
    | none => ⟨p.ceilFmt role, 0⟩

def clampX (x : Int) : Int := max (-128) (min 127 x)

/-- R166. -/
def Ctl.moveBase (c : Ctl) (p : Plan) (layer role : Nat) : Int :=
  let x := p.xbase.getD (role - 1) 0 + Tab.get 0 c.job.raise (layer, role)
  clampX (if c.job.fallDue.contains (layer, role) then x - 1 else x)

/-- The scale a role proposes at a format, for a running maximum; under FIXED that after the last calibration commit (R165, R184).
Log 117 (DEDUCED). -/
def Ctl.moveScale (c : Ctl) (p : Plan) (layer role fmt : Nat) : Nat :=
  let old := p.scale.getD (role - 1) 0
  let top := if c.adaptive then c.runMax layer role else Tab.get 0 c.job.calRunmax (layer, role)
  match rankOf fmt with
  | some k => if k < 3 && !p.isSerial role then planScale top fmt (c.policy 1) old else old
  | none => old

/-- R177: a move up stops at `LR_MAX`, one down at `LR_MIN`; without a move `LR_EXP` stands. Log 117 (DEDUCED). -/
def Ctl.moveLr (c : Ctl) (p : Plan) (layer : Nat) : Int :=
  let k := Tab.get 0 c.job.lrMove layer
  if 0 < k then max p.lrExp (min (c.policy 17) (p.lrExp + k))
  else if k < 0 then min p.lrExp (max (sext 32 (c.policy 16)) (p.lrExp + k))
  else p.lrExp

/-- The widest format that R178 alone can give a role: one rank, or two bits, wider than the plan in force; a format off the ladder goes to
the ceiling. -/
def Plan.upTo (p : Plan) (role fmt : Nat) : Nat :=
  let now := p.fmt.getD (role - 1) 0
  if p.isSerial role then (if 0x33 ≤ now ∧ now ≤ 0x3F ∧ (now - 0x33) % 2 = 0 then min fmt (now + 2) else fmt)
  else match rankOf now, rankOf fmt with
    | some k, some j => rankFmt (min j (k + 1))
    | _, _ => fmt

/-- Do this replica's own fallbacks mark more than half of its steered layers (R183)? -/
def Ctl.ownMass (c : Ctl) : Bool :=
  decide (c.steeredLayers.length < 2 * (c.steeredLayers.filter (fun l => c.job.fell.any (fun x => x.1 == l))).length)

/-- The format that a proposal's scale is for (R165): the target of R178, or in a mass fallback the widest used. Log 115 (DEDUCED). -/
def Ctl.scaleFmt (c : Ctl) (p : Plan) (role fmt : Nat) : Nat := if c.ownMass && c.policy 9 != 0 then fmt else p.upTo role fmt

/-- An entry under ADAPTIVE. -/
def Ctl.proposeLayer (c : Ctl) (p : Plan) (layer : Nat) : PlanProp :=
  let fmts := [1, 2, 3].map (fun r => (c.moveRole p layer r).fmt)
  { fmt := fmts
    fell := c.job.fell.any (fun x => x.1 == layer)
    scale := [1, 2, 3].map (fun r => c.moveScale p layer r (c.scaleFmt p r (fmts.getD (r - 1) 0)))
    xbase := [1, 2, 3].map (c.moveBase p layer)
    lrExp := if bit (c.policy 4) 1 then c.moveLr p layer else p.lrExp }

/-- R184: a role's format after calibration; a ladder role takes its ceiling where no rank qualifies, as the rule has a serial one do.
Log 196 (DESIGN CHOICE). -/
def Ctl.fixedFmt (c : Ctl) (p : Plan) (layer role : Nat) : Nat :=
  let g := c.policy 11
  if p.isSerial role then
    let top := p.ceilFmt 1
    let fits (f : Nat) : Bool := match fp32Val (Tab.get 0 c.job.calMax layer) with
      | .fin _ m => m.le (Mag.ofNat (2 ^ (f - 0x2F - 1) - 1))
      | _ => false
    let f := (((List.range 7).map (fun i => p.floorFmt 1 + 2 * i)).find? (fun f => decide (f ≤ top) && fits f)).getD top
    min (f + 2 * g) (max top f)
  else
    let lo := p.floor.getD (role - 1) 0
    let hi := p.ceil.getD (role - 1) 0
    let h := Tab.get (List.replicate 16 0) c.job.calHist (layer, role)
    let k := (([0, 1, 2, 3].filter (fun k => decide (lo ≤ k) && decide (k ≤ hi))).find? (fun k => lostLow h k (c.policy 7))).getD hi
    rankFmt (min (k + g) (max hi k))

/-- An entry under FIXED. -/
def Ctl.proposeFixed (c : Ctl) (p : Plan) (layer : Nat) : PlanProp :=
  let fmts := [1, 2, 3].map (c.fixedFmt p layer)
  { fmt := fmts
    fell := false
    scale := [1, 2, 3].map (fun r => c.moveScale p layer r (fmts.getD (r - 1) 0))
    xbase := [1, 2, 3].map (fun r => clampX (p.xbase.getD (r - 1) 0 + Tab.get 0 c.job.calRaise (layer, r)))
    lrExp := 0 }

def PlanProp.empty : PlanProp := ⟨[0, 0, 0], false, [0, 0, 0], [0, 0, 0], 0⟩

/-- The entries of the module's proposal, one a layer. -/
def Ctl.propose (c : Ctl) : List PlanProp :=
  (List.range c.planLayers).map (fun l => match c.steeredEntry l with
    | none => PlanProp.empty
    | some p => if c.adaptive then c.proposeLayer p l else c.proposeFixed p l)

/-- Table 6-6: an entry. -/
def PlanProp.bytes (e : PlanProp) : List Nat :=
  padTo 16 (e.fmt.map (· % 256) ++ [b2n e.fell] ++ e.scale.map (· % 256) ++ [0] ++ e.xbase.map (tcode 8) ++ [tcode 8 e.lrExp])

def propOf (b : List Nat) : PlanProp :=
  ⟨b.take 3, bit (b.getD 3 0) 0, (b.drop 4).take 3, ((b.drop 8).take 3).map (sext 8), sext 8 (b.getD 11 0)⟩

def propBytes (l : List PlanProp) : List Nat := (l.map PlanProp.bytes).flatten

/-- The message. -/
def Ctl.propMessage (c : Ctl) (rank : Nat) (l : List PlanProp) : List Nat :=
  padTo 32 (le 8 (c.job.step - 1) ++ le 4 c.job.planSeq ++ le 2 l.length ++ le 2 rank ++ le 4 (crc32c (propBytes l))) ++ propBytes l

/-- The data-parallel group of this module. -/
def Ctl.dpGroup (c : Ctl) : Option GroupEnt := c.job.roll.groups.find? (fun g => g.kind == 1 && g.member)

/-! ## Agreement (R180 to R182) -/

/-- R181. -/
def PlanProp.meet (a b : PlanProp) : PlanProp :=
  { fmt := List.zipWith widerFmt a.fmt b.fmt
    fell := a.fell || b.fell
    scale := List.zipWith max a.scale b.scale
    xbase := List.zipWith max a.xbase b.xbase
    lrExp := min a.lrExp b.lrExp }

def combine : List (List PlanProp) → List PlanProp
  | [] => []
  | x :: t => t.foldl (List.zipWith PlanProp.meet) x

/-- The layers that a combined plan marks. -/
def Ctl.markedLayers (c : Ctl) (l : List PlanProp) : List Nat := c.steeredLayers.filter (fun i => (l.getD i PlanProp.empty).fell)

/-- Is it a mass fallback (R183)? -/
def Ctl.massOf (c : Ctl) (l : List PlanProp) : Bool := c.adaptive && decide (c.steeredLayers.length < 2 * (c.markedLayers l).length)

/-- The formats of a combined plan: with a hold that begins, no layer narrows (R183); else every role that falls back goes one step wider
only. Log 115 (DEDUCED). -/
def Ctl.settleFmts (c : Ctl) (l : List PlanProp) : List PlanProp :=
  if !c.adaptive then l
  else
    let hold := c.massOf l && c.policy 9 != 0
    l.zipIdx.map (fun e => match c.steeredEntry e.2 with
      | some p => { e.1 with fmt := [1, 2, 3].map (fun r =>
          let f := e.1.fmt.getD (r - 1) 0
          if hold then widerFmt (p.fmt.getD (r - 1) 0) f else p.upTo r f) }
      | none => e.1)

/-- The combined plan exists once every replica has been heard. Log 116 (DEDUCED). -/
def Ctl.tryPlan (c : Ctl) : Ctl :=
  let n := match c.dpGroup with | some g => g.members.length | none => 1
  if c.job.propRound && decide (n ≤ c.job.heard.length) then
    { c with job := { c.job with combined := some (c.settleFmts (combine (c.job.proposals.map (·.2)))) } }
  else c

/-- One piece of a long message a frame (Table 12-5). Log 116 (DEDUCED). -/
def chop4096 : Nat → List Nat → List (List Nat)
  | 0, _ => []
  | n + 1, l => if l.isEmpty then [] else l.take 4096 :: chop4096 n (l.drop 4096)

/-- A message to every other member of a group, in FW frames on TC1. Log 79 (DEDUCED). -/
def Ctl.sendFw (c : Ctl) (g : GroupEnt) (b : List Nat) : Ctl :=
  c.each (g.members.filter (fun (p : Nat × Nat) => p.1 != c.coord)) (fun c p =>
    c.each (chop4096 16 b) (fun c x => c.sendFrame 1 3 0 p.1 g.id x))

/-- R181: a proposal is taken, or excluded. Log 116 (DEDUCED). -/
def Ctl.takeProposal (c : Ctl) (rank : Nat) (b : List Nat) : Ctl :=
  if c.job.heard.contains rank then c
  else
    let n := fieldAt b 12 2
    let ok := fieldAt b 0 8 == c.job.step - 1 && fieldAt b 8 4 == c.job.planSeq && n == c.planLayers && b.length == 32 + 16 * n
      && fieldAt b 16 4 == crc32c (b.drop 32)
    let c := { c with job := { c.job with heard := c.job.heard ++ [rank] } }
    let c := if ok then { c with job := { c.job with
          proposals := c.job.proposals ++ [(rank, (List.range n).map (fun i => propOf (bytesAt b (32 + 16 * i) 16)))] } }
      else { c with job := { c.job with propDropped := c.job.propDropped + 1 } }
    c.tryPlan

/-- The state of the narrowing rules after the proposal: the committed step is counted, and what the proposal holds is noted. Log 171 (DEDUCED). -/
def Ctl.noteMoves (c : Ctl) : Ctl :=
  let roles := c.rolesOf
  let runs := roles.map (fun x => (x, match c.steeredEntry x.1 with | some p => (c.moveRole p x.1 x.2).run | none => 0))
  { c with job := { c.job with
    narrow := if c.job.runCounted then c.job.narrow else runs
    runCounted := true
    propFalls := c.job.fallDue
    propLr := c.job.lrMove
    propAlarm := c.job.alarmLayers } }

/-- A plan update has taken what its proposal held; what came up since stays due.Log 171 (DEDUCED). -/
def Ctl.movesTaken (c : Ctl) : Ctl :=
  { c with job := { c.job with
    fallDue := c.job.fallDue.filter (fun x => !c.job.propFalls.contains x)
    lrMove := (c.job.lrMove.map (fun p => (p.1, p.2 - Tab.get 0 c.job.propLr p.1))).filter (fun p => p.2 != 0)
    alarmLayers := c.job.alarmLayers.filter (fun x => !c.job.propAlarm.contains x)
    propFalls := []
    propLr := []
    propAlarm := [] } }

/-- PLAN_PROPOSAL: the proposal is formed and sent to every member of the data-parallel group. -/
def Ctl.planProposal (c : Ctl) : Ctl :=
  let l := c.propose
  let rank := match c.dpGroup with | some g => g.rank | none => 0
  let msg := c.propMessage rank l
  let c := if c.adaptive then c.noteMoves else c
  let c := { c with job := { c.job with
    propDue := false
    propRound := true
    proposals := [(rank, l)]
    heard := [rank]
    combined := none } }
  let c := match c.dpGroup with | some g => c.sendFw g msg | none => c
  let early := c.job.early
  (({ c with job := { c.job with early := [] } }).tryPlan).each early (fun c p => c.takeProposal p.1 p.2)

def execPlanProposal (s : State) : Host.Outcome State Fault Refusal :=
  if s.m.ctl.job.propDue && s.m.ctl.stage == 3 then .next (s.onM (·.onCtl (·.planProposal))) else .next s

/-- A proposal that arrives before this module's own is formed waits for it. Log 116 (DEDUCED). -/
def Ctl.proposalIn (c : Ctl) (rank : Nat) (b : List Nat) : Ctl :=
  if c.job.propRound && !c.job.propDue then c.takeProposal rank b
  else { c with job := { c.job with early := c.job.early ++ [(rank, b)] } }

def execProposalReceive (rank : Nat) (bytes : List Nat) (s : State) : Host.Outcome State Fault Refusal :=
  match s.m.ctl.dpGroup with
  | some g =>
    if s.m.ctl.stage = 3 ∧ rank < g.members.length ∧ rank ≠ g.rank then .next (s.onM (·.onCtl (·.proposalIn rank bytes))) else .next s
  | none => .next s

/-- R182: the digest of the combined plan; 0 with no round on. -/
def Ctl.planDigest (c : Ctl) : Nat := match c.job.combined with | some l => crc32c (propBytes l) | none => 0

/-! ## The switch (R182, R183, R279) -/

/-- Write a combined entry into a plan entry. -/
def Plan.take (p : Plan) (e : PlanProp) : Plan := { p with
  fmt := e.fmt
  scale := e.scale
  xbase := e.xbase
  lrExp := e.lrExp }

/-- Does a combined plan differ from a die's plan in force? -/
def DieSt.differs (x : DieSt) (l : List PlanProp) : Bool :=
  l.zipIdx.any (fun p => (x.planOf p.2).steered && (x.planOf p.2).take p.1 != x.planOf p.2)

/-- The entries that change take the new sequence number. -/
def DieSt.takePlan (x : DieSt) (l : List PlanProp) (seq : Nat) : DieSt :=
  let upd (t : Tab Nat Plan) (p : PlanProp × Nat) : Tab Nat Plan :=
    let q := x.planOf p.2
    if q.steered && q.take p.1 != q then Tab.set t p.2 { q.take p.1 with planSeq := seq } else t
  { x with plan := l.zipIdx.foldl upd x.plan }

/-- Every change of rank clears the role's clean steps (R178), whichever replica proposed it. -/
def Ctl.rankChanges (c : Ctl) (l : List PlanProp) : Ctl :=
  let moved := c.rolesOf.filter (fun x => match c.steeredEntry x.1 with
    | some p => p.fmt.getD (x.2 - 1) 0 != (l.getD x.1 PlanProp.empty).fmt.getD (x.2 - 1) 0
    | none => false)
  { c with job := { c.job with narrow := moved.foldl (fun t x => t.set x 0) c.job.narrow } }

/-- PLAN_SWITCH. -/
def Ctl.switchPlan (c : Ctl) (l : List PlanProp) : Ctl :=
  if (List.range 8).any (fun d => (c.die d).differs l) then
    let seq := (c.job.planSeq + 1) % 2 ^ 32
    let c := (c.rankChanges l).each (List.range 8) (fun c d => c.onDie d (·.takePlan l seq))
    (({ c with job := { c.job with planSeq := seq } }).planEvent 0x0104 1).post 0x0104 3 dieHD 0xFF (le 4 seq)
  else c

/-- WIDE_HOLD: entered at a mass fallback, left after `HOLD_STEPS` committed steps. Log 115 (DEDUCED). -/
def Ctl.wideHold (c : Ctl) (l : List PlanProp) (committed : Bool) : Ctl :=
  let mk := c.markedLayers l
  if c.massOf l then
    (({ c with job := { c.job with holdLeft := c.policy 9 } }).planEvent 0x0105 1).post 0x0105 1 dieHD 0xFF (le 4 mk.length ++ le 4 (c.policy 9))
  else if committed && c.job.holdLeft != 0 then
    let c := { c with job := { c.job with holdLeft := c.job.holdLeft - 1 } }
    if c.job.holdLeft = 0 then (c.planEvent 0x0106 1).post 0x0106 2 dieHD 0xFF [] else c
  else c

/-- The least of a layer's counts of clean steps. Log 115 (DEDUCED). -/
def Ctl.leastRun (c : Ctl) (layer : Nat) : Nat :=
  [1, 2, 3].foldl (fun n r => min n (Tab.get 0 c.job.narrow (layer, r))) 65535

/-- `HOLD` and `NARROW_RUN` of the entries follow; the entries are the plan of the next step. -/
def Ctl.settlePlan (c : Ctl) : Ctl :=
  let hold := c.job.holdLeft != 0
  c.each (List.range 8) (fun c d =>
    let x := c.die d
    let upd (t : Tab Nat Plan) (l : Nat) : Tab Nat Plan :=
      let p := Tab.get Plan.reset t l
      let q := { p with
        hold := hold
        narrowRun := if p.steered && c.adaptive then c.leastRun l else p.narrowRun }
      if q == p then t else Tab.set t l q
    let t := (List.range (c.rd Fld.ln_LN_LAYERS_COUNT d)).foldl upd x.plan
    c.onDie d (fun x => { x with
      plan := t
      planStep := t
      track := []
      copies := [] }))

/-- `LN_DECAY` and `LN_AGREE` take their settings. -/
def Ctl.loadShifts (c : Ctl) : Ctl :=
  c.each (List.range 8) (fun c d => (c.wr Fld.ln_LN_DECAY_SHIFT (c.policy 12) d).wr Fld.ln_LN_AGREE_SHIFT (c.policy 5) d)

/-- R187: changed policy settings come into force. Log 76 (DEDUCED). -/
def Ctl.policyInForce (c : Ctl) : Ctl :=
  if c.job.policyNext = c.job.policy then c else ({ c with job := { c.job with policy := c.job.policyNext } }).loadShifts

/-- PLAN_SPLIT: the plan in force is kept, and the proposals try again. -/
def Ctl.planSplit (c : Ctl) : Ctl :=
  (({ c with job := { c.job with propDue := true } }).planEvent 0x0103 1).post 0x0103 1 dieHD 0xFF (le 4 c.job.planSeq)

/-- The outcome of a check as the plan sees it: no verdict, a verdict whose digests differ, or one that agrees. -/
inductive Agreed where
  | silent | split | same
deriving DecidableEq, Repr

/-- Step 2 of R283: the switch where the digests agree, and the settings. A round without a verdict tries again. -/
def Ctl.planBoundary (c : Ctl) (a : Agreed) (committed : Bool) : Ctl :=
  let on := c.job.propRound
  let comb := c.job.combined
  let c := { c with job := { c.job with
    propRound := false
    combined := none
    proposals := []
    heard := [] } }
  let c := match a, comb with
    | .same, some l =>
      let c := (c.switchPlan l).wideHold l committed
      if c.adaptive then c.movesTaken else { c with job := { c.job with fixedAgreed := true } }
    | .same, none => c.wideHold [] committed
    | .split, _ => (c.wideHold [] committed).planSplit
    | .silent, _ => if on then { c with job := { c.job with propDue := true } } else c
  c.policyInForce.settlePlan

/-! ## The first plan of a job -/

/-- Is a layer a teacher's: do its tensors carry `FROZEN` (R287)?Log 172 (DEDUCED). -/
def DieSt.teacher (x : DieSt) (layer : Nat) : Bool :=
  match x.lesson with
  | some l => (l.tensors.zipIdx.map (fun p => tensorOf p.2 p.1)).any (fun t => t.frozen && t.wrole != 0 && t.wlayer == layer)
  | none => false

/-- The entries of a die at the first step; a teacher layer's is not steered (R287); a FIXED job's roles stand at their ceilings.
Log 114 (DESIGN CHOICE). Log 172 (DEDUCED). -/
def Ctl.firstEntry (c : Ctl) (d l : Nat) : Plan :=
  let p := planOfBytes (Config.initialPlan (c.lessonId d) l)
  let p := { p with steered := p.steered && !(c.die d).teacher l }
  if c.adaptive then p
  else { p with
    fixedP := true
    fmt := if p.steered then [1, 2, 3].map p.ceilFmt else p.fmt }

/-- Log 114 (DESIGN CHOICE). -/
def Ctl.firstPlan (c : Ctl) : Ctl :=
  c.each (List.range 8) (fun c d =>
    if (c.die d).lesson.isNone then c
    else
      let t := (List.range (c.rd Fld.ln_LN_LAYERS_COUNT d)).map (fun l => (l, c.firstEntry d l))
      c.onDie d (fun x => { x with
        plan := t
        planStep := t }))

end Sys2Proof.Machine
end

