-- ==== Sys2Proof/Machine/Vector.lean ====
section
/-! DEFINITION. Vector chains as they run: the elements of a row, its conversion, the steps, and the vector registers (R189 to
R193, R197, R201, R202, R207 to R210, R214, R215, Table 11-5). -/

namespace Sys2Proof.Machine

/-! ## One row -/

/-- The instance of a vector unit's status block, and the unit's number. -/
def vuInst (die v : Nat) : Nat := 16 * die + v
def vuUnit (v : Nat) : Nat := 0x60 + v

/-- Word `i` of vector register `n`. -/
def Ctl.vreg (c : Ctl) (die v n i : Nat) : Nat := c.rd Fld.vu_Vn_WORD (vuInst die v) (256 * n + i)

/-- How a chain input is scaled. Log 98 (DEDUCED). -/
def chainScale (t : Tensor) : ScaleOf := if t.scaled then .block else .all 0xFF

/-- An element as it enters a lane: its word, NAN_IN where a poisoned line enters as I32, and whether its block masks it. -/
def Module.laneIn (m : Module) (die : Nat) (t : Tensor) (r c : Nat) : LWord × List Nat × Bool :=
  let e := m.elem die t (chainScale t) r c
  if entersInt t then
    if e.poison then (.i 0, [3], false)
    else match Fmt.ofCode t.fmt with
      | some f => (match (decodeElem f e.code).1 with
        | .fin n x => (.i (if n then -((x.num / x.den : Nat) : Int) else ((x.num / x.den : Nat) : Int)), [], false)
        | _ => (.i 0, [], false))
      | none => (.i 0, [], false)
  else (.f (canon (fp32Round (elemVal t.fmt e))), [], e.masked)

/-- R197: the element of B that pairs with an element. -/
def ChainDesc.bAt (d : ChainDesc) (r c : Nat) : Nat × Nat :=
  match d.bBcast with
  | 0 => (r, c)
  | 1 => (0, c)
  | 2 => (r, 0)
  | _ => (0, 0)

/-- Does the mask tensor let an element take part? A poisoned byte masks. -/
def Module.maskOk (m : Module) (d : ChainDesc) (r c : Nat) : Bool :=
  !d.maskEn || (!m.ctl.elemBad d.tmask r (c / 8) && bit (m.elemCode d.die d.tmask r (c / 8)) (c % 8) != d.maskInv)

/-- The vector register words that a chain's stages name at row `r`. -/
def Ctl.vregWords (c : Ctl) (d : ChainDesc) (r : Nat) : List (Nat × Nat) :=
  (dedup ((d.stages.map (fun s => [s.sa, s.sb, s.sc])).flatten)).filterMap (fun sel =>
    if sel < 0x10 then none
    else if sel < 0x20 then some (sel, c.vreg d.die d.vu (sel - 0x10) 0)
    else some (sel, c.vreg d.die d.vu (sel - 0x20) (r % 256)))

/-- The stages before the row stage. -/
def ChainDesc.elemStages (d : ChainDesc) : List Stage := if d.rowStage.isSome then d.stages.dropLast else d.stages

/-- One element through a chain's stages, and the source of the row stage. Log 98 (DEDUCED). -/
def Module.lane (m : Module) (d : ChainDesc) (vr : List (Nat × Nat)) (r c : Nat) : LaneRun × LWord :=
  let a := m.laneIn d.die d.ta r c
  let b := if d.bEn then m.laneIn d.die d.tb (d.bAt r c).1 (d.bAt r c).2 else (.f 0, [], false)
  let part := m.maskOk d r c && !a.2.2 && !b.2.2
  let x : LaneCtx := ⟨a.1, b.1, r, c, (m.ctl.die d.die |>.planOf d.layer).lrExp, vr⟩
  let ta := entersInt d.ta
  let tb := entersInt d.tb
  let l := d.elemStages.foldl (x.stage ta tb) ⟨[], part, if part then a.2.1 ++ b.2.1 else [], [], []⟩
  (l, match d.rowStage with
    | some st => x.source l.res (readType (stageTypes ta tb d.elemStages) ta tb st 0) st.sa
    | none => l.res.getLastD (.f 0))

/-- What a row gives: its result words, the events of its stages, its row event, and its `vlnratio` squares. -/
structure RowRes where
  outs : List LaneOut
  ev : List Nat
  dw : List Val
  w : List Val
deriving DecidableEq, Repr

/-- Softmax words put back at their places; masked places hold +0. -/
def scatter : List Bool → List Nat → List LaneOut
  | [], _ => []
  | true :: t, w :: ws => ⟨.f w, true⟩ :: scatter t ws
  | true :: t, [] => ⟨.f 0, true⟩ :: scatter t []
  | false :: t, ws => ⟨.f 0, false⟩ :: scatter t ws

/-- A row of a chain. Log 98 (DEDUCED). -/
def Module.chainRow (m : Module) (d : ChainDesc) (r : Nat) : RowRes :=
  let vr := m.ctl.vregWords d r
  let ls := (List.range d.cols).map (m.lane d vr r)
  let ev := (ls.map (fun l => l.1.ev)).flatten
  let dw := (ls.map (fun l => l.1.dw)).flatten
  let w := (ls.map (fun l => l.1.w)).flatten
  match d.rowStage with
  | none => ⟨ls.map (fun l => ⟨l.2, l.1.part⟩), ev, dw, w⟩
  | some st =>
    let live := (ls.zipIdx.filter (fun l => l.1.1.part)).map (fun l => (l.2, l.1.2))
    if st.sop = 0x38 then
      let q := smxRow (bit st.md 0) (live.map (fun p => p.2.fp))
      ⟨scatter (ls.map (fun l => l.1.part)) q.1, ev ++ q.2.toList, dw, w⟩
    else
      let ta := entersInt d.ta
      let tb := entersInt d.tb
      let ints := intsRow live (readType (stageTypes ta tb d.elemStages) ta tb st 0)
      if live.isEmpty then ⟨[⟨rowIdentity st.sop ints, true⟩], ev ++ [15], dw, w⟩
      else
        let q := reduceRow st ints live
        ⟨[⟨q.1, true⟩], ev ++ q.2, dw, w⟩

/-! ## What reading a row raises (R535) -/

/-- The elements of a tensor that a row reads for the first time: blocks that run down columns are read with their first row. -/
def rowAt (t : Tensor) (r cols : Nat) : List (Nat × Nat) × List (Nat × Nat) :=
  let l := (List.range cols).map (fun c => (r, c))
  (l, if t.innerRows && r % t.bsize != 0 then [] else l)

/-- Does a position enter the stages: neither the mask tensor nor an invalid block of an input masks it (R201)? -/
def Module.takesPart (m : Module) (d : ChainDesc) (r c : Nat) : Bool :=
  m.maskOk d r c && !(m.elem d.die d.ta (chainScale d.ta) r c).masked
    && (!d.bEn || !(m.elem d.die d.tb (chainScale d.tb) (d.bAt r c).1 (d.bAt r c).2).masked)

/-- What reading row `r` of an input raises: the event of a T2 code only where a position that uses the element takes part (R201).
Log 149 (DEDUCED). -/
def Module.inputSeen (m : Module) (die : Nat) (t : Tensor) (r cols : Nat) (uses : Nat → Bool) : Seen :=
  let p := rowAt t r cols
  let all := m.seenAt die t (chainScale t) p.1
  let blocks := m.seenAt die t (chainScale t) p.2
  { all with block := blocks.block, code := (m.seenAt die t (chainScale t) (p.1.filter (fun x => uses x.2))).code }

/-- Does a position that element `c` of row `r`'s B serves take part? -/
def Module.bUsed (m : Module) (d : ChainDesc) (r c : Nat) : Bool :=
  d.tb.fmt == 0 && (match d.bBcast with
    | 0 => m.takesPart d r c
    | 1 => (List.range d.rows).any (fun i => m.takesPart d i c)
    | 2 => (List.range d.cols).any (m.takesPart d r)
    | _ => (List.range d.rows).any (fun i => (List.range d.cols).any (m.takesPart d i)))

/-- What reading a row raises. A row or a scalar that B_BCAST repeats is read once, with row 0 (R197, R535). Log 150 (DEDUCED). -/
def Module.rowSeen (m : Module) (d : ChainDesc) (r : Nat) : Seen :=
  let a := m.inputSeen d.die d.ta r d.cols (m.takesPart d r)
  let bc := if d.bBcast < 2 then d.cols else 1
  let b := if d.bEn && (d.bBcast == 0 || d.bBcast == 2 || r == 0) then m.inputSeen d.die d.tb (d.bAt r 0).1 bc (m.bUsed d r)
    else Seen.none
  let k := if d.maskEn then m.inputSeen d.die d.tmask r (cdiv d.cols 8) (fun _ => false) else Seen.none
  (a.add b).add k

/-! ## Converting rows -/

/-- The words of a chain's rows that are converted together. Lane l converts ceil((COLS - l) / 256) of each row, which fixes the k of
R72. Log 98 (DEDUCED). -/
def Ctl.chainElems (c : Ctl) (d : ChainDesc) (base r0 : Nat) (rows : List (List LaneOut)) : List CElem :=
  let cols := if d.reduces then 1 else d.cols
  let last := (stageTypes (entersInt d.ta) (entersInt d.tb) d.stages).getLastD false
  let fillWord := LWord.ofRaw last (c.vreg d.die d.vu 31 0)
  let fills := d.rowStage.isNone && d.maskFill == 2
  (rows.zipIdx.map (fun (x : List LaneOut × Nat) =>
    x.1.zipIdx.map (fun (y : LaneOut × Nat) =>
      let r := r0 + x.2
      let w := if y.1.part then y.1.word else fillWord
      ({ row := r, col := y.2, x := .val w.exact, part := y.1.part, fill := !y.1.part && fills,
         slice := c.slice d.die d.vu d.cvt base (y.2 % 256) (r * cdiv (cols - y.2 % 256) 256 + y.2 / 256),
         run := if !d.dstVreg && d.td.innerRows then y.2 * 2 ^ 32 + r / 32 else r * 2 ^ 32 + y.2 / 32 } : CElem)))).flatten

/-- Masked positions that hold +0. -/
def ChainDesc.zeros (d : ChainDesc) (r0 : Nat) (rows : List (List LaneOut)) : List Out :=
  if d.isSmx || (d.rowStage.isNone && d.maskFill == 1) then
    (rows.zipIdx.map (fun (x : List LaneOut × Nat) =>
      x.1.zipIdx.filterMap (fun (y : LaneOut × Nat) => if y.1.part then none else some ⟨r0 + x.2, y.2, zeroCode d.cvt.fmt false⟩))).flatten
  else []

/-- Elements in ascending place. -/
def insertOut (x : Out) : List Out → List Out
  | [] => [x]
  | y :: t => if x.row < y.row ∨ (x.row = y.row ∧ x.col < y.col) then x :: y :: t else y :: insertOut x t

/-- Everything rows write. -/
def allOuts (r : CRes) (z : List Out) : List Out := z.foldl (fun l x => insertOut x l) r.writes

/-! ## `VXSTAT` (Table 7-11) -/

def vxBits (ev : List Nat) (sn : Seen) : List Nat :=
  (if ev.contains 15 then [0] else []) ++ (if ev.contains 16 then [1] else []) ++ (if ev.contains 17 then [2] else [])
    ++ (if ev.contains 18 then [3] else []) ++ (if ev.contains 0 then [4] else []) ++ (if ev.contains 1 then [5] else [])
    ++ (if ev.contains 2 then [6] else []) ++ (if ev.contains 3 then [7] else []) ++ (if sn.block = 0 then [] else [8])
    ++ (if sn.code = 0 then [] else [9])

def VxStat.note (s : VxStat) (ev : List Nat) (sn : Seen) : VxStat :=
  { bits := (vxBits ev sn).foldl (fun v b => setBit v b true) s.bits
    emptyRows := min 65535 (s.emptyRows + countOf ev 15)
    maskedRows := min 65535 (s.maskedRows + countOf ev 16) }

def VxStat.word (s : VxStat) : Nat := s.bits + 2 ^ 16 * s.emptyRows + 2 ^ 32 * s.maskedRows

/-- The unit's own counters of row events (Table 7-12). -/
def Ctl.vuCount (c : Ctl) (die v : Nat) (ev : List Nat) : Ctl :=
  c.each ev (fun c i =>
    match i with
    | 15 => c.bump Fld.vu_EMPTY_CNT_COUNT (vuInst die v)
    | 16 => c.bump Fld.vu_ROW_MASKED_CNT_COUNT (vuInst die v)
    | 17 => c.bump Fld.vu_INF_TIE_CNT_COUNT (vuInst die v)
    | 18 => c.bump Fld.vu_SMX_NAN_CNT_COUNT (vuInst die v)
    | _ => c)

/-- What a row's reading and stages raise, with what counts toward the layer (R154). -/
def Ctl.rowEvents (c : Ctl) (d : ChainDesc) (epoch : Nat) (r : RowRes) (sn : Seen) : Ctl :=
  let u := vuUnit d.vu
  let c := ((c.saw d.die u sn).countAll d.die u r.ev).vuCount d.die d.vu r.ev
  let c := if ovfCount r.ev + unfCount r.ev = 0 then c
    else c.roleMerge d.die epoch d.layer d.role { RoleStat.reset with ovf := ovfCount r.ev, unf := unfCount r.ev }
  if d.role = 0 ∨ (r.dw.isEmpty ∧ r.w.isEmpty) then c
  else c.wideMerge d.die epoch d.layer { WideStat.reset with dwSq := r.dw.foldl sumAdd 0, wSq := r.w.foldl sumAdd 0 }

/-! ## VCHAIN -/

def Ctl.setRun (c : Ctl) (r : ChainRun) : Ctl := c.onVu r.d.die r.d.vu (fun v => { v with run := some r })

/-- Must a chain's request for its window wait for a descriptor that its core issued before it (R75)? -/
def Module.chainTurn (m : Module) (r : ChainRun) : Bool :=
  match m.ctl.desc r.d.die r.queue r.seq with
  | some x => m.windowTurn r.d.die r.queue x r.d.cvt
  | none => true

/-- A chain begins: its capture slot is cleared and it receives its window. Log 99 (DEDUCED). -/
def Ctl.beginChain (c : Ctl) (r : ChainRun) : Ctl :=
  let d := r.d
  let n := if d.reduces then d.rows else d.rows * cdiv d.cols 256
  let w := (c.amaxFirst d.die d.cvt).window d.die (vuUnit d.vu) d.cvt (if d.dstVreg then none else some d.td.idx) n
  (w.2.setRun { r with started := true, base := w.1 }).wr Fld.vu_VU_STATE_BUSY 1 (vuInst d.die d.vu)

def execVchain (die vu : Nat) (s : State) : Host.Outcome State Fault Refusal :=
  match s.m.ctl.dieUp die, (s.m.ctl.vu die vu).run with
  | true, some r =>
    if !r.started && s.m.chainTurn r then .next (s.onM (·.onCtl (·.beginChain r))) else .next s
  | _, _ => .next s

/-! ## VECTOR_STEP -/

/-- Groups of 256 columns in a row. -/
def ChainDesc.groups (d : ChainDesc) : Nat := cdiv d.cols 256

/-- Is a step the last one of a row? -/
def ChainRun.endsRow (r : ChainRun) : Bool := decide (r.d.cost ≤ r.unit + 1) && decide (r.d.groups ≤ r.grp + 1)

/-- Rows held back until their blocks are whole (R64). -/
def ChainDesc.holds (d : ChainDesc) (row : Nat) : Bool :=
  d.cvt.scaleSrc == 3 && !d.dstVreg && d.td.innerRows && (row + 1) % d.td.bsize != 0 && decide (row + 1 < d.rows)

/-- Are the rows of a chain's inputs there (R192)? -/
def Ctl.inputsReady (c : Ctl) (d : ChainDesc) (r : Nat) : Bool :=
  c.mayRead d.die d.ta r && (!d.bEn || c.mayRead d.die d.tb (d.bAt r 0).1) && (!d.maskEn || c.mayRead d.die d.tmask r)

/-- Are the slots of the rows free that a row's end writes? -/
def Ctl.outputsReady (c : Ctl) (d : ChainDesc) (r held : Nat) : Bool :=
  d.dstVreg || (List.range (held + 1)).all (fun i => c.mayWrite d.die d.td (r - i))

/-- The rows of tile buffers that a row has read for the last time. -/
def Ctl.rowTaken (c : Ctl) (d : ChainDesc) (r : Nat) : Ctl :=
  let c := c.took d.die d.ta r
  let c := if d.bEn && (d.bBcast == 0 || d.bBcast == 2 || r + 1 == d.rows) then c.took d.die d.tb (d.bAt r 0).1 else c
  if d.maskEn then c.took d.die d.tmask r else c

/-- Does the chain wait on a tile buffer slot? A row it writes may take the slot that its inputs leave (R192). -/
def ChainRun.waits (r : ChainRun) (c : Ctl) : Bool :=
  !c.inputsReady r.d r.row || (r.endsRow && !r.d.holds r.row && !(c.rowTaken r.d r.row).outputsReady r.d r.row r.held.length)

/-- Where the words of rows go that go to a vector register: element `i` in row-major order (R196). -/
def ChainDesc.vwords (d : ChainDesc) (l : List Out) : List (Nat × Nat) :=
  l.map (fun o => (256 * d.dstVr + (if d.reduces then o.row else o.row * d.cols + o.col), o.code))

/-- The run after a row. -/
def ChainRun.afterRow (r : ChainRun) (held : List (List LaneOut)) : ChainRun :=
  { r with unit := 0, grp := 0, row := r.row + 1, held := held }

/-- Do the destination's blocks, or its runs of 32, run down rows (R41, R155)? -/
def ChainDesc.spansRows (d : ChainDesc) : Bool := !d.dstVreg && d.td.innerRows

/-- The elements of a block, or of a run where the destination has no scales. -/
def ChainDesc.runLen (d : ChainDesc) : Nat := if d.td.scaled then d.td.bsize else 32

/-- Is a row the last one of the blocks it lies in? -/
def ChainDesc.closesBlocks (d : ChainDesc) (row : Nat) : Bool :=
  !d.spansRows || (row + 1) % d.runLen == 0 || decide (d.rows ≤ row + 1)

/-- A row's conversion: a block that runs down rows under `SCALE_SRC` ARRAY is read with its first row, so that it raises what it
raises once (R535). -/
def Module.convertRows (m : Module) (r : ChainRun) (rows : List (List LaneOut)) : CRes :=
  let d := r.d
  let r0 := r.row - r.held.length
  let q := m.convert d.cvt (if d.dstVreg then none else some d.td) (m.ctl.chainElems d r.base r0 rows)
  if d.spansRows && d.td.scaled && r0 % d.td.bsize != 0 then { q with seen := Seen.none } else q

/-- The rows of a batch are converted and written, or held back by the drain. The captures of a block are binned once the chain has
converted all it converts of it (R155). Log 99 (DEDUCED). -/
def Module.finishRows (m : Module) (r : ChainRun) (row : RowRes) (sn : Seen) : Module :=
  let d := r.d
  let rows := r.held ++ [row.outs]
  let r0 := r.row - r.held.length
  let t := if d.dstVreg then none else some d.td
  let q := m.convertRows r rows
  let caps := r.caps ++ q.caps t
  let whole := d.closesBlocks r.row
  let outs := allOuts q (d.zeros r0 rows)
  match if d.dstVreg then none else m.ctl.putBlock d.td outs q.scales with
  | some l => m.onCtl (·.cowStall d.die r.queue r.seq l)
  | none =>
    let m := if d.dstVreg then m else (m.put d.die d.td outs).putScales d.die (vuUnit d.vu) q.scales
    m.onCtl (fun c =>
      let c := (c.rowEvents d r.epoch row sn).tallyWith d.die (vuUnit d.vu) r.epoch d.layer d.role d.cvt q (q.caps t)
        (if whole then caps else [])
      let c := c.rowTaken d r.row
      let c := if d.dstVreg then c else c.each (List.range rows.length) (fun c i => c.wrote d.die d.td (r0 + i))
      let r := { r.afterRow [] with
        caps := if whole then [] else caps
        stat := (r.stat.note row.ev sn).note q.events q.seen
        vout := if d.dstVreg then r.vout ++ d.vwords outs else r.vout }
      (c.setRun { r with done := decide (d.rows ≤ r.row) }).add Fld.vu_STEPS 1 (vuInst d.die d.vu))

/-- A row whose block is not whole yet. -/
def Module.holdRow (m : Module) (r : ChainRun) (row : RowRes) (sn : Seen) : Module :=
  m.onCtl (fun c =>
    let c := (c.rowEvents r.d r.epoch row sn).rowTaken r.d r.row
    (c.setRun { r.afterRow (r.held ++ [row.outs]) with stat := r.stat.note row.ev sn }).add Fld.vu_STEPS 1 (vuInst r.d.die r.d.vu))

/-- A step within a row. -/
def Ctl.stepUnit (c : Ctl) (r : ChainRun) : Ctl :=
  let u := r.unit + 1
  (c.setRun (if u < r.d.cost then { r with unit := u } else { r with unit := 0, grp := r.grp + 1 })).add Fld.vu_STEPS 1
    (vuInst r.d.die r.d.vu)

/-- A step period. Log 85 (DEDUCED). -/
def Module.vectorStep (m : Module) (r : ChainRun) : Module :=
  let i := vuInst r.d.die r.d.vu
  if r.waits m.ctl then m.onCtl (fun c => (c.wr Fld.vu_VU_STATE_TB_WAIT 1 i).add Fld.vu_TBWAIT_STEPS 1 i)
  else
    let m := m.onCtl (·.wr Fld.vu_VU_STATE_TB_WAIT 0 i)
    if !r.endsRow then m.onCtl (·.stepUnit r)
    else
      let row := m.chainRow r.d r.row
      let sn := m.rowSeen r.d r.row
      if r.d.holds r.row then m.holdRow r row sn else m.finishRows r row sn

def execVectorStep (die vu : Nat) (s : State) : Host.Outcome State Fault Refusal :=
  match s.m.ctl.dieUp die, (s.m.ctl.vu die vu).run with
  | true, some r =>
    if r.started && !r.done && !s.m.ctl.cowWaits die r.queue r.seq then .next (s.onM (·.vectorStep r)) else .next s
  | _, _ => .next s

/-! ## TILE_BUFFER_SLOT_READY -/

/-- Is tile buffer `buf` among those a chain uses? -/
def ChainDesc.usesTb (d : ChainDesc) (buf : Nat) : Bool :=
  ([d.ta] ++ (if d.bEn then [d.tb] else []) ++ (if d.maskEn then [d.tmask] else []) ++ (if d.dstVreg then [] else [d.td])).any
    (fun t => t.inTb && t.tb == buf)

/-- A chain that waited on a slot proceeds once it may; a producer or consumer elsewhere looks again at its own next step. -/
def execTileBufferSlotReady (die vu buf : Nat) (s : State) : Host.Outcome State Fault Refusal :=
  match s.m.ctl.dieUp die, (s.m.ctl.vu die vu).run with
  | true, some r =>
    if r.d.usesTb buf && !r.waits s.m.ctl then .next (s.onM (·.onCtl (·.wr Fld.vu_VU_STATE_TB_WAIT 0 (vuInst die vu)))) else .next s
  | _, _ => .next s

/-! ## The vector registers (R193) -/

/-- The registers a chain's stages and destination name. -/
def stagesName (b : List Nat) (n : Nat) : Bool :=
  let k := min 8 (b.getD 8 0 / 16)
  ((List.range k).any (fun s =>
    let st := stageOf (fieldAt b (32 + 4 * s) 4)
    (([st.sa, st.sb, st.sc].take ((sopArity st.sop).getD 0)).any (fun sel => sel == 0x10 + n || sel == 0x20 + n))))
    || (bit (b.getD 9 0) 7 && b.getD 22 0 % 32 == n) || (n == 31 && bitsOf (b.getD 9 0) 5 2 == 2)

/-- The running and queued chains of the unit that read or write the register, by the number of their issue. -/
def Module.vregUsers (m : Module) (die v n : Nat) : List Nat :=
  let mine (b : List Nat) : Bool := b.getD 0 0 == 0x20 && b.getD 8 0 % 16 == v && stagesName b n
  ((m.ctl.die die).queues.map (fun q =>
    (q.2.live.filter (fun d => d.stage != .done && mine d.raw)).map (·.slot.tick)
      ++ (q.2.ring.filter (fun s => mine (slotBytes (memRead m.mem (descAddr m.ctl die s.desc) 64) s))).map (·.tick))).flatten

/-- Is a descriptor, by the number of its issue, still queued or running? -/
def DieSt.pendingTick (x : DieSt) (k : Nat) : Bool :=
  x.queues.any (fun q => q.2.live.any (fun d => d.stage != .done && d.slot.tick == k) || q.2.ring.any (fun s => s.tick == k))

/-- Does a write wait for a chain still? Chains queued after it was made do not hold it (R193). -/
def DieSt.holdsWrite (x : DieSt) (p : HeldWrite) : Bool := p.chains.any x.pendingTick

/-- A core's write of a vector register word takes effect, or is held. A write behind a held one of the same word waits with it. -/
def Module.vregWrite (m : Module) (die v n i w : Nat) : Module :=
  let users := m.vregUsers die v n
  let behind := (((m.ctl.vu die v).held.filter (fun p => p.word == 256 * n + i)).map (·.chains)).flatten
  if users.isEmpty && behind.isEmpty then m.onCtl (·.wr Fld.vu_Vn_WORD w (vuInst die v) (256 * n + i))
  else m.onCtl (fun c =>
    (c.onVu die v (fun u => { u with held := u.held ++ [⟨256 * n + i, w, users ++ behind⟩] })).wr Fld.vu_VU_STATE_VR_HOLD 1 (vuInst die v))

def execVregWrite (die vu vreg lane value : Nat) (s : State) : Host.Outcome State Fault Refusal :=
  if s.m.ctl.dieUp die && decide (vu < 16 ∧ vreg < 32 ∧ lane < 256) then .next (s.onM (fun m => (m.vregWrite die vu vreg lane value).onCtl (·.watchOpen die 0x04 vu (0x1000 + 1024 * vreg + 4 * lane))))
  else .next s

/-- The held writes whose chains have all completed take effect, in the order they were made. -/
def Module.releaseWrites (m : Module) (die v : Nat) : Module :=
  let held := (m.ctl.vu die v).held
  let free := held.filter (fun p => !(m.ctl.die die).holdsWrite p)
  let rest := held.filter (m.ctl.die die).holdsWrite
  m.onCtl (fun c =>
    let c := c.each free (fun c p => c.wr Fld.vu_Vn_WORD p.value (vuInst die v) p.word)
    (c.onVu die v (fun u => { u with held := rest })).wrB Fld.vu_VU_STATE_VR_HOLD (!rest.isEmpty) (vuInst die v))

def execVregWriteEffect (die vu : Nat) (s : State) : Host.Outcome State Fault Refusal :=
  if s.m.ctl.dieUp die && !(s.m.ctl.vu die vu).held.isEmpty then .next (s.onM (·.releaseWrites die vu)) else .next s

/-- The words of a completed chain's register. -/
def Ctl.putVregs (c : Ctl) (r : ChainRun) : Ctl :=
  c.each r.vout (fun c p => c.wr Fld.vu_Vn_WORD p.2 (vuInst r.d.die r.d.vu) p.1)

end Sys2Proof.Machine
end

