-- ==== Sys2Proof/Machine/Queue.lean ====
section
/-! DEFINITION. Queues: programs, fetch, waits, decode, grants, start, data movement, completion, records, and the control cores'
writes of the queue block (R245 to R265, R285, R306, R311, R483, R484). -/

namespace Sys2Proof.Machine

/-! ## The Lesson store (R311) -/

/-- Bytes of the Lesson store within one line, read again from the far copy where the line is poisoned; none where that is
poisoned too. -/
def Module.lessonRead (m : Module) (die unit off n : Nat) : Option (List Nat × Module) :=
  let a := lessonStore die + off
  if !m.ctl.bad a then some (memRead m.mem a n, m)
  else
    let f := lessonCopy die + off
    if m.ctl.bad f then none
    else
      let m' := m.write (a / 64 * 64) (memRead m.mem (f / 64 * 64) 64)
      some (memRead m'.mem a n, m'.onCtl (·.count die unit 24))

/-- LESSON_LOST: every queue of the die halts at its next fetch. Log 83 (DEDUCED). -/
def Ctl.lessonLost (c : Ctl) (die unit off : Nat) : Ctl :=
  let c := c.each (List.range 64) (fun c q => c.onQueue die q (fun x => { x with lost := true }))
  c.post 0x0404 0 die unit (le 8 ((lessonStore die + off) / 64 * 64))

/-- The same, with the dump that Mersene writes (R481). -/
def Module.lessonLost (m : Module) (die unit off : Nat) : Module := (m.onCtl (·.lessonLost die unit off)).dump 2

/-- The offset of descriptor `i` and of program word `i` in the store. -/
def Ctl.descOff (c : Ctl) (die i : Nat) : Nat := descAddr c die i - lessonStore die
def Ctl.wordOff (c : Ctl) (die i : Nat) : Nat := (match (c.die die).lesson with | some l => l.progOff | none => 0) + 8 * i

/-! ## Queue programs (R246, R285) -/

def Ctl.halted (c : Ctl) (die q : Nat) : Bool := c.on Fld.bp_BP_STATE_HALTED (4 * die + c.coreOf die q)

/-- A run of a queue whose core executes, and its next word. -/
def Ctl.progAt (c : Ctl) (die q : Nat) : Option (ProgRun × Nat) :=
  match (c.queue die q).prog with
  | some r => if r.ended || c.halted die q || (c.queue die q).lost then none else some (r, c.wordOff die ((c.queue die q).progFirst + r.pc))
  | none => none

/-- The kind of the word a run is at. -/
def Module.progWop (m : Module) (die q : Nat) : Option (ProgRun × Nat × Nat) :=
  match m.ctl.progAt die q with
  | some (r, o) =>
    let f := if m.ctl.bad (lessonStore die + o) && !m.ctl.bad (lessonCopy die + o) then lessonCopy die + o else lessonStore die + o
    some (r, o, memByte m.mem f % 16)
  | none => none

def Ctl.setProg (c : Ctl) (die q : Nat) (r : ProgRun) : Ctl := c.onQueue die q (fun x => { x with prog := some r })

/-- Up to `n` descriptors enter a ring, as far as it has room; how many entered. -/
def issueSlots (die q epoch off : Nat) : Nat → Nat → Ctl → Nat → Ctl × Nat
  | 0, _, c, k => (c, k)
  | n + 1, i, c, k =>
    if c.ringFull die q then (c, k) else issueSlots die q epoch off n (i + 1) (c.pushSlot die q ⟨i, epoch, false, false, none, 0, 0, off⟩) (k + 1)

/-- ISSUE: the descriptors that fit are copied; the word is done once all are. -/
def Ctl.issueWord (c : Ctl) (die q w : Nat) (r : ProgRun) : Ctl :=
  let count := bitsOf w 8 16
  let from0 := if r.left = 0 then 0 else count - r.left
  let p := issueSlots die q (c.die die).epoch r.off (count - from0) (bitsOf w 24 32 + from0 + r.off) c 0
  let left := count - from0 - p.2
  let c := p.1.setProg die q { r with left := left, pc := if left = 0 then r.pc + 1 else r.pc }
  if p.2 = 0 then c else c.watchTail die q

/-- A word of the program is read, and acted on. -/
def Module.progRead (m : Module) (die q off : Nat) (f : Nat → Ctl → Ctl) : Module :=
  let unit := m.ctl.ccUnit die q
  match m.lessonRead die unit off 8 with
  | some (b, m) => m.onCtl (f (unle b))
  | none => m.lessonLost die unit off

/-- The same, unless a PC breakpoint hits first (R483). -/
def Module.progStep (m : Module) (die q off : Nat) (f : Nat → Ctl → Ctl) : Module :=
  let x := 4 * die + m.ctl.coreOf die q
  let h := m.ctl.pcHits x
  if h.1.isEmpty then ({ m with ctl := h.2 }).progRead die q off f else { m with ctl := h.2.breakHits x h.1 }

def execIssue (die queue : Nat) (s : State) : Host.Outcome State Fault Refusal :=
  match s.m.ctl.dieUp die, s.m.progWop die queue with
  | true, some (r, o, 1) => .next (s.onM (·.progStep die queue o (fun w c => c.issueWord die queue w r)))
  | _, _ => .next s

/-- DRAIN: every record of the queue is written. -/
def execDrainWord (die queue : Nat) (s : State) : Host.Outcome State Fault Refusal :=
  match s.m.ctl.dieUp die, s.m.progWop die queue with
  | true, some (r, o, 2) =>
    if (s.m.ctl.queue die queue).live.isEmpty && (s.m.ctl.queue die queue).ring.isEmpty then
      .next (s.onM (·.progStep die queue o (fun _ c => c.setProg die queue { r with pc := r.pc + 1 })))
    else .next s
  | _, _ => .next s

def execEndWord (die queue : Nat) (s : State) : Host.Outcome State Fault Refusal :=
  match s.m.ctl.dieUp die, s.m.progWop die queue with
  | true, some (r, o, 3) => .next (s.onM (·.progStep die queue o (fun _ c => c.setProg die queue { r with ended := true })))
  | _, _ => .next s

/-! ## Decode (R256) -/

/-- Decode by operation code. -/
def Module.decodeDesc (m : Module) (die q off : Nat) (b : List Nat) : Decoded :=
  match b.getD 0 0 with
  | 0x01 => decodeNop b
  | 0x02 => m.ctl.decodeCopy die b
  | 0x10 => m.decodePass die b
  | 0x20 => m.ctl.decodeChain die b
  | 0x30 => m.ctl.decodeTopk die b
  | 0x31 => m.decodeDisp die off b
  | 0x32 => m.decodeExloop die q b
  | 0x33 => m.decodeComb die off b
  | o => if 0x40 ≤ o ∧ o ≤ 0x47 then m.ctl.decodeColl die b else .reject errOpc

/-- A descriptor is done. -/
def Ctl.descDone (c : Ctl) (die q seq err status : Nat) (noop : Bool) : Ctl :=
  let t := c.stamp die
  t.2.onDesc die q seq (fun d => { d with stage := .done, err := err, noop := noop, status := status, endStamp := t.1 % 2 ^ 32 })

/-- Have the descriptors before this one in its queue completed? Stage 6 is taken in queue order (R247). -/
def Ctl.firstLeft (c : Ctl) (die q seq : Nat) : Bool := ((c.queue die q).live.takeWhile (fun d => !d.is seq)).all (fun d => d.stage == .done)

/-- A descriptor goes straight to stage 6: it completes, or waits for those before it. -/
def Ctl.finishDesc (c : Ctl) (die q seq err : Nat) (noop : Bool) : Ctl :=
  if c.firstLeft die q seq then c.descDone die q seq err 0 noop
  else c.onDesc die q seq (fun d => { d with stage := .finish, err := err, noop := noop })

/-- A descriptor arrives at stage 5. -/
def Ctl.arrive (c : Ctl) (die q seq : Nat) : Ctl :=
  (c.onDesc die q seq (fun d => { d with stage := .start })).onDie die (fun x => { x with arrivals := x.arrivals ++ [(q, seq)] })

/-- What follows decode: a rejection or a no-op completes at once, a heavy descriptor asks for power, another is ready to
start. -/
def Ctl.decoded (c : Ctl) (die q seq : Nat) (b : List Nat) (r : Decoded) : Ctl :=
  match r with
  | .reject e => c.finishDesc die q seq e false
  | .noop => c.finishDesc die q seq 0 true
  | .go w u beats =>
    let c := c.onDesc die q seq (fun d => { d with work := w })
    if u = 0 then c.arrive die q seq
    else
      let t := c.stamp die
      let c := t.2.onDesc die q seq (fun d => { d with stage := .grant, units := u, asked := true, askedAt := t.1 })
      c.hpRequest ⟨.desc die q seq, (hdrOf b).prio, u, beats⟩

def Module.decodeStep (m : Module) (die q seq : Nat) (b : List Nat) : Module :=
  let r := m.decodeDesc die q (m.ctl.offOf die q seq) b
  m.onCtl (·.decoded die q seq b r)

/-! ## DESCRIPTOR_FETCH -/

/-- Has the previous descriptor started, been rejected or completed (R247)? -/
def QueueSt.mayFetch (x : QueueSt) : Bool :=
  x.live.all (fun d => d.stage == .running || d.stage == .done || (d.stage == .finish && !d.noop))

/-- The slot a queue would fetch; in HOLD no queue fetches (R384). -/
def Ctl.toFetch (c : Ctl) (die q : Nat) : Option Slot :=
  let x := c.queue die q
  if c.stage != 4 && c.on Fld.que_Q_CTRL_ENABLE die q && !c.on Fld.que_Q_CTRL_STOPPED die q && !x.lost && !c.halted die q && x.mayFetch then x.ring.head?
  else none

/-- A fetched descriptor, before it waits. -/
def Desc.fetched (seq : Nat) (s : Slot) (raw : List Nat) : Desc :=
  { seq := seq, slot := s, raw := raw, stage := .wait, err := 0, noop := false, work := .none, units := 0, asked := false, hpWait := 0,
    askedAt := 0, status := 0, endStamp := 0, recomp := none, cowWait := none, cowRaised := false }

/-- R234: a copy of an expert's template, with its rows or without. -/
def Ctl.noteCopy (c : Ctl) (die : Nat) (s : Slot) (raw : List Nat) : Ctl :=
  match s.rows with
  | some r => c.onDie die (fun x => { x with copies := if x.copies.contains ((hdrOf raw).layer, r != 0) then x.copies
      else x.copies ++ [((hdrOf raw).layer, r != 0)] })
  | none => c

/-- The descriptor at the head becomes current. -/
def Ctl.takeSlot (c : Ctl) (die q : Nat) (s : Slot) (raw : List Nat) : Ctl :=
  let seq := c.rd Fld.que_Q_SEQ die q
  let n := c.rd Fld.que_Q_SLOTS die q
  let c := c.onQueue die q (fun x => { x with ring := x.ring.drop 1, live := x.live ++ [Desc.fetched seq s raw] })
  let c := if s.rerun then c else c.wr Fld.que_Q_HEAD ((c.rd Fld.que_Q_HEAD die q + 1) % max n 1) die q
  ((c.add Fld.que_Q_SEQ 1 die q).noteCopy die s raw).settleCore (4 * die + c.coreOf die q)

/-- A fetched descriptor goes on to its wait, or to decode. -/
def Module.afterFetch (m : Module) (die q seq : Nat) (raw : List Nat) : Module :=
  if (hdrOf raw).waitCnt = 0 then m.decodeStep die q seq raw
  else m.onCtl (·.onDie die (fun x => { x with waiters := x.waiters ++ [((hdrOf raw).waitSem, q)] }))

/-- One fetch: the descriptor's bytes are read; where no `FENCE` holds it, a breakpoint may hit first, else it is taken. Log 67
(DEDUCED). -/
def Module.fetchOrBreak (m : Module) (die q : Nat) (s : Slot) : Module :=
  let unit := m.ctl.ccUnit die q
  let off := m.ctl.descOff die s.desc
  match m.lessonRead die unit off 64 with
  | none => m.lessonLost die unit off
  | some (b, m) =>
    let raw := slotBytes b s
    let seq := m.ctl.rd Fld.que_Q_SEQ die q
    let x := 4 * die + m.ctl.coreOf die q
    let hits := m.ctl.bpFetch x q s.desc
    if (hdrOf raw).fence && !(m.ctl.queue die q).live.isEmpty then m
    else if !hits.isEmpty then m.onCtl (·.breakHits x hits)
    else (m.onCtl (·.takeSlot die q s raw)).afterFetch die q seq raw

def execDescriptorFetch (die queue : Nat) (s : State) : Host.Outcome State Fault Refusal :=
  match s.m.ctl.dieUp die, s.m.ctl.toFetch die queue with
  | true, some x => .next (s.onM (·.fetchOrBreak die queue x))
  | _, _ => .next s

/-! ## SEMAPHORE_WAIT_MET (R250) -/

/-- The descriptor of a queue that waits for its semaphore, where it is the first in line and the count suffices. -/
def Ctl.waitMet (c : Ctl) (die q : Nat) : Option Desc :=
  match (c.queue die q).live.find? (fun d => d.stage == .wait) with
  | some d =>
    let h := hdrOf d.raw
    if ((c.die die).waiters.find? (fun w => w.1 == h.waitSem)) = some (h.waitSem, q) ∧ h.waitCnt ≤ c.rd Fld.que_SEMs_COUNT die h.waitSem then
      some d
    else none
  | none => none

def Module.takeWait (m : Module) (die q : Nat) (d : Desc) : Module :=
  let h := hdrOf d.raw
  (m.onCtl (fun c => (c.wr Fld.que_SEMs_COUNT (c.rd Fld.que_SEMs_COUNT die h.waitSem - h.waitCnt) die h.waitSem).onDie die
    (fun x => { x with waiters := x.waiters.erase (h.waitSem, q) }))).decodeStep die q d.seq d.raw

def execSemaphoreWaitMet (die queue : Nat) (s : State) : Host.Outcome State Fault Refusal :=
  match s.m.ctl.dieUp die, s.m.ctl.waitMet die queue with
  | true, some d => .next (s.onM (·.takeWait die queue d))
  | _, _ => .next s

/-! ## Grants (R260) -/

/-- HP_GRANT (Table 17-5). -/
def Ctl.grantTrace (c : Ctl) (die : Nat) (r : HpReq) (us : Nat) : Ctl :=
  c.emit die (c.ccUnit die (hpQueue r.who)) 0x21 2 ([hpQueue r.who, r.prio, 0, 0] ++ le 4 r.units ++ le 4 us)

/-- A grant reaches a descriptor: one at stage 4 goes on, a running one may send. Log 82 (DEDUCED). -/
def Ctl.grantDesc (c : Ctl) (die q seq : Nat) (r : HpReq) : Ctl :=
  match c.desc die q seq with
  | none => c
  | some d =>
    let t := c.stamp die
    let us := min 0xFFFFFFFF ((t.1 + 2 ^ 64 - d.askedAt) % 2 ^ 64 / 1000)
    let c := (t.2.onDesc die q seq (fun x => { x with hpWait := us })).grantTrace die r us
    if d.stage = .grant then c.arrive die q seq
    else c.onDesc die q seq (fun x => match x.work with
      | .route y => { x with work := .route { y with granted := true } }
      | _ => x)

/-- A grant reaches its holder; that of the protection traffic lets it go out. -/
def Ctl.grantTo (c : Ctl) (r : HpReq) : Ctl :=
  match r.who with
  | .desc die q seq => c.grantDesc die q seq r
  | .attempt die q seq =>
    let asked := ((c.desc die q seq).bind (·.recomp)).map (·.askedAt)
    let t := c.stamp die
    let us := min 0xFFFFFFFF ((t.1 + 2 ^ 64 - asked.getD t.1) % 2 ^ 64 / 1000)
    (t.2.onDesc die q seq (fun x => { x with recomp := x.recomp.map (fun y => { y with granted := true }) })).grantTrace die r us
  | .drain => { c with gen := { c.gen with granted := true } }
  | .protect => c

def execHallPassGrant (s : State) : Host.Outcome State Fault Refusal :=
  match s.m.ctl.hpGrant with
  | some (r, c) => .next (s.onM (fun m =>
      let m := { m with ctl := c.grantTo r }
      if r.who == .protect then m.protGranted else m))
  | none => .next s

/-- HALL_PASS_RELEASE: the units of a descriptor that has completed become free. -/
def Ctl.mayRelease (c : Ctl) (die q seq : Nat) : Bool :=
  c.hp.held.any (fun p => p.1 == .desc die q seq) && (match c.desc die q seq with | some d => d.stage == .done | none => true)

def execHallPassRelease (die queue seq : Nat) (s : State) : Host.Outcome State Fault Refusal :=
  if s.m.ctl.mayRelease die queue seq then .next (s.onM (·.onCtl (·.hpFree (.desc die queue seq)))) else .next s

/-! ## ENGINE_START (R248) -/

/-- The engines that accept descriptors. -/
inductive Engine where
  | array (p : Nat)
  | vector (v : Nat)
  | copy (core : Nat)
  | free
deriving DecidableEq, Repr

/-- The engine of a descriptor. -/
def Ctl.engineOf (c : Ctl) (die q : Nat) (d : Desc) : Engine :=
  match d.work with
  | .pass p => .array p.phys
  | .chain x => .vector x.vu
  | .copy .. => .copy (c.coreOf die q)
  | .route _ => if d.raw.getD 0 0 = 0x30 then .vector (d.raw.getD 8 0 % 16) else .free
  | _ => .free

/-- Running descriptors of a die, with their queues. -/
def Ctl.running (c : Ctl) (die : Nat) : List (Nat × Desc) :=
  ((c.die die).queues.map (fun p => (p.2.live.filter (fun d => d.stage == .running)).map (fun d => (p.1, d)))).flatten

/-- Can an engine accept another descriptor? -/
def Ctl.engineFree (c : Ctl) (die : Nat) (e : Engine) : Bool :=
  match e with
  | .array p => (c.arr die p).next.isNone
  | .free => true
  | e => !(c.running die).any (fun x => c.engineOf die x.1 x.2 == e)

/-- Is a descriptor the first in line for its engine? -/
def Ctl.firstFor (c : Ctl) (die q : Nat) (d : Desc) : Bool :=
  let e := c.engineOf die q d
  e == .free ||
    ((c.die die).arrivals.find? (fun a => match c.desc die a.1 a.2 with | some x => c.engineOf die a.1 x == e | none => false)) == some (q, d.seq)

/-- The run an array begins with. -/
def GroupRun.begin (q : Nat) (d : Desc) (p : PassDesc) : GroupRun :=
  { queue := q, seq := d.seq, epoch := d.slot.epoch, d := p, expanded := false, todo := [], pend := none, act := none, row := 0, beat := 0,
    lanes := [], readouts := [], accFrame := false, issued := 0, beats := 0, firstBeat := 0, stat := ⟨0, 0, [], []⟩, compared := [], side := [], last := [] }

/-- The run a vector unit begins with. -/
def ChainRun.begin (q : Nat) (d : Desc) (x : ChainDesc) : ChainRun :=
  { queue := q, seq := d.seq, epoch := d.slot.epoch, d := x, started := false, unit := 0, row := 0, grp := 0, base := 0, cur := [],
    held := [], caps := [], vout := [], stat := ⟨0, 0, 0⟩, done := false }

/-- An engine accepts a descriptor. -/
def Ctl.start (c : Ctl) (die q : Nat) (d : Desc) : Ctl :=
  let c := (c.onDie die (fun x => { x with arrivals := x.arrivals.erase (q, d.seq) })).onDesc die q d.seq (fun x => { x with stage := .running })
  match d.work with
  | .pass p =>
    let g := GroupRun.begin q d p
    c.onArr die p.phys (fun a => if a.run.isNone then { a with run := some g } else { a with next := some g })
  | .chain x => c.onVu die x.vu (fun v => { v with run := some (ChainRun.begin q d x) })
  | _ => c

def execEngineStart (die queue seq : Nat) (s : State) : Host.Outcome State Fault Refusal :=
  let c := s.m.ctl
  match c.dieUp die, c.desc die queue seq with
  | true, some d =>
    if d.stage = .start ∧ c.firstFor die queue d = true ∧ c.engineFree die (c.engineOf die queue d) = true then
      .next (s.onM (·.onCtl (·.start die queue d)))
    else .next s
  | _, _ => .next s

/-! ## NOP, DM_COPY -/

def execNop (die queue seq : Nat) (s : State) : Host.Outcome State Fault Refusal :=
  match s.m.ctl.dieUp die, s.m.ctl.desc die queue seq with
  | true, some d =>
    if d.stage = .running ∧ d.raw.getD 0 0 = 0x01 then .next (s.onM (·.onCtl (·.onDesc die queue seq (fun x => { x with work := .over }))))
    else .next s
  | _, _ => .next s

/-- The columns of a row. -/
def Tensor.rowAt (t : Tensor) (r : Nat) : List (Nat × Nat) := (List.range t.cols).map (fun c => (r, c))

/-- The scale entries of a row: distinct addresses, in order. -/
def Tensor.rowScaleAddrs (t : Tensor) (r : Nat) : List Nat := dedup ((List.range t.cols).map (t.scaleAddr r))

/-- What a row of a copy writes: elements and scale bytes. Where the two tensors' blocks differ in size or direction, the scale entries of the
two rows are paired in order, and what is left over on either side stays. Log 84 (DEDUCED). Log 200 (DESIGN CHOICE). -/
def Module.copyOuts (m : Module) (die : Nat) (s t : Tensor) (scales : Bool) (rs rt : Nat) : List Out × List (Nat × Nat) :=
  ((List.range t.cols).map (fun c => ⟨rt, c, m.elemCode die s rs c⟩),
   if scales then (t.rowScaleAddrs rt).zip ((s.rowScaleAddrs rs).map (memByte m.mem)) else [])

/-- R310: the destination lines that a poisoned source line reaches are written poisoned. Log 84 (DEDUCED). -/
def Ctl.copyPoison (c : Ctl) (s t : Tensor) (scales : Bool) (rs rt : Nat) : List Nat :=
  let els := if t.inTb then [] else
    ((List.range t.cols).map (fun k => if c.elemBad s rs k then t.elemLines rt k else [])).flatten
  let sc := if scales then ((t.rowScaleAddrs rt).zip (s.rowScaleAddrs rs)).filterMap (fun (p : Nat × Nat) => if c.lineBad (p.2 / 64) then some (p.1 / 64) else none)
    else []
  dedup (els ++ sc)

/-- One row of a copy. Log 84 (DEDUCED). -/
def Module.copyRow (m : Module) (die q seq : Nat) (s t : Tensor) (scales : Bool) (rs rt : Nat) (next : Work) : Module :=
  let o := m.copyOuts die s t scales rs rt
  match m.ctl.putBlock t o.1 o.2 with
  | some l => m.onCtl (·.cowStall die q seq l)
  | none =>
    let unit := m.ctl.ccUnit die q
    let sn := (m.seenAt die s (.all 0xFF) (s.rowAt rs)).add
      (if scales then m.ctl.seenLines (dedup ((s.rowScaleAddrs rs).map (· / 64))) else Seen.none)
    let bad := m.ctl.copyPoison s t scales rs rt
    let m := (m.put die t o.1).putScales die unit o.2
    m.onCtl (fun c =>
      let c := (c.each bad (fun c l => c.setPoison l true)).saw die unit { sn with code := 0 }
      ((c.took die s rs).wrote die t rt).onDesc die q seq (fun x => { x with work := next }))

/-- DM_COPY: the next row, where the tile buffers allow it (R192). -/
def execDmCopy (die queue seq : Nat) (errs : Errs) (s : State) : Host.Outcome State Fault Refusal :=
  let c := s.m.ctl
  match c.dieUp die, c.desc die queue seq with
  | true, some d =>
    (match d.stage, d.work with
     | .running, .copy a b sc rows a0 b0 r =>
       if decide (r.row < rows) && !d.cowWait.isSome && c.mayRead die a (a0 + r.row) && c.mayWrite die b (b0 + r.row) then
         .next (s.onM (fun m => (m.onCtl (·.memErrs errs)).copyRow die queue seq a b sc (a0 + r.row) (b0 + r.row) (.copy a b sc rows a0 b0 ⟨r.row + 1⟩)))
       else .next s
     | _, _ => .next s)
  | _, _ => .next s

/-- COW_WRITE_RESUME (R306): the line a write waited for has been copied. -/
def execCowWriteResume (die queue seq : Nat) (s : State) : Host.Outcome State Fault Refusal :=
  match s.m.ctl.desc die queue seq with
  | some d => (match d.cowWait with
    | some l => if s.m.ctl.marked l then .next s else .next (s.onM (·.onCtl (·.onDesc die queue seq (fun x => { x with cowWait := none }))))
    | none => .next s)
  | none => .next s

/-! ## DESCRIPTOR_COMPLETE -/

/-- A pass group with its recompute attempts and comparisons done. -/
def Ctl.groupOver (c : Ctl) (x : Desc) (g : GroupRun) : Bool :=
  g.done && (x.recompOf g).tiles.isEmpty && (c.toCompare g).isEmpty

/-- The group leaves its array; the next one runs. -/
def ArraySt.shift (a : ArraySt) : ArraySt := { a with run := a.next, next := none }

/-- What a step remembers of a completed group: for reruns, for the plan, and flagged tiles that are kept. -/
def Ctl.noteGroup (c : Ctl) (die q : Nat) (x : Desc) (g : GroupRun) : Ctl :=
  let d := g.d
  let kept := if d.recomputable || g.accFrame then 0 else g.flagged.length
  let c := { c with job := { c.job with noRecompute := c.job.noRecompute + kept } }
  let c := if d.steered && g.stat.why.any (fun w => !w.2) then c.track die d.layer d.role (fun t => { t with high := true }) else c
  let c := if d.role = 0 || x.slot.rerun then c
    else c.onDie die (fun y => { y with doneGroups := y.doneGroups ++ [(d.layer, d.role, q, x.slot)] })
  match x.recomp with
  | some r => if r.fallback then c.pushReruns die d.layer d.role else c
  | none => c

/-- PASS_DETAIL (Table 17-5). -/
def Ctl.passDetail (c : Ctl) (die : Nat) (g : GroupRun) : Ctl :=
  c.emit die g.d.phys 0x40 4 (le 8 g.firstBeat ++ le 8 g.beats ++ le 4 g.issued ++ le 4 g.stat.skipped)

/-- A pass group completes. -/
def Ctl.completePass (c : Ctl) (die q : Nat) (x : Desc) (p : Nat) (g : GroupRun) : Ctl :=
  let c := ((c.noteGroup die q x g).passDetail die g).onArr die p ArraySt.shift
  c.descDone die q x.seq (if g.accFrame then errFrame else 0) g.stat.word false

/-- A chain completes: its vector register is written, and the unit is free. -/
def Ctl.completeChain (c : Ctl) (die q : Nat) (x : Desc) (r : ChainRun) : Ctl :=
  let c := ((c.putVregs r).onVu die r.d.vu (fun v => { v with run := none })).wr Fld.vu_VU_STATE_BUSY 0 (vuInst die r.d.vu)
  c.descDone die q x.seq 0 r.stat.word false

/-- The effect of completion, where a descriptor's work is done and those before it in its queue have completed (R247). -/
def Ctl.complete (c : Ctl) (die q : Nat) (x : Desc) : Option Ctl :=
  if !c.firstLeft die q x.seq then none
  else if x.stage = .finish then some (c.descDone die q x.seq x.err 0 x.noop)
  else if x.stage != .running then none
  else match x.work with
    | .pass _ => (match c.groupOf die q x.seq with
      | some (p, g) => if c.groupOver x g then some (c.completePass die q x p g) else none
      | none => none)
    | .chain d => (match (c.vu die d.vu).run with
      | some r => if r.done && r.queue == q && r.seq == x.seq then some (c.completeChain die q x r) else none
      | none => none)
    | .copy _ _ _ rows _ _ r => if rows ≤ r.row then some (c.descDone die q x.seq 0 0 false) else none
    | .route r => if r.event = 7 then some (c.descDone die q x.seq 0 (if x.raw.getD 0 0 = 0x32 then 0 else r.word) false) else none
    | .coll _ _ => (c.collDone die q x.seq).map (fun r => (c.collRetire r die).descDone die q x.seq 0 0 false)
    | .over => some (c.descDone die q x.seq 0 0 false)
    | .none => none

def execDescriptorComplete (die queue seq : Nat) (s : State) : Host.Outcome State Fault Refusal :=
  let c := s.m.ctl
  match c.dieUp die, (c.desc die queue seq).bind (c.complete die queue) with
  | true, some c' => .next (s.onM (fun m => { m with ctl := c' }))
  | _, _ => .next s

/-! ## COMPLETION_RECORD (R249, R250, R258) -/

/-- Table 9-6. Log 82 (DEDUCED). -/
def Desc.record (d : Desc) (stopped : Bool) : List Nat :=
  le 4 d.seq ++ le 4 d.slot.desc ++ [d.raw.getD 0 0, d.err, b2n d.noop + 2 * b2n stopped + 4 * b2n d.slot.copy + 8 * b2n d.slot.rerun, 0]
    ++ le 4 d.units ++ le 8 d.status ++ le 4 d.hpWait ++ le 4 d.endStamp

/-- Add to a semaphore; saturation is counted (R250). -/
def Ctl.signal (c : Ctl) (die sem n : Nat) : Ctl :=
  let v := c.rd Fld.que_SEMs_COUNT die sem + n
  if 0xFFFFFFFF < v then (c.wr Fld.que_SEMs_COUNT 0xFFFFFFFF die sem).bump Fld.que_SEM_SAT_CNT_COUNT die else c.wr Fld.que_SEMs_COUNT v die sem

/-- The same, for a queue's core: its unit counter counts too (R265). -/
def Ctl.signalBy (c : Ctl) (die q sem n : Nat) : Ctl :=
  let c := if 0xFFFFFFFF < c.rd Fld.que_SEMs_COUNT die sem + n then c.count die (c.ccUnit die q) 19 else c
  c.signal die sem n

/-- The signal of a record, held while a fallback of its layer and role is in progress (R252). -/
def Ctl.recordSignal (c : Ctl) (die q : Nat) (d : Desc) : Ctl :=
  let h := hdrOf d.raw
  if h.sigCnt = 0 ∨ d.slot.rerun ∨ d.err = errFlushed then c
  else match (c.die die).fall h.layer h.role with
    | some f =>
      if f.sem = h.sigSem ∧ h.role ≠ 0 then
        c.onDie die (fun x => { x with falls := x.falls.map (fun g => if g == f then { g with held := g.held ++ [(q, h.sigCnt)] } else g) })
      else c.signalBy die q h.sigSem h.sigCnt
    | none => c.signalBy die q h.sigSem h.sigCnt

/-- The record of a rerun: with the last one, the held signals are applied, each for the queue it comes from (R252, R265).
Log 112 (DEDUCED). -/
def Ctl.rerunRecord (c : Ctl) (die _q : Nat) (d : Desc) : Ctl :=
  if !d.slot.rerun then c
  else
    let h := hdrOf d.raw
    match (c.die die).fall h.layer h.role with
    | none => c
    | some f =>
      let g := { f with reruns := f.reruns - 1 }
      if g.reruns = 0 then
        (c.onDie die (fun x => { x with falls := x.falls.filter (· != f) })).each f.held (fun c (p : Nat × Nat) => c.signalBy die p.1 f.sem p.2)
      else c.onDie die (fun x => { x with falls := x.falls.map (fun y => if y == f then g else y) })

/-- QUEUE_STOPPED. -/
def Ctl.stopQueue (c : Ctl) (die q : Nat) (d : Desc) : Ctl :=
  ((c.wr Fld.que_Q_CTRL_STOPPED 1 die q).count die (c.ccUnit die q) 20).post 0x0201 1 die (c.ccUnit die q)
    (le 8 (c.lessonId die) ++ [q, d.err, 0, 0] ++ le 4 d.seq)

/-- Does a record stop its queue? A flushed descriptor's does not: the flush ends the stop. Log 83 (DEDUCED). -/
def Ctl.stops (c : Ctl) (die q : Nat) (d : Desc) : Bool :=
  d.err != 0 && d.err != errFlushed && c.on Fld.que_Q_CTRL_STOP_ON_ERROR die q

/-- The counters of a record. -/
def Ctl.recordCounts (c : Ctl) (die q : Nat) (d : Desc) : Ctl :=
  let c := c.add Fld.que_Q_HPWAIT_US d.hpWait die q
  if d.err = 0 then c
  else ((c.bump Fld.que_Q_ERR_CNT_COUNT die q).wr Fld.que_Q_LASTERR d.err die q).wr Fld.que_Q_LASTERR_SEQ d.seq die q

/-- The oldest descriptor of a queue is recorded. -/
def Ctl.record (c : Ctl) (die q : Nat) (d : Desc) : Ctl :=
  let stopped := c.stops die q d
  let b := d.record stopped
  let n := c.rd Fld.que_Q_SLOTS die q
  let c := c.onQueue die q (fun x => { x with live := x.live.drop 1, records := x.records ++ [b] })
  let c := (c.wr Fld.que_Q_CTAIL ((c.rd Fld.que_Q_CTAIL die q + 1) % max n 1) die q).recordCounts die q d
  let c := if stopped then c.stopQueue die q d else c
  let c := ((c.recordSignal die q d).rerunRecord die q d).emit die (c.ccUnit die q) 0x20 2 (b ++ [q])
  c.settleCore (4 * die + c.coreOf die q)

/-- The descriptor whose record may be written: the oldest, once done, while the completion ring has room. -/
def Ctl.toRecord (c : Ctl) (die q : Nat) : Option Desc :=
  match (c.queue die q).live with
  | d :: _ => if d.stage = .done ∧ (c.queue die q).records.length < c.rd Fld.que_Q_SLOTS die q then some d else none
  | [] => none

def execCompletionRecord (die queue : Nat) (s : State) : Host.Outcome State Fault Refusal :=
  match s.m.ctl.dieUp die, s.m.ctl.toRecord die queue with
  | true, some d => .next (s.onM (·.onCtl (·.record die queue d)))
  | _, _ => .next s

/-! ## The control cores' writes (Table 9-14) -/

/-- A core adds to a semaphore: a signal, whose saturation its unit counter counts. -/
def Ctl.semAddBy (c : Ctl) (die core sem value : Nat) : Ctl :=
  let c := if 0xFFFFFFFF < c.rd Fld.que_SEMs_COUNT die sem + value % 2 ^ 32 then c.count die (0x70 + core) 19 else c
  c.signal die sem (value % 2 ^ 32)

/-- SEM_ADD. The command does not say which core wrote. Log 66 (DESIGN CHOICE). -/
def Ctl.semAdd (c : Ctl) (die sem value : Nat) : Ctl :=
  let f := c.fresh
  let core := f.1 % 4
  (f.2.semAddBy die core sem value).watch die core 0x06 0 (0x2400 + 4 * sem)

def execSemAdd (die sem value : Nat) (s : State) : Host.Outcome State Fault Refusal :=
  if s.m.ctl.dieUp die && decide (sem < 256) then .next (s.onM (·.onCtl (·.semAdd die sem value))) else .next s

/-- `RESUME` (R258). -/
def execResume (die queue : Nat) (s : State) : Host.Outcome State Fault Refusal :=
  if s.m.ctl.dieUp die && decide (queue < 64) then
    .next (s.onM (·.onCtl (fun c => (c.wr Fld.que_Q_CTRL_STOPPED 0 die queue).watch die (c.coreOf die queue) 0x06 0 (0x40 * queue))))
  else .next s

/-- A flushed descriptor: a record with `ERR` FLUSHED, no wait and no signal. It was never fetched, so `Q_SEQ` stays. -/
def Ctl.flushSlot (c : Ctl) (img : List Nat) (die q : Nat) (s : Slot) : Ctl :=
  let seq := c.rd Fld.que_Q_SEQ die q
  let n := c.rd Fld.que_Q_SLOTS die q
  let t := c.stamp die
  let d := { Desc.fetched seq s (slotBytes img s) with stage := .done, err := errFlushed, endStamp := t.1 % 2 ^ 32 }
  let c := t.2.onQueue die q (fun x => { x with ring := x.ring.drop 1, live := x.live ++ [d] })
  if s.rerun then c else c.wr Fld.que_Q_HEAD ((c.rd Fld.que_Q_HEAD die q + 1) % max n 1) die q

/-- The unfetched descriptors of a queue are flushed, and it fetches again (R258). Log 83 (DEDUCED). -/
def Ctl.flushRing (c : Ctl) (mem : List Host.Cell) (die q : Nat) : Ctl :=
  let c := c.each (c.queue die q).ring (fun c s => c.flushSlot (memRead mem (descAddr c die s.desc) 64) die q s)
  (c.wr Fld.que_Q_CTRL_STOPPED 0 die q).settleCore (4 * die + c.coreOf die q)

/-- `FLUSH`. -/
def Ctl.flushQueue (c : Ctl) (mem : List Host.Cell) (die q : Nat) : Ctl :=
  (c.flushRing mem die q).watch die (c.coreOf die q) 0x06 0 (0x40 * q)

/-- Log 83 (DEDUCED). -/
def execFlush (die queue : Nat) (s : State) : Host.Outcome State Fault Refusal :=
  if s.m.ctl.dieUp die && s.m.ctl.on Fld.que_Q_CTRL_STOPPED die queue then .next (s.onM (·.onRead (fun mem c => c.flushQueue mem die queue)))
  else .next s

/-- A write of `Q_CHEAD` frees the slots of the records up to it (R249). -/
def Ctl.freeRecords (c : Ctl) (die q v : Nat) : Ctl :=
  let n := max (c.rd Fld.que_Q_SLOTS die q) 1
  let k := (v % 1024 + n - c.rd Fld.que_Q_CHEAD die q % n) % n
  let k := if k = 0 then 0 else min k (c.queue die q).records.length
  (c.onQueue die q (fun x => { x with records := x.records.drop k })).wr Fld.que_Q_CHEAD v die q

def Ctl.cheadWrite (c : Ctl) (die q v : Nat) : Ctl :=
  (c.freeRecords die q v).watch die (c.coreOf die q) 0x06 0 (0x40 * q + 0x14)

def execQCheadWrite (die queue value : Nat) (s : State) : Host.Outcome State Fault Refusal :=
  if s.m.ctl.dieUp die && decide (queue < 64) then .next (s.onM (·.onCtl (·.cheadWrite die queue value))) else .next s

end Sys2Proof.Machine
end

