-- ==== Sys2Proof/Machine/Steps.lean ====
section
/-! DEFINITION. Training steps: the Timetable's runs, the check and its token, apply, commit, discard, and the step boundary
(R266 to R286, R290 to R293, R427, R428). -/

namespace Sys2Proof.Machine

/-! ## Runs of a step (R285) -/

/-- The queues of a mask, ascending. -/
def maskQueues (v : Nat) : List Nat := (List.range 64).filter (bit v)

/-- The Timetable's record of a die. -/
def Ctl.dieRec (c : Ctl) (d : Nat) : Option DieRec := c.job.timetable.bind (fun t => t.dies[d]?)

/-- The dies that take part. -/
def Ctl.activeDies (c : Ctl) : List Nat :=
  (List.range 8).filter (fun d => match c.dieRec d with | some r => r.active | none => false)

/-- The queues that a slot word starts on a die, and its O. -/
def Timetable.slotRuns (t : Timetable) (d w : Nat) : List Nat × Nat :=
  match t.stages[bitsOf w 2 3]? with
  | some v => (maskQueues ((if w % 4 = 1 then v.fwd else v.bwd).getD d 0), bitsOf w 8 16 % t.nbuf * v.stride)
  | none => ([], 0)

/-- Start a run of a queue. -/
def Ctl.startRun (c : Ctl) (d off q : Nat) : Ctl := c.setProg d q ⟨0, off, 0, false⟩

/-- Has a queue's previous run reached END? -/
def Ctl.runOver (c : Ctl) (d q : Nat) : Bool := match (c.queue d q).prog with | some r => r.ended | none => true

/-- A die enters a phase: `PHASE`, and the STEP_PHASE record (Table 17-5). -/
def Ctl.setPhase (c : Ctl) (d ph step : Nat) : Ctl :=
  (c.wr Fld.chk_CHK_STATE_PHASE ph d).emit d 0xFF 0x22 2 ([ph, 0, 0, 0] ++ le 8 step)

/-- A loaded Timetable takes effect (R286). -/
def Ctl.adoptTimetable (c : Ctl) : Ctl :=
  match c.job.timetableNext with
  | none => c
  | some t =>
    let c := { c with job := { c.job with
      timetable := some t
      timetableNext := none } }
    c.each t.dies.zipIdx (fun c p => (c.wr Fld.chk_CHK_TABLES_NORM_TENS p.1.normTens p.2).wr Fld.chk_CHK_TABLES_LOSS_TENS p.1.lossTens p.2)

/-- The newest generation is still draining or not yet protected (R379). -/
def Ctl.unprotected (c : Ctl) : Bool := c.gen.slots.any (fun g => (g.state == 1 || g.state == 2) && g.gen + 1 == c.gen.nextGen)

/-- Does a dispatch or combine still run (R235)? -/
def Ctl.routing (c : Ctl) : Bool :=
  (List.range 8).any (fun d => (c.die d).queues.any (fun q => q.2.live.any (fun x =>
    match x.stage, x.work with | .running, .route _ => true | _, _ => false)))

/-- The starts of a step's dispatches and combines, and messages left of them, are forgotten as the next begins, unless one still runs.
Log 168 (DESIGN CHOICE). -/
def Ctl.clearRoutes (c : Ctl) : Ctl :=
  if c.routing then c else c.each (List.range 8) (fun c d => c.onDie d (fun x => { x with fabric := [], starts := [] }))

/-- A step of the module begins; the first of a job writes the plan entries. Log 123 (DEDUCED). -/
def Ctl.beginStep (c : Ctl) : Ctl :=
  let c := c.adoptTimetable.clearRoutes
  let c := if c.job.attempt = 0 ∧ c.job.step = 0 then c.firstPlan else c
  let t := c.stamp dieHD
  let c := t.2.wr Fld.ls_STEP_DROPPED_COUNT 0
  { c with job := { c.job with
    phase := .running
    attempt := c.job.attempt + 1
    stepStamp := t.1
    during := c.unprotected
    streamAdvance := 0
    dropped := 0
    own := none
    tokenSent := false
    up := false
    verdict := none } }

/-- A die begins the step: its slots, and the PRE_QMASK runs. -/
def Ctl.startDie (c : Ctl) (d : Nat) : Ctl :=
  match c.dieRec d, c.job.timetable with
  | some r, some t =>
    let c := c.onDie d (fun x => { x with
      step := { StepRun.reset with slots := (t.slots.drop r.slotFirst).take r.slotCount, active := true }
      doneGroups := [] })
    let c := ((c.wr Fld.chk_CHK_STATE_VERDICT 0 d).wr Fld.chk_CHK_STATE_PASS 0 d).setPhase d 0 c.job.step
    c.each (maskQueues r.pre) (fun c q => c.startRun d 0 q)
  | _, _ => c

/-- May a step begin (R283, R384, R427, R428, R463)? -/
def Ctl.mayBegin (c : Ctl) : Bool :=
  c.job.phase == .idle && !c.job.held && c.job.runLeft != 0 && c.stage == 3 && c.sec.updState != 5

/-- The step begins on a die: with the first of them, on the module. Log 123 (DEDUCED). -/
def Ctl.stepStart (c : Ctl) (d : Nat) : Option Ctl :=
  let c := if c.mayBegin then c.beginStep else c
  if c.job.phase == .running && c.activeDies.contains d && !(c.die d).step.active then some (c.startDie d) else none

def execStepStart (die : Nat) (s : State) : Host.Outcome State Fault Refusal :=
  match s.m.ctl.dieUp die, s.m.ctl.stepStart die with
  | true, some c => .next (s.onM (fun m => { m with ctl := c }))
  | _, _ => .next s

/-- The runs of the slot in hand that may start; a slot all of whose queues have started is over. -/
def Ctl.slotStart (c : Ctl) (d : Nat) : Option Ctl :=
  let x := (c.die d).step
  match x.slots, c.job.timetable with
  | w :: rest, some t =>
    let r := t.slotRuns d w
    let qs := x.slot.getD r.1
    let go := qs.filter (c.runOver d)
    let wait := qs.filter (fun q => !c.runOver d q)
    if go.isEmpty && !wait.isEmpty then none
    else
      let y := if wait.isEmpty then { x with slots := rest, slot := none } else { x with slot := some wait }
      some ((c.each go (fun c q => c.startRun d r.2 q)).onDie d (fun z => { z with step := y }))
  | _, _ => none

def execSlotStart (die : Nat) (s : State) : Host.Outcome State Fault Refusal :=
  let c := s.m.ctl
  if c.dieUp die && c.job.phase == .running && (c.die die).step.active then
    match c.slotStart die with
    | some c' => .next (s.onM (fun m => { m with ctl := c' }))
    | none => .next s
  else .next s

/-! ## The fold (R267, R269) -/

/-- The least significant weight of the check's sums. Log 121 (DESIGN CHOICE). -/
def checkUnit : Int := -149

/-- The 320-bit range. -/
def clamp320 (v : Int) : Int := max (-(2 ^ 319)) (min (2 ^ 319 - 1) v)

/-- Add to a 320-bit sum; its flags take SUM_CLAMP where it clamps. -/
def add320 (s : Int × Nat) (v : Int) : Int × Nat :=
  let t := s.1 + v
  if clamp320 t = t then (t, s.2) else (clamp320 t, setBit s.2 5 true)

/-- One element of a column: the flags of a NaN, +∞ and −∞ are given. -/
def foldVal (nan pinf ninf : Nat) (s : Int × Nat) (v : Val) : Int × Nat :=
  match v with
  | .nan => (s.1, setBit s.2 nan true)
  | .inf n => (s.1, setBit s.2 (if n then ninf else pinf) true)
  | .fin n m => add320 s (inUnits checkUnit (.fin n m))

/-- The places of a tensor. -/
def Tensor.places (t : Tensor) : List (Nat × Nat) := (List.range (t.rows * t.cols)).map (fun i => (i / t.cols, i % t.cols))

/-- The values of a column that the Timetable names, and what reading them raises; none for 0xFFFF. -/
def Module.column (m : Module) (d idx : Nat) : List Val × Seen :=
  if idx = 0xFFFF then ([], Seen.none)
  else match (m.ctl.die d).tensor idx with
    | none => ([], Seen.none)
    | some t => (t.places.map (fun p => elemVal t.fmt (m.elem d t (.all 0xFF) p.1 p.2)), m.seenAt d t (.all 0xFF) t.places)

/-- CHECK_FOLD. The spec does not say which core's counters a poisoned line counts at. Log 121 (DESIGN CHOICE). -/
def Module.foldDie (m : Module) (d : Nat) (r : DieRec) : Module :=
  let n := m.column d r.normTens
  let l := m.column d r.lossTens
  let ns := n.1.foldl (foldVal 0 1 1) (0, 0)
  let ls := l.1.foldl (foldVal 2 3 4) (0, ns.2)
  m.onCtl (fun c =>
    let f := c.fresh
    let c := f.2.saw d (0x70 + f.1 % 4) (n.2.add l.2)
    let c := (c.setPhase d 1 c.job.step).wr Fld.chk_CHK_LOCAL_FLAGS ls.2 d
    c.onDie d (fun x => { x with
      normSq := ns.1
      lossSum := ls.1
      lossCount := l.1.length
      step := { x.step with folded := true } }))

/-- Every run of the queues of a die has ended and every record is written. -/
def Ctl.runsOver (c : Ctl) (d : Nat) : Bool :=
  (c.die d).queues.all (fun (p : Nat × QueueSt) => p.2.live.isEmpty && p.2.ring.isEmpty && c.runOver d p.1)

/-- R484: does a core of the die stand halted? Log 123 (DEDUCED). -/
def Ctl.dieHalted (c : Ctl) (d : Nat) : Bool := [0, 1, 2, 3].any (fun k => c.on Fld.bp_BP_STATE_HALTED (4 * d + k))

/-- May a die enter check? Log 123 (DEDUCED). -/
def Ctl.mayCheck (c : Ctl) (d : Nat) : Bool :=
  let x := (c.die d).step
  c.job.phase == .running && x.active && !x.folded && x.slots.isEmpty && c.runsOver d && !c.dieHalted d

def execEnterCheck (die : Nat) (s : State) : Host.Outcome State Fault Refusal :=
  match s.m.ctl.dieUp die && s.m.ctl.mayCheck die, s.m.ctl.dieRec die with
  | true, some r => .next (s.onM (·.foldDie die r))
  | _, _ => .next s

/-! ## The token (R270 to R272) -/

/-- Table 10-2, without its `CRC`. -/
def Token.head (t : Token) : List Nat :=
  le 8 t.step ++ le 4 t.planSeq ++ le 4 t.digest ++ le 2 t.flags ++ [0, 0] ++ le 4 t.modules ++ le 4 t.dropped ++ [0, 0, 0, 0]
    ++ le 40 (tcode 320 t.normSq) ++ le 40 (tcode 320 t.lossSum) ++ le 8 t.lossCount

def Token.bytes (t : Token) : List Nat := t.head ++ le 4 (crc32c t.head) ++ [0, 0, 0, 0]

/-- A token received; none where its `CRC` is wrong (R271). -/
def tokenOf (b : List Nat) : Option Token :=
  if fieldAt b 120 4 = crc32c (bytesAt b 0 120) then
    some { step := fieldAt b 0 8, planSeq := fieldAt b 8 4, digest := fieldAt b 12 4, flags := fieldAt b 16 2,
           modules := fieldAt b 20 4, dropped := fieldAt b 24 4, normSq := sext 320 (fieldAt b 32 40),
           lossSum := sext 320 (fieldAt b 72 40), lossCount := fieldAt b 112 8 }
  else none

/-- Set a flag where a condition holds. -/
def flagIf (v k : Nat) (b : Bool) : Nat := if b then setBit v k true else v

/-- Table 10-3. Which of two differing digests is kept is not said. Log 120 (DESIGN CHOICE). -/
def Token.combine (a b : Token) : Token :=
  let n := add320 (a.normSq, a.flags ||| b.flags) b.normSq
  let l := add320 (a.lossSum, n.2) b.lossSum
  let f := flagIf l.2 9 (a.step != b.step || a.planSeq != b.planSeq)
  { step := min a.step b.step, planSeq := min a.planSeq b.planSeq,
    digest := if a.digest = b.digest then a.digest else Config.openValue 6 [a.digest, b.digest] % 2 ^ 32,
    flags := flagIf f 8 (a.digest != b.digest), modules := min (2 ^ 32 - 1) (a.modules + b.modules),
    dropped := min (2 ^ 32 - 1) (a.dropped + b.dropped), normSq := n.1, lossSum := l.1,
    lossCount := min (2 ^ 64 - 1) (a.lossCount + b.lossCount) }

/-- The exact value of a check sum. Log 119 (DEDUCED). -/
def checkVal (v : Int) : Val := .fin (decide (v < 0)) (Mag.dyadic v.natAbs checkUnit)

/-- `NORM_SQ` rounded once to FP32. Log 119 (DEDUCED). -/
def Token.norm32 (t : Token) : Nat := fp32Round (checkVal t.normSq)

/-- R272: the verdict of a combined token. -/
def Token.verdict (t : Token) : Token :=
  let f := flagIf t.flags 1 (!(fp32Val t.norm32).isFin)
  { t with flags := flagIf f 10 ([0, 1, 2, 3, 4, 5, 9].all (fun k => !bit f k)) }

def Token.pass (t : Token) : Bool := bit t.flags 10

/-- The last attempt of STEP_RUN (R427). -/
def Ctl.lastAttempt (c : Ctl) : Bool := c.job.runLeft == 1

/-- R182: does the module lack a combined plan by its check? -/
def Ctl.noPlan (c : Ctl) : Bool := c.job.propDue || (c.job.propRound && c.job.combined.isNone)

/-- The sums of the dies. -/
def Ctl.sumDies (c : Ctl) (t : Token) (d : Nat) : Token :=
  let x := c.die d
  let n := add320 (t.normSq, t.flags ||| c.rd Fld.chk_CHK_LOCAL_FLAGS d) x.normSq
  let l := add320 (t.lossSum, n.2) x.lossSum
  { t with normSq := n.1, lossSum := l.1, flags := l.2, lossCount := t.lossCount + x.lossCount }

/-- The module's token. Log 122 (DEDUCED). -/
def Ctl.moduleToken (c : Ctl) : Token :=
  let f := flagIf (flagIf (flagIf 0 6 (c.job.stopReq || c.lastAttempt)) 7 c.sealDue) 8 c.noPlan
  let t : Token :=
    { step := c.job.step, planSeq := c.job.planSeq, digest := c.planDigest, flags := f, modules := 1, dropped := c.job.dropped,
      normSq := 0, lossSum := 0, lossCount := 0 }
  c.activeDies.foldl c.sumDies t

/-- The tokens of the children and the module's own, in one, once all are there: to the parent, or, at the root, the verdict. -/
def Ctl.tokenUp (c : Ctl) : Ctl :=
  match c.checkGroup, c.job.own with
  | some g, some own =>
    if !c.job.up && g.children.all (fun r => Tab.has c.job.children r) then
      let t := g.children.foldl (fun t r => match c.job.children.find? (fun p => p.1 == r) with | some p => t.combine p.2 | none => t) own
      let c := { c with job := { c.job with
        up := true
        children := [] } }
      if g.root then ({ c with job := { c.job with verdict := some t.verdict } }).toChildren g t.verdict.bytes else c.toParent g t.bytes
    else c
  | _, _ => c

/-- MODULE_TOKEN_SEND: a request to stop or to seal has had its token. Log 122 (DEDUCED). -/
def Ctl.tokenSend (c : Ctl) : Ctl :=
  let t := c.stamp dieHB
  let c := t.2
  let own := c.moduleToken
  ({ c with
    job := { c.job with
      own := some own
      tokenSent := true
      sentStamp := t.1
      stopReq := false }
    gen := { c.gen with sealNow := false } }).tokenUp

/-- Is the module's token due? -/
def Ctl.tokenDue (c : Ctl) : Bool := c.job.phase == .running && !c.job.tokenSent && c.activeDies.all (fun d => (c.die d).step.folded)

def execModuleTokenSend (s : State) : Host.Outcome State Fault Refusal :=
  if s.m.ctl.tokenDue then .next (s.onM (·.onCtl (·.tokenSend))) else .next s

def execCheckTokenReceive (rank : Nat) (bytes : List Nat) (s : State) : Host.Outcome State Fault Refusal :=
  match s.m.ctl.checkGroup, tokenOf bytes with
  | some g, some t =>
    if g.children.contains rank then
      .next (s.onM (·.onCtl (fun c => ({ c with job := { c.job with children := c.job.children.set rank t } }).tokenUp)))
    else .next s
  | _, _ => .next s

/-! ## The end of an attempt (R276 to R283, R291) -/

/-- `NONFINITE_RUN`, kept alike in every die's check block. -/
def Ctl.nonfiniteRun (c : Ctl) : Nat := c.rd Fld.chk_CHK_RUN_NONFINITE_RUN

/-- Write a field of every compute die's check block. Log 118 (DEDUCED). -/
def Ctl.wrDies (c : Ctl) (f : Fld) (v : Nat) : Ctl := c.each (List.range 8) (fun c d => c.wr f v d)
/-- Log 118 (DEDUCED). -/
def Ctl.bumpDies (c : Ctl) (f : Fld) : Ctl := c.each (List.range 8) (fun c d => c.bump f d)

/-- `CHK_AFFECT` of every die clears. -/
def Ctl.clearAffect (c : Ctl) : Ctl := c.each (List.range 64) (fun c w => c.each (List.range 8) (fun c d => c.wr Fld.chk_CHK_AFFECTw_LAYERS 0 d w))

/-- R291: the loss of a verdict. -/
def Token.loss (t : Token) : Nat :=
  if bit t.flags 2 || bit t.flags 3 || bit t.flags 4 then 0x7FC00000
  else if t.lossCount = 0 then 0
  else fp32Round ((checkVal t.lossSum).div (.fin false (Mag.ofNat t.lossCount)))

/-- The step record of an attempt enters the ring. -/
def Ctl.writeRecord (c : Ctl) (r : StepRec) : Ctl :=
  { c with job := { c.job with
    recs := c.job.recs.set c.job.recNext r
    recNext := (c.job.recNext + 1) % 4096 } }

/-- The record of an attempt with a verdict. -/
def Ctl.verdictRecord (c : Ctl) (t : Token) (outcome gnorm clip step : Nat) : StepRec :=
  { step := step, attempt := c.job.attempt, outcome := outcome, nonfiniteRun := c.nonfiniteRun, flags := t.flags,
    planSeq := c.job.planSeq, gnorm := gnorm, clip := clip, loss := t.loss, modules := t.modules, genAdvance := c.job.streamAdvance,
    genDigest := c.genDigest, checkUs := c.job.checkUs, dropped := t.dropped }

/-- Step 3 of R283: a seal, or a SEAL_REQ carried to the next committed boundary. -/
def Module.boundarySeal (m : Module) (committed due : Bool) (t0 : Nat) : Module :=
  let want := due || m.ctl.gen.sealCarried
  let m := m.onCtl (fun c => { c with gen := { c.gen with sealCarried := want && !committed } })
  if want && committed then m.seal t0 else m

/-- JOB_STOPPED: the module holds. -/
def Ctl.stopJob (c : Ctl) : Ctl :=
  ({ c with job := { c.job with
    held := true
    runLeft := 0 } }).post 0x0702 1 dieHD 0xFF []

/-- R391, R378: generation settings come into force, SG_MTBF with them; N follows where its own setting or `FLEET_MTBF` has changed. -/
def Ctl.genInForce (c : Ctl) : Ctl :=
  let old := c.gen.set
  let c := { c with gen := { c.gen with set := c.gen.setNext } }
  if old.getD 1 0 = c.gset 1 ∧ old.getD 4 0 = c.gset 4 then c.showPrecursors else c.setInterval

/-- Event 3 of Table 16-11: an activation that waits for the point reached here, its new firmware booted. -/
def Ctl.handover (c : Ctl) : Ctl := if c.sec.updState = 3 ∧ c.sec.hoReady = true then { c with sec := { c.sec with updState := 5 } } else c

/-- Steps 4 to 6 of R283, the settings that wait for the boundary, and the durability report. -/
def Ctl.boundaryRest (c : Ctl) (stop hold : Bool) : Ctl :=
  let last := c.lastAttempt
  let c := { c with job := { c.job with runLeft := c.job.runLeft - 1 } }
  let c := if stop || last then c.stopJob else c
  let c := if hold then { c with job := { c.job with
      held := true
      runLeft := 0 } } else c
  let c := c.handover
  let c := c.adoptTimetable
  ({ c with job := { c.job with stepSet := c.job.stepNext } }).genInForce.showState.reportDue

/-- The dies leave the step. -/
def Ctl.leaveStep (c : Ctl) (step : Nat) : Ctl :=
  let c := c.each c.activeDies (fun c d => (c.setPhase d 3 step).onDie d (fun x => { x with step := StepRun.reset }))
  { c with job := { c.job with
    phase := .idle
    own := none
    tokenSent := false
    up := false
    verdict := none } }

/-- The step boundary after an attempt at a step: what the check agreed, whether the step committed, the verdict's flags, and whether the module holds. -/
def Module.boundary (m : Module) (step : Nat) (a : Agreed) (committed : Bool) (flags : Nat) (hold : Bool) : Module :=
  let m := m.dropBad
  let t := m.ctl.stamp dieHD
  let m := { m with ctl := (((t.2.leaveStep step).noteStep committed).returnPlans committed).planBoundary a committed }
  (m.boundarySeal committed (bit flags 7) t.1).onCtl (·.boundaryRest (bit flags 6) hold)

def Token.agreed (t : Token) : Agreed := if bit t.flags 8 then .split else .same

/-! ### Commit -/

/-- R276: every die has reported. Log 123 (DEDUCED). -/
def Module.commitStep (m : Module) (t : Token) : Module :=
  let st := m.ctl.stamp dieHD
  let c := st.2
  let us := (st.1 + 2 ^ 64 - c.job.stepStamp) % 2 ^ 64 / 1000
  let step := c.job.step
  let c := ({ c with job := { c.job with step := step + 1 } }).wrDies Fld.chk_CHK_RUN_NONFINITE_RUN 0
  let c := (c.wrDies Fld.chk_CHK_STEP (step + 1)).clearAffect
  let c := (c.writeRecord (c.verdictRecord t 0 (c.rd Fld.chk_CHK_GNORM) (c.rd Fld.chk_CHK_CLIP) step)).planCommit
  ({ m with ctl := c.stepTook us c.job.during }).boundary step t.agreed true t.flags false

/-- A die reports when its apply runs are over and its COMMIT has taken effect. -/
def Ctl.applyOver (c : Ctl) (d : Nat) : Bool :=
  let x := c.die d
  c.job.phase == .applying && x.step.active && !x.step.applied && c.runsOver d && decide (x.step.commitFrom < x.epoch) && x.fence.isNone

/-- APPLY_DONE. -/
def Module.applyDone (m : Module) (d : Nat) : Module :=
  let m := m.onCtl (·.onDie d (fun x => { x with step := { x.step with applied := true } }))
  match m.ctl.activeDies.all (fun d => (m.ctl.die d).step.applied), m.ctl.job.verdict with
  | true, some t => m.commitStep t
  | _, _ => m

def execApplyDone (die : Nat) (s : State) : Host.Outcome State Fault Refusal :=
  if s.m.ctl.dieUp die && s.m.ctl.applyOver die then .next (s.onM (·.applyDone die)) else .next s

/-! ### Discard -/

/-- R277: the layers of a die whose provisional ACT or GRAD record holds +∞ are marked. Log 122 (DEDUCED). -/
def Ctl.markAffect (c : Ctl) (d : Nat) : Ctl :=
  let ls := ((c.die d).layers.filter (fun (p : Nat × LayerRec) => (p.2.prov.take 2).any (fun r => r.amax == 0x7F800000))).map (·.1)
  c.each ls (fun c l => c.wr Fld.chk_CHK_AFFECTw_LAYERS (setBit (c.rd Fld.chk_CHK_AFFECTw_LAYERS d (l / 32)) (l % 32) true) d (l / 32))

/-- The cores of a die write DISCARD; it takes effect where no merge is before it. Log 124 (DEDUCED). -/
def Ctl.discardDie (c : Ctl) (d : Nat) : Ctl :=
  let c := c.fenceWrite d false
  if (c.die d).before then c else c.fenceEffect d

def Ctl.discardDies (c : Ctl) : Ctl := c.each c.activeDies Ctl.discardDie

/-- The affected layers of the module. -/
def Ctl.affected (c : Ctl) : List Nat :=
  (List.range 2048).filter (fun l => (List.range 8).any (fun d => bit (c.rd Fld.chk_CHK_AFFECTw_LAYERS d (l / 32)) (l % 32)))

/-- The 256-byte map of a list of layers. -/
def layerMap (ls : List Nat) : List Nat :=
  (List.range 256).map (fun b => (List.range 8).foldl (fun v i => flagIf v i (ls.contains (8 * b + i))) 0)

/-- NONFINITE_ALARM (R278, R437). -/
def Ctl.nonfiniteAlarm (c : Ctl) : Ctl :=
  if c.nonfiniteRun < 3 then c
  else
    let ls := c.affected
    let c := { c with job := { c.job with
      alarmLayers := ls.foldl addNew c.job.alarmLayers
      affectMaps := [layerMap ls] } }
    let c := c.post 0x0302 0 dieHD 0xFF (le 4 ls.length ++ ((List.range 12).map (fun i => le 2 (ls.getD i 0xFFFF))).flatten)
    (c.wrDies Fld.chk_CHK_RUN_NONFINITE_RUN 0).clearAffect

/-- NONFINITE_STEP (R277). -/
def Ctl.nonfinite (c : Ctl) (t : Token) : Ctl :=
  let run := min 255 (c.nonfiniteRun + 1)
  let c := (c.wrDies Fld.chk_CHK_RUN_NONFINITE_RUN run).bumpDies Fld.chk_CHK_NONFIN_CNT_COUNT
  (c.post 0x0301 1 dieHD 0xFF (le 2 t.flags ++ [run])).nonfiniteAlarm

/-- STEP_MISMATCH (R282). Log 122 (DEDUCED). -/
def Ctl.mismatch (c : Ctl) (t : Token) : Ctl := (c.bumpDies Fld.chk_CHK_MISMATCH_CNT_COUNT).post 0x0304 0 dieHD 0xFF (le 8 t.step)

/-- A verdict without PASS. -/
def Module.failStep (m : Module) (t : Token) : Module :=
  let apart := bit t.flags 9
  let c := (m.ctl.each m.ctl.activeDies Ctl.markAffect).discardDies
  let c := if apart then c.mismatch t else c.nonfinite t
  let c := c.writeRecord (c.verdictRecord t (if apart then 3 else 1) 0 0 c.job.step)
  ({ m with ctl := c }).boundary m.ctl.job.step t.agreed false t.flags apart

/-- A step without a verdict (R280): its record's fields that come from one are open. Log 121 (DESIGN CHOICE). -/
def Ctl.timeoutRecord (c : Ctl) : Ctl :=
  let l := c.fresh
  let mo := l.2.fresh
  let dr := mo.2.fresh
  let us := dr.2.fresh
  let r : StepRec :=
    { step := c.job.step, attempt := c.job.attempt, outcome := 2, nonfiniteRun := c.nonfiniteRun, flags := 0,
      planSeq := c.job.planSeq, gnorm := 0, clip := 0, loss := l.1 % 2 ^ 32, modules := mo.1 % 2 ^ 32,
      genAdvance := c.job.streamAdvance, genDigest := c.genDigest, checkUs := us.1 % 2 ^ 32, dropped := dr.1 % 2 ^ 32 }
  us.2.writeRecord r

/-- R280, with its alarm or, in a hold, without (R384). A request to stop that met no verdict rides in the next token. Log 122 (DEDUCED). -/
def Module.timeoutStep (m : Module) (alarm hold : Bool) : Module :=
  let stop := m.ctl.job.stopReq || (match m.ctl.job.own with | some t => bit t.flags 6 | none => false)
  let c := (m.ctl.discardDies).bumpDies Fld.chk_CHK_TIMEOUT_CNT_COUNT
  let c := if alarm then c.post 0x0303 0 dieHD 0xFF [] else c
  let c := c.timeoutRecord
  let c := { c with job := { c.job with
    children := []
    stopReq := stop && !c.lastAttempt } }
  ({ m with ctl := c }).boundary m.ctl.job.step .silent false 0 hold

def execCheckTimeout (s : State) : Host.Outcome State Fault Refusal :=
  if s.m.ctl.job.phase == .running && s.m.ctl.job.tokenSent then .next (s.onM (·.timeoutStep true false)) else .next s

/-! ## The verdict (R273, R274, R276) -/

/-- R274: G. A negative `NORM_SQ` has no root. Log 119 (DEDUCED). -/
def Token.gnorm (t : Token) : Nat :=
  match fp32Val t.norm32 with
  | .fin n q => if n && !q.isZero then Config.openValue 7 [t.norm32] % 2 ^ 32 else fp32Round (.fin false (sqrtMag q))
  | _ => t.norm32

/-- R274: c. -/
def Ctl.clip (c : Ctl) (g : Nat) : Nat :=
  let top := fp32Val (c.job.stepSet.getD 1 0)
  if c.job.stepSet.getD 0 0 = 1 ∧ top.lt (fp32Val g) = true then fp32Round (top.div (fp32Val g)) else 0x3F800000

/-- The verdict in the registers of the dies. Log 118 (DEDUCED). -/
def Ctl.showVerdict (c : Ctl) (t : Token) : Ctl :=
  let c := c.wrDies Fld.chk_CHK_VERDICT_FLAGS t.flags
  c.each c.activeDies (fun c d => (c.wr Fld.chk_CHK_STATE_VERDICT 1 d).wrB Fld.chk_CHK_STATE_PASS t.pass d)

/-- V14 and V15 of a die. Log 118 (DEDUCED). -/
def Module.tellUnits (m : Module) (d count clip : Nat) : Module :=
  (List.range 16).foldl (fun m v => (m.vregWrite d v 14 0 count).vregWrite d v 15 0 clip) m

/-- A die enters apply. -/
def Ctl.startApply (c : Ctl) (d : Nat) : Ctl :=
  match c.dieRec d with
  | none => c
  | some r =>
    let c := (c.setPhase d 2 c.job.step).onDie d (fun x => { x with step := { x.step with commitFrom := x.epoch } })
    c.each (maskQueues r.apply) (fun c q => c.startRun d 0 q)

/-- A verdict with PASS. A module none of whose dies takes part has nothing to apply. -/
def Module.passStep (m : Module) (t : Token) : Module :=
  let g := t.gnorm
  let clip := m.ctl.clip g
  let m := m.onCtl (fun c => ((c.wrDies Fld.chk_CHK_GNORM g).wrDies Fld.chk_CHK_CLIP clip))
  let m := m.ctl.activeDies.foldl (fun m d => m.tellUnits d ((m.ctl.job.step + 1) % 2 ^ 31) clip) m
  let m := m.onCtl (fun c => ({ c with job := { c.job with
    phase := .applying
    verdict := some t } }).each c.activeDies Ctl.startApply)
  if m.ctl.activeDies.isEmpty then m.commitStep t else m

/-- The verdict reaches the module. -/
def Module.takeVerdict (m : Module) (t : Token) : Module :=
  let st := m.ctl.stamp dieHB
  let us := (st.1 + 2 ^ 64 - m.ctl.job.sentStamp) % 2 ^ 64 / 1000
  let c := ({ st.2 with job := { st.2.job with checkUs := us % 2 ^ 32 } }).showVerdict t
  let m := { m with ctl := c }
  if t.pass then m.passStep t else m.failStep t

/-- The verdict as it comes to this module: its own at the root; another node sends it on. -/
def Ctl.verdictIn (c : Ctl) (b : List Nat) : Option (Token × Ctl) :=
  match c.checkGroup with
  | none => none
  | some g =>
    if g.root then c.job.verdict.map (fun t => (t, c))
    else (tokenOf b).map (fun t => (t, c.toChildren g t.bytes))

def execVerdictReceive (bytes : List Nat) (s : State) : Host.Outcome State Fault Refusal :=
  let c := s.m.ctl
  if c.job.phase == .running && c.job.up then
    match c.verdictIn bytes with
    | some (t, c') => .next (s.onM (fun m => ({ m with ctl := c' }).takeVerdict t))
    | none => .next s
  else .next s

end Sys2Proof.Machine
end

