-- ==== Sys2Proof/Machine/Restore.lean ====
section
/-! DEFINITION. Hold, local restore, replacement restore, rejoin, and Roll Call replay (R384 to R390). -/

namespace Sys2Proof.Machine

/-! ## HOLD (R384) -/

/-- A descriptor that waits at stage 2 or 4 of Table 9-5 is removed; it has been granted nothing (R249). Log 133 (DEDUCED). -/
def Ctl.flushWaiting (c : Ctl) (x : Nat × Nat × Nat) : Ctl :=
  let c := (c.hpForget (.desc x.1 x.2.1 x.2.2)).onDesc x.1 x.2.1 x.2.2 (fun d => { d with units := 0 })
  let c := c.finishDesc x.1 x.2.1 x.2.2 errFlushed false
  c.onDie x.1 (fun d => { d with waiters := d.waiters.filter (fun w => w.2 != x.2.1) })

/-- The descriptors of a die in some stages: die, queue, sequence number. -/
def Ctl.descsIn (c : Ctl) (l : List DStage) : List (Nat × Nat × Nat) :=
  ((List.range 8).map (fun d => ((c.die d).queues.map (fun (p : Nat × QueueSt) =>
    (p.2.live.filter (fun x => l.contains x.stage)).map (fun x => (d, p.1, x.seq)))).flatten)).flatten

/-- R24, R384: a generation newer than `JOB_DURABLE` is given up. Log 182 (DEDUCED). -/
def Module.abandonNewer (m : Module) (k : Nat) : Module :=
  let g := m.ctl.gslot k
  if g.state != 0 && decide (m.ctl.durable < g.gen) then m.abandon k else m

/-- Items 1 to 3 of R384; the local restore follows. Log 133 (DEDUCED). -/
def Module.enterHold (m : Module) : Module :=
  let m := m.onCtl (fun c => (c.wr Fld.st_ST_STATE_STAGE 4).each (c.descsIn [.wait, .grant]) Ctl.flushWaiting)
  let m := if m.ctl.job.phase == .idle then m else m.timeoutStep false true
  let m := (m.abandonNewer 0).abandonNewer 1
  m.onCtl (fun c => { c with
    job := { c.job with
      held := true
      runLeft := 0
      stopReq := false }
    gen := { c.gen with
      holdDue := true
      restored := false
      rollEarly := []
      restore := none } })

/-! ## Local restore (R385) -/

/-- The home lines that a span of an image's poisoned slot lines reach. -/
def Ctl.homePoison (c : Ctl) (home src len : Nat) : List Nat :=
  ((c.poison.filter (fun l => decide (src / 64 ≤ l ∧ l * 64 < src + len))).map (fun l =>
    let a := max src (l * 64)
    let e := min (src + len) (l * 64 + 64)
    spanLines (home + (a - src)) (e - a))).flatten

/-- One span of an image goes home; what names no memory is discarded with ADDR_INVALID (R297). -/
def Module.spanHome (m : Module) (base : Nat) (p : Nat × Nat × Nat) : Module :=
  let src := base + p.2.2
  let bad := (m.ctl.homePoison p.1 src p.2.1).filter (fun l => namesMemory (l * 64))
  (m.storeNamed dieHB 0xFF p.1 (memRead m.mem src p.2.1)).onCtl (fun c => c.each bad (fun c l => c.setPoison l true))

/-- An image goes home, row by row. -/
def Module.imageHome (m : Module) (k : Nat) (x : Image) : Module :=
  let base := m.ctl.slotBase k + x.off
  (imageSpans x.t).foldl (fun m p => m.spanHome base p) m

/-- A module section goes home. -/
def Module.sectionHome (m : Module) (k : Nat) (x : Image) : Module :=
  let b := m.imageBytes k x
  m.onCtl (·.putSection x.key b)

/-- What the plan remembers outside its entries follows them. Log 136 (DEDUCED). -/
def Ctl.replanFrom (c : Ctl) (seq : Nat) : Ctl :=
  let runs := (c.steeredLayers.map (fun l => [1, 2, 3].map (fun r => ((l, r), match c.steeredEntry l with | some p => p.narrowRun | none => 0)))).flatten
  { c with job := { c.job with
    planSeq := seq
    narrow := runs
    calm := []
    fallDue := []
    idle := []
    runCounted := true
    propFalls := []
    propLr := []
    propAlarm := []
    raise := []
    urLow := []
    urHigh := []
    urCount := 0
    lrMove := []
    fell := []
    propDue := false
    propRound := false
    proposals := []
    heard := []
    early := []
    combined := none } }

/-- The counters and marks of the generation engine stand as they stood after the seal of the generation restored. Log 136 (DEDUCED). -/
def Ctl.rewindGen (c : Ctl) (g : GenSlot) : Ctl :=
  let c := { c with gen := { c.gen with
    written := []
    change := []
    changedSince := []
    sealNow := false
    sealCarried := false
    report := none
    reports := []
    nextGen := g.gen + 1 } }
  (c.wr Fld.sg_SG_DURABLE_GEN (max c.durable g.gen)).wr Fld.sg_SG_DUE_STEP (g.step + c.rd Fld.sg_SG_INTERVAL)

/-- R385: everything a slot holds is written back, but for the Roll Call record. Log 136 (DEDUCED). -/
def Module.writeBack (m : Module) (k : Nat) : Module :=
  let g := m.ctl.gslot k
  let m := (g.images.filter (fun x => !x.isSect)).foldl (fun m x => m.imageHome k x) m
  let m := (g.images.filter (fun x => x.isSect)).foldl (fun m x => m.sectionHome k x) m
  m.onCtl (fun c =>
    let c := ({ c with job := { c.job with step := g.step } }).wrDies Fld.chk_CHK_STEP g.step
    ((c.replanFrom g.planSeq).rewindGen g).each (List.range 8) Ctl.restartLesson)

/-! ### Healing, and what a replacement asks for (R385, R386) -/

/-- An entry from one member, whose data it is. -/
def Image.wantFrom (x : Image) (rank origin : Nat) : List Want :=
  (extentOfs x.len).map (fun o => ⟨rank, false, origin, x.isSect, x.key, x.die, o⟩)

/-- A strip of this module's own: from its holder, and from the other members that the rule assigns to (h, q), each its own. -/
def GroupEnt.wantStrip (g : GroupEnt) (j : Nat) : List Want :=
  let b := g.block g.rank
  let h := holderOf (g.rank - b.1) j b.2
  let helpers := (List.range b.2).filter (fun i => i != g.rank - b.1 && i != h.1)
  ((extentOfs stripLen).map (fun o => ⟨b.1 + h.1, true, g.rank, false, j, 0, o⟩))
    ++ (helpers.map (fun i => (extentOfs stripLen).map (fun o => ⟨b.1 + i, true, b.1 + i, false, stripFor i h.1 h.2 b.2, 0, o⟩))).flatten

/-- The surviving members of a REPLICA set, which supply its images, in rank order; as ranks of the PROTECT group. Each is asked: a
frame carries no `CRC`, so that the directory `CRC`s are compared on what comes. Log 134 (DEDUCED). -/
def Ctl.replicaRanks (c : Ctl) (g : GroupEnt) (repl : List (Nat × Nat)) (rset : Nat) : List Nat :=
  match c.group rset with
  | none => []
  | some s =>
    let alive := (List.range s.members.length).filter (fun i => s.coordOf i != c.coord && !repl.any (fun r => r.2 == s.coordOf i))
    alive.filterMap (fun i => (List.range g.members.length).find? (fun r => g.coordOf r == s.coordOf i))

/-- Where a slot's PARITY images lie in the parity stream: the strips that hold a part of an image. -/
def stripsOf (l : List Image) (x : Image) : List Nat :=
  let before := ((parityOf l).takeWhile (fun y => !(y.die == x.die && y.key == x.key))).foldl (fun n y => n + y.len) 0
  (List.range (streamStrips l)).filter (fun j => decide (before < (j + 1) * stripLen ∧ j * stripLen < before + x.len))

/-- What rebuilds an entry; nothing where no other source exists. Log 134 (DEDUCED). -/
def Ctl.sourceOf (c : Ctl) (g : GroupEnt) (repl : List (Nat × Nat)) (l : List Image) (x : Image) : List Want :=
  if g.members.length < 2 then []
  else if x.isSect || x.kind == 2 || (x.kind == 3 && (g.block g.rank).2 == 1) then x.wantFrom (g.buddy g.rank) g.rank
  else if x.kind == 1 then ((c.replicaRanks g repl x.rset).map (fun r => x.wantFrom r r)).flatten
  else ((stripsOf l x).map g.wantStrip).flatten

/-- REQUEST: it names whose data it is. -/
def Ctl.askFor (c : Ctl) (g : GroupEnt) (gen : Nat) (w : Want) : Ctl :=
  c.sendBulk g w.rank ⟨gen, 6, w.isSect, w.origin, w.key, w.kdie, w.offset, 0⟩ []

/-- R385: does the local copy of an entry show as bad? -/
def Module.entryBad (m : Module) (k : Nat) (x : Image) : Bool :=
  x.bad || m.ctl.badSpan (m.ctl.slotBase k + x.off) x.len || crc32c (m.imageBytes k x) != x.crc

/-- The entries of a slot that are bad and have another source. Log 134 (DEDUCED). -/
def Module.badEntries (m : Module) (k : Nat) : List Image :=
  let s := m.ctl.gslot k
  match s.protect with
  | none => []
  | some g => s.images.filter (fun x => m.entryBad k x && !(m.ctl.sourceOf g [] s.images x).isEmpty)

/-- REQUESTs go out for entries of a slot. Log 134 (DEDUCED). -/
def Module.gather (m : Module) (k : Nat) (g : GroupEnt) (repl : List (Nat × Nat)) (replacement : Bool) (xs : List Image) : Module :=
  let s := m.ctl.gslot k
  let want := ((xs.map (m.ctl.sourceOf g repl s.images)).flatten).foldl (fun l w => if l.contains w then l else l ++ [w]) []
  let shared := xs.filter (fun x => !x.isSect && (x.kind == 1 || (x.kind == 3 && decide (2 ≤ (g.block g.rank).2))))
  let r : RestoreRun :=
    { gen := s.gen, repl := repl, replacement := replacement, want := want, rebuild := shared.map (fun x => (x.die, x.key)),
      isLocal := false, replayed := false,
      digests := (match m.ctl.gen.restore with | some r => r.digests | none => []), own := 0, answer := none, asked := true, heap := [] }
  m.onCtl (fun c =>
    let c := c.onSlot k (fun s => { s with rx := s.rx.filter (fun f => f.kind != 4) })
    ({ c with gen := { c.gen with restore := some r } }).each want (fun c w => c.askFor g s.gen w))

/-- Write a line of an entry in the slot. -/
def Module.putLine (m : Module) (k : Nat) (x : Image) (i : Nat) (l : List Nat × Bool) : Module :=
  if i * 64 < x.len then
    let a := m.ctl.slotBase k + x.off + 64 * i
    (m.write a l.1).onCtl (·.setPoison (a / 64) l.2)
  else m

/-- The lines of an image that have come from one source; zeros where none has. -/
def Module.heapLines (m : Module) (k : Nat) (r : RestoreRun) (src : Option Nat) (x : Image) : List (List Nat × Bool) :=
  (List.range (x.len / 64)).map (fun i => Tab.get (List.replicate 64 0, false) r.heap (src, m.ctl.slotBase k + x.off + 64 * i))

/-- Lines take the place of an image's. -/
def Module.putImage (m : Module) (k : Nat) (x : Image) (l : List (List Nat × Bool)) : Module :=
  l.zipIdx.foldl (fun m (p : (List Nat × Bool) × Nat) => m.putLine k x p.2 p.1) m

/-- R386: the copy of a REPLICA image to take, of those that have come whole, in rank order: the lowest-ranked that agrees with
another; where none does, the lowest-ranked. Log 134 (DEDUCED). -/
def pickCopy (l : List (List (List Nat × Bool))) : Option (List (List Nat × Bool)) :=
  let code (x : List (List Nat × Bool)) : Nat := crc32c (x.map (·.1)).flatten
  (((l.zipIdx.filter (fun p => l.zipIdx.any (fun q => q.2 != p.2 && code q.1 == code p.1))).map (·.1)) ++ l).head?

/-- An image that was asked for is rebuilt from what has come whole; else it stands as it is (R385). -/
def Module.adoptImage (m : Module) (k : Nat) (g : GroupEnt) (r : RestoreRun) (x : Image) : Module :=
  if x.kind == 1 then
    let whole := (m.ctl.replicaRanks g r.repl x.rset).filter (fun q =>
      !r.want.any (fun w => !w.strip && !w.isSect && w.rank == q && w.key == x.key && w.kdie == x.die))
    match pickCopy (whole.map (fun q => m.heapLines k r (some q) x)) with
    | some l => m.putImage k x l
    | none => m
  else
    let due := ((stripsOf (m.ctl.gslot k).images x).map g.wantStrip).flatten
    if due.any r.want.contains then m else m.putImage k x (m.heapLines k r none x)

/-- R385, R386: the images that several answers together rebuild enter the slot. Log 134 (DEDUCED). -/
def Module.adopt (m : Module) (k : Nat) (r : RestoreRun) : Module :=
  match m.ctl.slotGroup k with
  | none => m
  | some g => ((m.ctl.gslot k).images.filter (fun x => !x.isSect && r.rebuild.contains (x.die, x.key))).foldl
      (fun m x => m.adoptImage k g r x) m

/-- HOLD_READY. -/
def Module.holdReady (m : Module) : Module :=
  m.onCtl (fun c =>
    let c := ({ c with gen := { c.gen with
      holdDue := false
      restore := none } }).wr Fld.sg_SG_STATE 4
    (c.showGen.post 0x0608 1 dieHB 0xFF (le 4 c.durable)).handover)

/-- The local restore of a hold: bad entries that have another source are asked for first; what has not come by the next
LOCAL_RESTORE counts as having no source. Log 133 (DEDUCED). -/
def Module.holdRestore (m : Module) : Module :=
  let m := m.dropBad
  match (if m.ctl.durable = 0 then none else m.ctl.slotOfGen m.ctl.durable) with
  | none => m.holdReady
  | some k =>
    let bad := m.badEntries k
    match m.ctl.gen.restore, (m.ctl.gslot k).protect with
    | none, some g => if bad.isEmpty then (m.writeBack k).holdReady else m.gather k g [] false bad
    | some r, _ => ((m.adopt k r).writeBack k).holdReady
    | none, none => (m.writeBack k).holdReady

/-! ## A replacement, and a survivor that has reset (R386, R389) -/

/-- A module out of reset with every far channel kept and a sound record of g. Log 137 (DEDUCED). -/
def Module.survives (m : Module) (gen : Nat) : Option Nat :=
  match m.ctl.slotOfGen gen with
  | some k => if m.recordOk k && (List.range 64).all (fun x => m.ctl.on Fld.fc_FC_STATE_KEPT x) then some k else none
  | none => none

/-- A replacement does not know which way an AUTO image that is no small one was protected. Log 135 (DESIGN CHOICE). -/
def Ctl.guessMethods (c : Ctl) (gen : Nat) (l : List Image) : List Image :=
  l.map (fun x =>
    let auto := c.captured.any (fun y => y.1 == x.die && y.2.1 == x.tensor && (attrOf y.2.2).1 == 4)
    if x.isSect || !auto || decide (x.len < c.gset 6 * 1048576) then x
    else { x with kind := if Config.openValue 9 [gen, x.die, x.key] % 2 = 0 then 2 else 3 })

/-- The slot that a replacement builds g in, before its data has come. Log 135 (DESIGN CHOICE). -/
def Ctl.emptySlot (c : Ctl) (gen : Nat) : GenSlot :=
  { GenSlot.reset with
    rank := (match c.protectGroup with | some g => g.rank | none => 0)
    gen := gen
    jobId := c.job.id
    lessonIds := (List.range 8).map c.lessonId
    ttId := (match c.job.timetable, c.job.timetableNext with | _, some t => t.id | some t, none => t.id | none, none => 0)
    images := c.guessMethods gen c.sealImages
    protect := c.protectGroup }

/-- The data of a replacement has come: its slot is written and PROTECTED. Log 135 (DESIGN CHOICE). -/
def Module.slotBuilt (m : Module) (k : Nat) : Module :=
  let l := m.imageCrcs k
  let sect (n : Nat) : List Nat := match l.find? (fun x => x.isSect && x.key == n) with | some x => m.imageBytes k x | none => []
  let seq := ((List.range 16384).map (fun i => fieldAt (sect 2) (32 * i + 16) 4)).foldl max 0
  let st := m.ctl.stamp dieHD
  let m := { m with ctl := st.2 }
  let bad (x : Image) : Bool := m.ctl.badSpan (m.ctl.slotBase k + x.off) x.len
  (m.onCtl (·.onSlot k (fun x => { x with
    state := 3
    flags := b2n (l.any bad)
    images := l.map (fun x => { x with bad := bad x })
    step := fieldAt (sect 3) (fieldAt (sect 3) 8 4) 8
    planSeq := seq
    rcSeq := fieldAt (sect 3) 16 4
    digest := crc32c (padTo 8388608 (sect 0))
    sealStamp := st.1
    localStamp := st.1 }))).putRecord k

/-- The slot's contents go home, and the module is in HOLD. -/
def Module.restoreFrom (m : Module) (k : Nat) (r : RestoreRun) : Module :=
  (m.writeBack k).onCtl (fun c => ({ c with gen := { c.gen with
    restore := some { r with isLocal := true } } }.wr Fld.st_ST_STATE_STAGE 4).showGen)

/-- LOCAL_RESTORE of a replacement, or of a survivor that has reset, whose bad entries are asked for first (R385). Log 133 (DEDUCED).
Log 135 (DESIGN CHOICE). -/
def Module.replacementRestore (m : Module) (r : RestoreRun) : Module :=
  match [0, 1].find? (fun k => (m.ctl.gslot k).gen == r.gen) with
  | none => m
  | some k =>
    if r.replacement then ((m.adopt k r).slotBuilt k).restoreFrom k r
    else
      let bad := if r.asked then [] else m.badEntries k
      match (m.ctl.gslot k).protect with
      | some g => if bad.isEmpty then (m.adopt k r).restoreFrom k r else m.gather k g r.repl false bad
      | none => (m.adopt k r).restoreFrom k r

/-- R386: has a replacement all it asked for, and what it is to hold for others? A survivor goes on with what has come. -/
def Module.restoreReady (m : Module) (r : RestoreRun) : Bool :=
  !r.isLocal && (!r.replacement || (r.asked && r.want.isEmpty && (match [0, 1].find? (fun k => (m.ctl.gslot k).gen == r.gen) with
    | some k => m.holdsAll k
    | none => false)))

/-! ### GEN_UNRECOVERABLE -/

/-- The ranks of the replacements in a group. -/
def GroupEnt.ranksOf (g : GroupEnt) (repl : List (Nat × Nat)) : List Nat :=
  (List.range g.members.length).filter (fun r => repl.any (fun p => p.2 == g.coordOf r))

/-- A REPLICA set all of whose members are to be replaced. -/
def Ctl.setLost (c : Ctl) (repl : List (Nat × Nat)) (rset : Nat) : Bool :=
  match c.group rset with
  | some s => s.members.all (fun (p : Nat × Nat) => repl.any (fun r => r.2 == p.1))
  | none => true

/-- The entries of this module's tensors that cannot be rebuilt, were it one of the replacements. Log 137 (DEDUCED). -/
def Ctl.lostImages (c : Ctl) (repl : List (Nat × Nat)) (l : List Image) : List Image :=
  match c.protectGroup with
  | none => l
  | some g =>
    let failed := g.ranksOf repl
    let b := g.block g.rank
    let buddyLost := decide (g.members.length < 2) || failed.contains (g.buddy g.rank)
    let blockLost := decide (2 ≤ (failed.filter (fun r => decide (b.1 ≤ r ∧ r < b.1 + b.2))).length)
    l.filter (fun x =>
      if x.isSect || x.kind == 2 then buddyLost
      else if x.kind == 3 then (if b.2 == 1 then buddyLost else blockLost)
      else c.setLost repl x.rset)

/-- Is any source needed for g lost, on any module (R386)? A replacement that has no PROTECT group yet knows of none. Log 137 (DEDUCED). -/
def Ctl.unrecoverable (c : Ctl) (repl : List (Nat × Nat)) : Bool :=
  match c.protectGroup with
  | none => !repl.any (fun p => p.2 == c.coord)
  | some g =>
    let failed := g.ranksOf repl
    let sets := (c.captured.map (fun x => attrOf x.2.2)).filter (fun a => a.1 == 1)
    failed.any (fun r => failed.contains (g.buddy r))
      || failed.any (fun r => failed.any (fun q => q != r && g.block q == g.block r))
      || sets.any (fun a => (match c.group a.2.1 with | some s => decide (2 ≤ s.members.length) | none => false) && c.setLost repl a.2.1)

/-- The alarm. A survivor does not know what another module's images are: its list is open. -/
def Ctl.postLost (c : Ctl) (gen : Nat) (repl : List (Nat × Nat)) : Ctl :=
  if repl.any (fun p => p.2 == c.coord) then
    let l := c.lostImages repl (c.guessMethods gen c.sealImages)
    let t := (l.filter (fun x => !x.isSect))
    c.post 0x060A 0 dieHB 0xFF (le 4 gen ++ le 4 t.length ++ ((t.take 4).map (fun x => x.die :: le 4 x.key)).flatten)
  else
    let n := c.fresh
    let b := n.2.fresh
    b.2.post 0x060A 0 dieHB 0xFF (le 4 gen ++ le 4 n.1 ++ le 20 b.1)

/-! ### RESTORE and REJOIN -/

/-- A survivor that has reset begins its restore. -/
def RestoreRun.survivor (gen : Nat) (repl : List (Nat × Nat)) (isLocal : Bool) : RestoreRun :=
  { gen := gen, repl := repl, replacement := false, want := [], rebuild := [], isLocal := isLocal, replayed := false, digests := [],
    own := 0, answer := none, asked := false, heap := [] }

def Ctl.setRestore (c : Ctl) (r : RestoreRun) : Ctl :=
  ({ c with gen := { c.gen with
    restore := some r
    restored := false } }).wr Fld.sg_SG_STATE 5

/-- A replacement begins: slot 0 is built anew. One that has no PROTECT group yet asks once it has (LOCAL_RESTORE). Log 137 (DEDUCED). -/
def Module.replace (m : Module) (gen : Nat) (repl : List (Nat × Nat)) : Module :=
  let m := m.onCtl (fun c => (((c.endDrain 0).endDrain 1).onSlot 1 (fun _ => GenSlot.reset)).onSlot 0 (fun _ => c.emptySlot gen))
  match m.ctl.protectGroup with
  | none => m.onCtl (fun c => (c.setRestore { RestoreRun.survivor gen repl false with replacement := true }).showGen)
  | some g => (m.gather 0 g repl true (m.ctl.gslot 0).images).onCtl (fun c => (c.wr Fld.sg_SG_STATE 5).showGen)

/-- What LOCAL_RESTORE finds to do: a local restore, or the REQUESTs of a replacement whose PROTECT group is known now. -/
def Module.localRestore (m : Module) : Option Module :=
  if m.ctl.gen.holdDue then
    (if (m.ctl.descsIn [.wait, .grant, .start, .running]).isEmpty then some m.holdRestore else none)
  else match m.ctl.gen.restore with
    | some r =>
      if m.restoreReady r then some (m.replacementRestore r)
      else if r.replacement && !r.asked && m.ctl.protectGroup.isSome then some (m.replace r.gen r.repl)
      else none
    | none => none

def execLocalRestore (s : State) : Host.Outcome State Fault Refusal :=
  match s.m.localRestore with
  | some m => .next (s.onM (fun _ => m))
  | none => .next s

/-- RESTORE (R386, R389). Log 137 (DEDUCED). -/
def Module.beginRestore (m : Module) (gen : Nat) (repl : List (Nat × Nat)) : Module :=
  match m.survives gen with
  | some _ => m.onCtl (·.setRestore (.survivor gen repl false))
  | none => if m.ctl.unrecoverable repl then m.onCtl (·.postLost gen repl) else m.replace gen repl

/-- What a replaced member held for this module is owed to it again: the mirrors, and every strip assigned to it, in full. -/
def Module.oweAgain (m : Module) (k : Nat) (g : GroupEnt) (failed : List Nat) : Module :=
  let s := m.ctl.gslot k
  let strips := if (g.block g.rank).2 < 2 then [] else ((List.range (streamStrips s.images)).map (fun j => oweStrip g j 3)).flatten
  let owed := (oweMirrors g s.images ++ strips).filter (fun e => failed.contains e.peer)
  (m.onCtl (fun c => (c.onSlot k (fun x => { x with extents := x.extents ++ owed })).askProtect g)).sendProtection

/-- REJOIN (R385 to R387). -/
def Module.rejoin (m : Module) (gen : Nat) (repl : List (Nat × Nat)) : Module :=
  if m.ctl.unrecoverable repl then m.onCtl (·.postLost gen repl)
  else
    let m := m.onCtl (·.setRestore (.survivor gen repl true))
    match m.ctl.slotOfGen gen, m.ctl.protectGroup with
    | some k, some g => m.oweAgain k g (g.ranksOf repl)
    | _, _ => m

/-! ## REQUEST and RESTORE_DATA -/

/-- REQUEST: the extent is owed, and sent. Log 134 (DEDUCED). -/
def Module.requestIn (m : Module) (rank : Nat) (b : List Nat) : Module :=
  match m.ctl.bulkFor 6 rank b with
  | none => m.onCtl Ctl.bulkBad
  | some (k, _, h) =>
    let e : Extent := ⟨rank, 4, h.origin, h.isSect, h.key, h.kdie, h.offset / extentLen * extentLen, 1⟩
    (m.onCtl (·.onSlot k (fun g => { g with extents := g.extents ++ [e] }))).sendOwed k e

def execRequest (rank : Nat) (bytes : List Nat) (s : State) : Host.Outcome State Fault Refusal := .next (s.onM (·.requestIn rank bytes))

/-- The image, with its line number, that holds a line of the parity stream. -/
def streamAt : List Image → Nat → Option (Image × Nat)
  | [], _ => none
  | x :: t, i => if i < x.len / 64 then some (x, i) else streamAt t (i - x.len / 64)

/-- Lines kept for an image that several answers together rebuild. -/
def Ctl.heapUp (c : Ctl) (key : Option Nat × Nat) (f : List Nat × Bool → List Nat × Bool) : Ctl :=
  { c with gen := { c.gen with restore := c.gen.restore.map (fun r => { r with heap := Tab.upd (List.replicate 64 0, false) r.heap key f }) } }

/-- XOR a line into the parity stream, where it belongs to an image that is being rebuilt. -/
def Ctl.xorStream (c : Ctl) (k : Nat) (r : RestoreRun) (i : Nat) (l : List Nat × Bool) : Ctl :=
  match streamAt (parityOf (c.gslot k).images) i with
  | some (x, n) => if r.rebuild.contains (x.die, x.key) then c.heapUp (none, c.slotBase k + x.off + 64 * n) (xorLine · l) else c
  | none => c

/-- This module's own strip that a frame helps to rebuild: the holder names it, another member names its own. -/
def GroupEnt.ownStrip (g : GroupEnt) (rank origin key : Nat) : Nat :=
  if origin = g.rank then key
  else
    let b := g.block g.rank
    let h := holderOf (rank - b.1) key b.2
    stripFor (g.rank - b.1) h.1 h.2 b.2

/-- What a RESTORE_DATA frame answers. -/
def RestoreRun.wanted (r : RestoreRun) (rank : Nat) (h : BulkHdr) : Option Want :=
  r.want.find? (fun w => w.rank == rank && w.origin == h.origin && w.isSect == h.isSect && w.key == h.key && w.kdie == h.kdie
    && w.offset == h.offset / extentLen * extentLen)

/-- The lines of a frame enter the slot. -/
def Module.restoreInto (m : Module) (k : Nat) (r : RestoreRun) (g : GroupEnt) (rank : Nat) (h : BulkHdr) (l : List (List Nat × Bool)) : Module :=
  let imgs := (m.ctl.gslot k).images
  let first := h.offset / 64
  match r.wanted rank h with
  | none => m
  | some w =>
    if w.strip then
      m.onCtl (fun c => c.each l.zipIdx (fun c p => c.xorStream k r (g.ownStrip rank h.origin h.key * 65536 + first + p.2) p.1))
    else match imgs.find? (fun x => x.isSect == h.isSect && x.key == h.key && x.die == h.kdie) with
      | some x =>
        if !x.isSect && x.kind == 1 then
          m.onCtl (fun c => c.each (l.zipIdx.filter (fun p => decide ((first + p.2) * 64 < x.len))) (fun c p =>
            c.heapUp (some rank, c.slotBase k + x.off + 64 * (first + p.2)) (fun _ => (padTo 64 p.1.1, p.1.2))))
        else l.zipIdx.foldl (fun m (p : (List Nat × Bool) × Nat) => m.putLine k x (first + p.2) p.1) m
      | none => m

/-- What has come whole is wanted no more. Log 134 (DEDUCED). -/
def Ctl.gotExtent (c : Ctl) (k rank : Nat) (h : BulkHdr) (n : Nat) : Ctl :=
  match c.gen.restore with
  | none => c
  | some r =>
    if extentWhole (c.gslot k).rx (rxOf rank h n) then
      { c with gen := { c.gen with restore := some { r with want := (match r.wanted rank h with | some w => r.want.erase w | none => r.want) } } }
    else c

/-- RESTORE_DATA: data that is wanted, and not had before, is taken. -/
def Module.restoreData (m : Module) (rank : Nat) (b : List Nat) : Module :=
  match m.ctl.bulkFor 4 rank b, m.ctl.gen.restore with
  | some (k, g, h), some r =>
    let l := bulkLines b
    let had := (m.ctl.gslot k).rx.contains (rxOf rank h l.length)
    let m := if had then m else m.restoreInto k r g rank h l
    m.onCtl (fun c => (c.noteRx k rank h l.length).gotExtent k rank h l.length)
  | _, _ => m.onCtl Ctl.bulkBad

def execRestoreData (rank : Nat) (bytes : List Nat) (s : State) : Host.Outcome State Fault Refusal := .next (s.onM (·.restoreData rank bytes))

/-! ## Roll Call replay (R387) -/

/-- Steps 1 to 3 on a record: `RC_SEQ`, the replacements' `MODULE_ID`, `EPOCH`. -/
def RollCall.replay (x : RollCall) (repl : List (Nat × Nat)) : RollCall :=
  { x with
    seq := (x.seq + 1) % 2 ^ 32
    groups := x.groups.map (fun g =>
      if g.members.any (fun (p : Nat × Nat) => repl.any (fun r => r.2 == p.1)) then
        { g with
          epoch := (g.epoch + 1) % 2 ^ 32
          members := g.members.map (fun (p : Nat × Nat) => match repl.find? (fun r => r.2 == p.1) with | some r => (p.1, r.1) | none => p) }
      else g) }

/-- Step 4: a link of a route that is not fully up. -/
def Ctl.routeOk (c : Ctl) (x : Nat) : Bool :=
  c.active x && c.rd Fld.lk_LK_STATE_WIDTH x == 0
    && c.partner x == some (c.rd Fld.lk_LK_PEER_COORD x, c.rd Fld.lk_LK_PEER_LINK x)

/-- Log 138 (DESIGN CHOICE). -/
def Ctl.checkRoutes (c : Ctl) : Ctl :=
  let ls := (List.range 36).filter (fun x => c.job.roll.groups.any (fun g => bit g.routes x))
  c.each (ls.filter (fun x => !c.routeOk x)) (fun c x => c.post 0x060B 2 (linkDie x) (x % 9) [])

/-- The message that carries a digest up, and an answer down: the digest, and whether digests differ. Log 138 (DESIGN CHOICE). -/
def digestBytes (d : Nat) (differ : Bool) : List Nat := padTo 32 (le 4 d ++ [b2n differ])

/-- ROLLCALL_MISMATCH: the module stays in HOLD. Log 138 (DESIGN CHOICE). -/
def Ctl.rollMismatch (c : Ctl) : Ctl :=
  ((({ c with gen := { c.gen with
    restore := none
    rollEarly := [] } }).wr Fld.sg_SG_STATE 4).post 0x060C 0 dieHB 0xFF []).handover

/-- The root's answer reaches this module. -/
def Ctl.rollAnswer (c : Ctl) (r : RestoreRun) (g : GroupEnt) (differ : Bool) : Ctl :=
  let c := c.toChildren g (digestBytes r.own differ)
  if differ then c.rollMismatch else { c with gen := { c.gen with restore := some { r with answer := some true } } }

/-- The digests of the children with the module's own: to the parent, or, at the root, the answer. Log 138 (DESIGN CHOICE). -/
def Ctl.rollUp (c : Ctl) : Ctl :=
  match c.checkGroup, c.gen.restore with
  | some g, some r =>
    if r.replayed && g.children.all (fun x => r.digests.any (fun d => d.1 == x)) then
      let differ := (r.digests.filter (fun d => g.children.contains d.1)).any (fun d => d.2.2 || d.2.1 != r.own)
      if g.root then c.rollAnswer r g differ else c.toParent g (digestBytes r.own differ)
    else c
  | _, _ => c

/-- ROLLCALL_REPLAY. -/
def Module.replay (m : Module) (r : RestoreRun) (k : Nat) : Module :=
  match (m.ctl.gslot k).images.find? (fun x => x.isSect && x.key == 3) with
  | none => m
  | some x =>
    let rc := (rollCallOf (m.imageBytes k x)).replay r.repl
    m.onCtl (fun c =>
      let c := ({ c with
        seen := []
        job := { c.job with roll := rc }
        gen := { c.gen with
          rollEarly := []
          restore := some { r with
            replayed := true
            digests := c.gen.rollEarly.filter (fun (d : Nat × Nat × Bool) => !r.digests.any (fun x => x.1 == d.1)) ++ r.digests
            own := rc.digest } } }).wr Fld.sg_SG_STATE 6
      c.checkRoutes.rollUp)

def execRollcallReplay (s : State) : Host.Outcome State Fault Refusal :=
  match s.m.ctl.gen.restore with
  | some r =>
    (match s.m.ctl.slotOfGen r.gen with
     | some k => if r.isLocal && !r.replayed && !s.m.ctl.gen.holdDue then .next (s.onM (·.replay r k)) else .next s
     | none => .next s)
  | none => .next s

/-- A child's digest, or the parent's answer. One that comes before this module restores, or knows its CHECK group, is kept for the
replay. Log 138 (DESIGN CHOICE). -/
def Ctl.rollDigestIn (c : Ctl) (rank : Nat) (b : List Nat) : Ctl :=
  match c.checkGroup, c.gen.restore with
  | some g, some r =>
    if g.children.contains rank then
      ({ c with gen := { c.gen with restore := some { r with
        digests := r.digests.filter (fun (d : Nat × Nat × Bool) => d.1 != rank) ++ [(rank, fieldAt b 0 4, bit (b.getD 4 0) 0)] } } }).rollUp
    else if !g.root && g.parent == rank && r.replayed then c.rollAnswer r g (bit (b.getD 4 0) 0)
    else c
  | _, _ => { c with gen := { c.gen with
      rollEarly := c.gen.rollEarly.filter (fun (d : Nat × Nat × Bool) => d.1 != rank) ++ [(rank, fieldAt b 0 4, bit (b.getD 4 0) 0)] } }

def execRollcallDigestReceive (rank : Nat) (bytes : List Nat) (s : State) : Host.Outcome State Fault Refusal :=
  .next (s.onM (·.onCtl (·.rollDigestIn rank bytes)))

/-- RESTORE_DONE (R388). -/
def Ctl.restoreDone (c : Ctl) (r : RestoreRun) : Ctl :=
  let c := ({ c with gen := { c.gen with
    restore := none
    rollEarly := []
    restored := true } }).wr Fld.sg_SG_STATE 0
  (c.showState.post 0x0609 1 dieHB 0xFF (le 4 r.gen)).handover

def execRestoreDone (s : State) : Host.Outcome State Fault Refusal :=
  match s.m.ctl.gen.restore with
  | some r => if r.answer == some true then .next (s.onM (·.onCtl (·.restoreDone r))) else .next s
  | none => .next s

/-- R390: the restore stops; what a module has restored locally stays, and a slot that was being built is EMPTY. Log 138 (DESIGN CHOICE). -/
def Ctl.restoreAbort (c : Ctl) (r : RestoreRun) : Ctl :=
  let c := { c with gen := { c.gen with
    restore := none
    rollEarly := [] } }.handover
  if r.isLocal then c.wr Fld.sg_SG_STATE 4
  else (c.onSlots (fun g => if g.state = 0 then GenSlot.reset else g)).wr Fld.sg_SG_STATE 0

def execRestoreAbort (s : State) : Host.Outcome State Fault Refusal :=
  match s.m.ctl.gen.restore with
  | some r => if s.m.ctl.gen.holdDue then .next s else .next (s.onM (·.onCtl (·.restoreAbort r)))
  | none => .next s

end Sys2Proof.Machine
end

