-- ==== Sys2Proof/Machine/Messages.lean ====
section
/-! DEFINITION. Mersene's messages: taking a message and the checks of R420, setting pairs, buffers, responses (R406, R407, R419 to
R424, R430). -/

namespace Sys2Proof.Machine

/-! ## The words of a message (R419) -/

/-- A word of a message; a word past `LEN` is 0. -/
def Message.w (m : Message) (i : Nat) : Nat := m.words.getD i 0
def Message.cmd (m : Message) : Nat := m.w 0 % 2 ^ 16
/-- `SUB` of the commands that have one. -/
def Message.sub (m : Message) : Nat := m.w 2 % 256
/-- `KIND` of the stamp. -/
def Message.kind (m : Message) : Nat := m.stamp % 16
/-- Two words as one value. -/
def Message.w64 (m : Message) (i : Nat) : Nat := m.w i + 2 ^ 32 * m.w (i + 1)

/-! ## Setting pairs (R424, Table 15-4) -/

/-- A setting pair. -/
structure Pair where
  id : Nat
  target : Nat
  value : Nat
deriving DecidableEq, Repr

/-- `n` pairs from word `a`. -/
def Message.pairsAt (m : Message) (a n : Nat) : List Pair :=
  (List.range n).map (fun i => ⟨m.w (a + 2 * i) % 2 ^ 16, m.w (a + 2 * i) / 2 ^ 16, m.w (a + 2 * i + 1)⟩)

/-- Log 72 (DEDUCED). -/
def Pair.family (p : Pair) : Nat := p.id / 256
/-- The place of a setting in its family. -/
def Pair.index (p : Pair) : Nat := p.id % 256

/-- The ranges of a family, in ID order (Tables 6-8, 10-16, 12-12, 13-11; R403). -/
def familyRanges : Nat → List (Int × Int)
  | 1 => [(0, 1), (0, 7), (1, 65535), (0, 3), (0, 3), (4, 16), (0, 7), (4, 20), (1, 65535), (0, 65535), (16, 4096), (0, 2), (0, 15),
      (1, 4096), (0, 15), (1, 31), (-8, 0), (0, 7)]
  | 2 => [(0, 1), (1, 0x7F7FFFFF), (1, 60000)]
  | 3 => [(0, 1), (8, 64), (34, 966), (34, 966), (34, 966), (1, 15), (1, 15), (1, 15), (1, 65535), (1, 10000), (1, 65535)]
  | 4 => [(0, 1), (0, 10000), (1, 10000), (1, 10000), (60, 1000000000), (1, 1000), (1, 65536), (1, 100)]
  | 5 => List.replicate 32 (0, 15)
  | _ => []

/-- The value a pair gives: `LR_MIN` and `LR_MAX` are signed. -/
def Pair.signed (p : Pair) : Int := if p.family = 1 ∧ 16 ≤ p.index then sext 32 p.value else p.value

/-- A known setting of an accepted family, with a target that exists. Log 72 (DEDUCED). -/
def Pair.known (fams : List Nat) (p : Pair) : Bool :=
  fams.contains p.family && decide (p.index < (familyRanges p.family).length)
    && (if p.family = 3 then decide (p.target < 36) || p.target == 0xFFFF else p.target == 0)

/-- Does the value lie in its range? -/
def Pair.inRange (p : Pair) : Bool :=
  match (familyRanges p.family)[p.index]? with
  | some r => decide (r.1 ≤ p.signed) && decide (p.signed ≤ r.2)
  | none => false

/-- A family's settings after the pairs: the later pair wins. Log 72 (DEDUCED). -/
def applyPairs (fam : Nat) (old : List Nat) (l : List Pair) : List Nat :=
  (l.filter (fun p => p.family == fam)).foldl (fun s p => updAt s p.index (fun _ => p.value)) old

/-! ## Who may send a command, when, and in what form (Tables 15-2, 15-3, 15-5, 15-6) -/

/-- A row of Table 15-2: the kinds, and whether READY, JOB and HOLD permit it; `job` is 0 never, 1 only while held, 2 always. -/
structure CmdRow where
  kinds : List Nat
  ready : Bool
  job : Nat
  hold : Bool
deriving DecidableEq, Repr

/-- Table 15-2. -/
def cmdRow : Nat → Option CmdRow
  | 0x0001 => some ⟨[1, 2, 3, 4], true, 2, true⟩
  | 0x0010 => some ⟨[1], true, 1, false⟩
  | 0x0011 => some ⟨[1, 2], false, 1, true⟩
  | 0x0012 => some ⟨[1], false, 1, true⟩
  | 0x0013 => some ⟨[1, 2], false, 2, false⟩
  | 0x0020 => some ⟨[1], false, 1, true⟩
  | 0x0021 => some ⟨[1], false, 2, false⟩
  | 0x0030 => some ⟨[1], false, 2, false⟩
  | 0x0040 => some ⟨[1], false, 2, true⟩
  | 0x0050 => some ⟨[1], true, 1, true⟩
  | 0x0060 => some ⟨[1], true, 1, false⟩
  | 0x0070 => some ⟨[1, 2, 3, 4], true, 2, true⟩
  | 0x0080 => some ⟨[1, 2], true, 2, true⟩
  | 0x0081 => some ⟨[1, 2], true, 2, true⟩
  | 0x0082 => some ⟨[1, 2], true, 2, true⟩
  | _ => none

/-- All 32 bits. -/
def w32 : Nat := 0xFFFFFFFF

/-- The defined bits of the four words of a buffer reference (R421). -/
def bufMask : List Nat := [w32, w32, w32, 3]

/-- The defined bits of `n` pairs. -/
def pairMask (n : Nat) : List Nat := List.replicate (2 * n) w32

/-- JOB_SETUP's `AMEND` and `NPAIRS`. -/
def Message.amend (m : Message) : Bool := bit (m.w 7) 13
def Message.setupPairs (m : Message) : Nat := bitsOf (m.w 7) 16 3

/-- RESTORE's and REJOIN's `NREPL`. -/
def Message.nrepl (m : Message) : Nat := bitsOf (m.w 2) 8 8

/-- GEN_CONTROL's words from 2. -/
def Message.genWords (m : Message) : List Nat :=
  match m.sub with
  | 0 => [0xFFFF, 7] ++ pairMask (m.w 3 % 8)
  | 1 | 2 => [0xFFFF]
  | 3 | 4 => [0xFFFF, w32] ++ (List.replicate m.nrepl [w32, w32, 0x1FFF]).flatten
  | _ => [0xFF]

/-- LINK_GROUP's words from 2. -/
def Message.linkWords (m : Message) : List Nat :=
  match m.sub with
  | 0 => [0xFF, 0x7FFFFF]
  | 1 => [0xFF, 0xF] ++ pairMask (m.w 3 % 16)
  | 2 => [0xFF, w32, 0xF, 3]
  | 3 => [0xFF, w32, 0xFFFF] ++ bufMask
  | 4 => [0xFF, 0xFFFF]
  | _ => [0xFF]

/-- The defined bits of a command's words from word 2 on. Log 68 (DEDUCED). -/
def Message.form (m : Message) : List Nat :=
  match m.cmd with
  | 0x0010 =>
    (if m.amend then [w32, w32, 0, 0, 0, 0x72000] else [w32, w32, w32, w32, 0xFFFF, 0x73FFF]) ++ pairMask m.setupPairs
  | 0x0012 => [w32]
  | 0x0020 => 0xFF :: bufMask
  | 0x0021 => 0 :: bufMask
  | 0x0030 => 7 :: pairMask (m.w 2 % 8)
  | 0x0040 => m.genWords
  | 0x0050 => m.linkWords
  | 0x0060 => [0x7FF, 0xFFF]
  | 0x0070 => if m.sub = 1 then [w32, w32, w32] ++ bufMask else [w32, w32, 0xF]
  | 0x0080 => 0 :: bufMask
  | 0x0081 => [1]
  | _ => []

/-- The first word of a buffer reference. -/
def Message.bufAt (m : Message) : Option Nat :=
  if m.cmd = 0x20 ∨ m.cmd = 0x21 ∨ m.cmd = 0x80 then some 3
  else if (m.cmd = 0x50 ∧ m.sub = 3) ∨ (m.cmd = 0x70 ∧ m.sub = 1) then some 5
  else none

/-- A command's setting pairs, and the families it accepts. -/
def Message.pairs (m : Message) : List Pair × List Nat :=
  match m.cmd with
  | 0x0010 => (m.pairsAt 8 m.setupPairs, if m.amend then [2, 5] else [1, 2, 4, 5])
  | 0x0030 => (m.pairsAt 3 (m.w 2 % 8), [1])
  | 0x0040 => if m.sub = 0 then (m.pairsAt 4 (m.w 3 % 8), [4]) else ([], [])
  | 0x0050 => if m.sub = 1 then (m.pairsAt 4 (m.w 3 % 16), [3]) else ([], [])
  | _ => ([], [])

/-! ## The checks (R420) -/

/-- Check 2: the kind and, where it applies, `SECURE` (R422). The buffer form of TELEMETRY is for HOST only. -/
def Message.permitted (m : Message) (r : CmdRow) (secureOnly : Bool) : Bool :=
  r.kinds.contains m.kind && !(m.cmd == 0x70 && m.sub == 1 && m.kind != 1)
    && !(secureOnly && m.kind == 1 && !bit m.stamp 4 && m.cmd != 1 && m.cmd != 0x70)

/-- Check 3: `LEN` covers the words that the command and its counts require. -/
def Message.longEnough (m : Message) : Bool := decide (2 + m.form.length ≤ m.words.length)

/-- No bit of the words that is not defined is set. -/
def noStray : List Nat → List Nat → Bool
  | [], _ => true
  | w :: t, [] => w == 0 && noStray t []
  | w :: t, k :: ks => (w ||| k) == k && noStray t ks

/-- The counts and encodings of a command. Log 68 (DEDUCED). -/
def Message.encodings (m : Message) : Bool :=
  match m.cmd with
  | 0x0010 => decide (m.setupPairs ≤ 4)
  | 0x0020 => decide (m.w 2 < 8)
  | 0x0030 => decide (1 ≤ m.w 2 % 8 ∧ m.w 2 % 8 ≤ 6)
  | 0x0040 =>
    match m.sub with
    | 0 => decide (1 ≤ m.w 3 % 8 ∧ m.w 3 % 8 ≤ 6)
    | 1 | 2 => true
    | 3 | 4 => decide (1 ≤ m.nrepl ∧ m.nrepl ≤ 4)
    | _ => false
  | 0x0050 =>
    match m.sub with
    | 0 | 4 => true
    | 1 => decide (1 ≤ m.w 3 % 16 ∧ m.w 3 % 16 ≤ 6)
    | 2 => m.w 5 != 3
    | 3 => decide (m.w 3 % 65536 ≠ 0 ∧ bitsOf (m.w 3) 16 8 ≤ 5 ∧ 1 ≤ m.w 3 / 2 ^ 28 ∧ m.w 3 / 2 ^ 28 ≤ 8 ∧ m.w 4 ≠ 0)
    | _ => false
  | 0x0070 =>
    m.w 3 % 4 == 0 && (tblock (bitsOf (m.w 2) 16 8) (bitsOf (m.w 2) 8 8) (m.w 2 / 2 ^ 24)).isSome
      && (match m.sub with | 0 => decide (1 ≤ m.w 4 ∧ m.w 4 ≤ 14) | 1 => m.w 4 % 4 == 0 | _ => false)
  | _ => true

/-- Check 4. Log 68 (DEDUCED). -/
def Message.fieldsOk (m : Message) : Bool :=
  noStray (m.words.drop 2) m.form && m.encodings && (m.pairs.1.all (Pair.known m.pairs.2))
    && (match m.bufAt with | some a => decide (m.w (a + 3) ≤ 1) | none => true)

/-- No step is running (R423): the module is before its first step, or stopped at a boundary. -/
def Ctl.isHeld (c : Ctl) : Bool := c.job.held

/-- Check 5: the stage (Table 15-2), with what JOB_SETUP and STEP_RUN ask besides (R426, R427, R526). Log 75 (DEDUCED). -/
def Ctl.stageOk (c : Ctl) (m : Message) (r : CmdRow) : Bool :=
  (match c.stage with
    | 2 => r.ready
    | 3 => (r.job == 2 || (r.job == 1 && c.isHeld)) && !(m.cmd == 0x10 && !m.amend) && !(m.cmd == 0x12 && c.gen.restore.isSome)
    | 4 => r.hold && !(m.cmd == 0x12 && !c.gen.restored)
    | _ => false)
    && !((m.cmd == 0x10 || m.cmd == 0x12) && c.tap.pinsTaken)

/-- Is a message a long command (Table 15-2)? Log 69 (DEDUCED). -/
def Message.isLong (m : Message) : Bool :=
  m.cmd == 0x20 || m.cmd == 0x21 || m.cmd == 0x80 || (m.cmd == 0x70 && m.sub == 1)

/-- Check 6: a second long command, and what LESSON_LOAD and TIMETABLE_LOAD hold off (R430). -/
def Ctl.cmdBusy (c : Ctl) (m : Message) : Bool :=
  (m.isLong && (c.host.long.isSome || c.sec.updState == 1))
    || ((m.cmd == 0x11 || m.cmd == 0x12) && (match c.host.long with | some l => l.cmd == 0x20 || l.cmd == 0x21 | none => false))

/-- The first check that fails, as a status code (Table 15-1); none where all pass. Log 68 (DEDUCED). -/
def Ctl.refuses (c : Ctl) (m : Message) : Option Nat :=
  match cmdRow m.cmd with
  | none => some 0x10
  | some r =>
    if !m.permitted r c.job.secureOnly then some 0x11
    else if !m.longEnough then some 0x12
    else if !m.fieldsOk then some 0x13
    else if !c.stageOk m r then some 0x15
    else if c.cmdBusy m then some 0x16
    else none

/-! ## Taking a message (R406) -/

/-- The message a channel holds. -/
def Ctl.messageOf (c : Ctl) (ch : Nat) : Message :=
  { chan := ch, words := (List.range (c.rd Fld.mb_MB_CTRL_LEN ch)).map (c.mbWord ch), stamp := c.rd Fld.mb_MB_DATA1_STAMP ch }

/-- Where the response to a peer's message goes (R408). -/
def Ctl.peerOf (c : Ctl) (m : Message) : Nat := c.rd Fld.lk_LK_PEER_COORD (bitsOf m.stamp 18 6)

/-- R407: the response; a message of a peer is answered in an FW frame as well. Log 79 (DEDUCED). -/
def Ctl.reply (c : Ctl) (m : Message) (status : Nat) (payload : List Nat) : Ctl :=
  let c := c.respond m.chan status payload
  if m.kind = 4 then
    c.sendFrame 1 3 0 (c.peerOf m) 0 (unwords ((status + 2 ^ 16 * (m.w 0 / 2 ^ 16 % 2 ^ 16)) :: 0x580F :: (if status ≤ 1 then payload.take 14 else [])))
  else c

/-- A taken message is over. Log 79 (DEDUCED). -/
def Ctl.answer (c : Ctl) (m : Message) (status : Nat) (payload : List Nat) : Ctl :=
  let l := match c.host.long with | some x => if x.chan = m.chan then none else some x | none => none
  ({ c with host := { c.host with
    taken := c.host.taken.filter (fun x => x.chan != m.chan)
    long := l } }).reply m status payload

/-- The first waiting message is checked, and refused, or taken. Log 69 (DEDUCED). -/
def Ctl.takeMessage (c : Ctl) (ch : Nat) : Ctl :=
  let m := c.messageOf ch
  let c := { c with host := { c.host with waiting := c.host.waiting.drop 1 } }
  match c.refuses m with
  | some st => c.reply m st []
  | none =>
    { c with host := { c.host with
      taken := c.host.taken ++ [m]
      long := if m.isLong then some m else c.host.long } }

/-- Mersene takes messages from READY on, but not during a handover, one at a time beside a long command. Log 69 (DEDUCED). -/
def Ctl.mayTake (c : Ctl) : Bool :=
  c.hdUp && decide (2 ≤ c.stage ∧ c.stage ≤ 4) && c.sec.updState != 5 && c.host.taken.all Message.isLong

/-- MESSAGE_TAKE. Log 69 (DEDUCED). -/
def execMessageTake (s : State) : Host.Outcome State Fault Refusal :=
  match s.m.ctl.mayTake, s.m.ctl.host.waiting with
  | true, ch :: _ => .next (s.onM (·.onCtl (·.takeMessage ch)))
  | _, _ => .next s

/-- The message taken on a channel, where it is the command named. -/
def Ctl.takenCmd (c : Ctl) (ch cmd : Nat) : Option Message := c.host.taken.find? (fun m => m.chan == ch && m.cmd == cmd)

/-- The same, with `SUB`. -/
def Ctl.takenSub (c : Ctl) (ch cmd sub : Nat) : Option Message :=
  c.host.taken.find? (fun m => m.chan == ch && m.cmd == cmd && m.sub == sub)

/-- A status the spec does not name for a case it does not settle. Log 75 (DEDUCED). -/
def openStatus (case : Nat) : Nat := 0x10 + Config.openValue 10 [case] % 16

/-! ## Buffers (R421) -/

/-- A buffer reference. -/
structure BufRef where
  addr : Nat
  len : Nat
  far : Bool
  kind : Nat
deriving DecidableEq, Repr

/-- The reference at a word. -/
def Message.buf (m : Message) (a : Nat) : BufRef := ⟨m.w64 a, m.w (a + 2), m.w (a + 3) == 1, m.kind⟩

/-- Does a buffer keep the rules? FAR lies in the span from 16 GiB to the generation region: the general region and the BAR2
window. Log 70 (DEDUCED). -/
def Ctl.bufOk (c : Ctl) (b : BufRef) : Bool :=
  b.addr % 64 == 0 &&
    (if b.far then decide (16 * gib ≤ b.addr ∧ b.addr + b.len ≤ farSize - c.rd Fld.fl_FL_GEN_GIB * gib) else b.kind == 1 && c.host.cxlOn)

/-- What a buffer holds; none is BUF_FAULT. The host's bytes come with the command. Log 70 (DEDUCED). -/
def Module.bufRead (m : Module) (b : BufRef) (host : BufData) : Option (List Nat) :=
  if !m.ctl.bufOk b then none
  else if b.len = 0 then some []
  else if b.far then (if m.ctl.badSpan (farBase + b.addr) b.len then none else some (memRead m.mem (farBase + b.addr) b.len))
  else match host with
    | .bytes l => some (padTo b.len l)
    | .error => none

/-- A poisoned line of a buffer that Mersene reads is counted (R310). Log 70 (DEDUCED). -/
def Ctl.countBuf (c : Ctl) (b : BufRef) : Ctl :=
  if b.far && c.bufOk b then
    c.each ((spanLines (farBase + b.addr) b.len).filter c.poison.contains) (fun c l => c.poisonCnt (l * 64) 1)
  else c

/-- A write into a buffer of far memory: a line of the window is snooped first. Log 71 (DEDUCED). -/
def Module.farWrite (m : Module) (a : Nat) (l : List Nat) : Module :=
  let m := m.makeWay 0 none [(a, l.length)]
  (m.onCtl (fun c => c.each (spanLines a l.length) (fun c x => c.snoopLine (x * 64)))).store a l

/-- Bytes go into a buffer; none is BUF_FAULT. Log 71 (DEDUCED). -/
def Module.bufWrite (m : Module) (b : BufRef) (l : List Nat) (fail : Bool) : Option Module :=
  if !m.ctl.bufOk b then none
  else if l.isEmpty then some m
  else if b.far then some (m.farWrite (farBase + b.addr) l)
  else if fail then none
  else some (m.onCtl (·.send (.hostWrite b.addr l)))

end Sys2Proof.Machine
end

