-- ==== Sys2Proof/Machine/Timing.lean ====
section
/-! DEFINITION. The Timetable image and its load checks (R284, R286, Tables 10-8 to 10-12). -/

namespace Sys2Proof.Machine

/-! ## The image (R284) -/

/-- Eight 8-byte masks. -/
def masksAt (b : List Nat) (o : Nat) : List Nat := (List.range 8).map (fun d => fieldAt b (o + 8 * d) 8)

/-- A die record (Table 10-9). -/
def dieRecOf (b : List Nat) : DieRec :=
  { lessonId := fieldAt b 0 8, pre := fieldAt b 8 8, apply := fieldAt b 16 8, normTens := fieldAt b 24 2, lossTens := fieldAt b 26 2,
    slotFirst := fieldAt b 28 4, slotCount := fieldAt b 32 4, active := bit (b.getD 36 0) 0 }

/-- A stage record (Table 10-10). -/
def stageRecOf (b : List Nat) : StageRec :=
  { teacher := bit (b.getD 1 0) 0, pos := fieldAt b 2 2, stride := fieldAt b 4 4, fwd := masksAt b 16, bwd := masksAt b 80 }

def ttSize (img : List Nat) : Nat := fieldAt img 8 4
def ttStages (img : List Nat) : Nat := img.getD 16 0
def ttDieBytes (img : List Nat) (d : Nat) : List Nat := bytesAt img (64 + 64 * d) 64
def ttStageBytes (img : List Nat) (v : Nat) : List Nat := bytesAt img (576 + 160 * v) 160
def ttBase (img : List Nat) : Nat := 576 + 160 * ttStages img

/-- The Timetable an image holds. -/
def timetableOf (img : List Nat) : Timetable :=
  { id := fieldAt img 24 8, nbuf := img.getD 17 0, nmb := fieldAt img 20 2, lossV := img.getD 18 0,
    dies := (List.range 8).map (fun d => dieRecOf (ttDieBytes img d)),
    stages := (List.range (ttStages img)).map (fun v => stageRecOf (ttStageBytes img v)),
    slots := (List.range ((ttSize img - ttBase img) / 8)).map (fun i => fieldAt img (ttBase img + 8 * i) 8) }

/-! ## Check 1: TT_FORMAT -/

def zeros (l : List Nat) : Bool := l.all (· == 0)

/-- The header. -/
def ttHeaderOk (img : List Nat) (blen : Nat) : Bool :=
  let n := ttStages img
  img.take 8 == [0x54, 0x54, 0x42, 0x30, 4, 0, 0, 0] && decide (1 ≤ n ∧ n ≤ 8) && decide (1 ≤ img.getD 17 0 ∧ img.getD 17 0 ≤ 64)
    && decide (1 ≤ fieldAt img 20 2) && decide (ttBase img ≤ ttSize img) && (ttSize img - ttBase img) % 8 == 0
    && decide (ttSize img ≤ blen) && (img.getD 18 0 == 0xFF || decide (img.getD 18 0 < n))
    && img.getD 19 0 == 0 && zeros (bytesAt img 22 2) && zeros (bytesAt img 32 32)

/-- A die record: its reserved fields, and its slots among the slot words. Log 77 (DEDUCED). -/
def ttDieOk (slots : Nat) (b : List Nat) : Bool :=
  decide (b.getD 36 0 < 2) && zeros (bytesAt b 37 27) && decide (fieldAt b 28 4 + fieldAt b 32 4 ≤ slots)

/-- A stage record. -/
def ttStageOk (v : Nat) (b : List Nat) : Bool :=
  b.getD 0 0 == v && decide (b.getD 1 0 < 2) && zeros (bytesAt b 8 8) && zeros (bytesAt b 144 16)
    && (!bit (b.getD 1 0) 0 || zeros (masksAt b 80))

/-- A slot word. -/
def slotWordOk (nv nmb w : Nat) : Bool :=
  (w % 4 == 1 || w % 4 == 2) && decide (bitsOf w 2 3 < nv) && bitsOf w 5 3 == 0 && decide (bitsOf w 8 16 < nmb) && decide (w < 2 ^ 24)

def ttFormatOk (img : List Nat) (blen : Nat) : Bool :=
  let t := timetableOf img
  ttHeaderOk img blen && (List.range 8).all (fun d => ttDieOk t.slots.length (ttDieBytes img d))
    && (List.range (ttStages img)).all (fun v => ttStageOk v (ttStageBytes img v)) && t.slots.all (slotWordOk (ttStages img) t.nmb)

/-! ## Check 2: TT_CRC -/

def ttCrcOk (img : List Nat) : Bool := crc32c (putAt (img.take (ttSize img)) 12 [0, 0, 0, 0]) == fieldAt img 12 4

/-! ## Check 3: TT_LESSON -/

/-- The slot words of a die. -/
def Timetable.dieSlots (t : Timetable) (d : Nat) : List Nat :=
  match t.dies[d]? with
  | some r => (t.slots.drop r.slotFirst).take r.slotCount
  | none => []

/-- Every mask of a die. -/
def Timetable.dieMasks (t : Timetable) (d : Nat) : List Nat :=
  (match t.dies[d]? with | some r => [r.pre, r.apply] | none => [])
    ++ (t.stages.map (fun v => [v.fwd.getD d 0, v.bwd.getD d 0])).flatten

/-- The O of every run of a queue of a die (R285). -/
def Timetable.offsets (t : Timetable) (d q : Nat) : List Nat :=
  (match t.dies[d]? with | some r => if bit (r.pre ||| r.apply) q then [0] else [] | none => [])
    ++ ((t.dieSlots d).filter (fun w => (t.slotRuns d w).1.contains q)).map (fun w => (t.slotRuns d w).2)

/-- The program words of a queue of a die. -/
def Module.queueProgram (m : Module) (d q : Nat) : List Nat :=
  let x := m.ctl.queue d q
  (List.range x.progWords).map (fun i => unle (memRead m.mem (lessonStore d + m.ctl.wordOff d (x.progFirst + i)) 8))

/-- No ISSUE word of a queue passes the descriptors of its Lesson, with the largest O of any run. -/
def Module.issuesFit (m : Module) (t : Timetable) (d : Nat) (l : Lesson) (q : Nat) : Bool :=
  match t.offsets d q with
  | [] => true
  | o :: os =>
    let top := os.foldl max o
    (m.queueProgram d q).all (fun w => w % 16 != 1 || decide (bitsOf w 24 32 + top + bitsOf w 8 16 ≤ l.descCount))

/-- A tensor that a check sum folds: FP32, or none. -/
def Lesson.foldable (l : Lesson) (i : Nat) : Bool :=
  i == 0xFFFF || (match l.tensors[i]? with | some b => (tensorOf i b).decl == 0x0E | none => false)

/-- A die's record against the Lesson the die holds; a die that holds none takes no part. Log 77 (DEDUCED). -/
def Module.ttLessonOk (m : Module) (t : Timetable) (d : Nat) : Bool :=
  match t.dies[d]? with
  | none => false
  | some r =>
    let enabled := (t.dieMasks d).all (fun k => (maskQueues k).all (fun q => m.ctl.on Fld.que_Q_CTRL_ENABLE d q))
    match (m.ctl.die d).lesson with
    | none => r.lessonId == 0 && !r.active && enabled && r.normTens == 0xFFFF && r.lossTens == 0xFFFF
    | some l =>
      r.lessonId == l.id && enabled && (List.range 64).all (m.issuesFit t d l) && l.foldable r.normTens && l.foldable r.lossTens

/-! ## Check 4: TT_SLOTS -/

/-- The places of a kind of slot of a stage and micro-batch in a list of slot words. -/
def slotsOf (sl : List Nat) (kind v mb : Nat) : List Nat :=
  (sl.zipIdx.filter (fun p => p.1 % 4 == kind && bitsOf p.1 2 3 == v && bitsOf p.1 8 16 == mb)).map (·.2)

/-- One micro-batch of a stage: one forward slot, and one backward slot after it. -/
def mbSlotsOk (sl : List Nat) (teacher : Bool) (v mb : Nat) : Bool :=
  match slotsOf sl 1 v mb, slotsOf sl 2 v mb with
  | [_], [] => teacher
  | [f], [b] => !teacher && decide (f < b)
  | _, _ => false

/-- A stage on a die. Log 77 (DEDUCED). -/
def Timetable.stageSlotsOk (t : Timetable) (d : Nat) (p : StageRec × Nat) : Bool :=
  let sl := t.dieSlots d
  (!p.1.teacher || !sl.any (fun w => w % 4 == 2 && bitsOf w 2 3 == p.2))
    && ((p.1.fwd.getD d 0 == 0 && p.1.bwd.getD d 0 == 0) || (List.range t.nmb).all (mbSlotsOk sl p.1.teacher p.2))

def Timetable.slotsFit (t : Timetable) : Bool := (List.range 8).all (fun d => t.stages.zipIdx.all (t.stageSlotsOk d))

/-! ## Check 5: TT_INFLIGHT -/

/-- Where a micro-batch of a stage is released on a die; the end of its slots where no slot releases it. -/
def Timetable.release (t : Timetable) (sl : List Nat) (v mb : Nat) : Nat :=
  let hit :=
    match t.stages[v]? with
    | some x =>
      if !x.teacher then slotsOf sl 2 v mb
      else if sl.any (fun w => bitsOf w 2 3 == t.lossV) then slotsOf sl 2 t.lossV mb
      else slotsOf sl 1 v (mb + t.nbuf)
    | none => []
  hit.headD sl.length

/-- How many micro-batches of a stage lie between their forward slot and their release, after slot `i` of a die. Log 77 (DEDUCED). -/
def Timetable.inFlight (t : Timetable) (sl : List Nat) (v i : Nat) : Nat :=
  ((List.range t.nmb).filter (fun mb =>
    match slotsOf sl 1 v mb with
    | f :: _ => decide (f ≤ i ∧ i < t.release sl v mb)
    | [] => false)).length

def Timetable.buffersFit (t : Timetable) : Bool :=
  (List.range 8).all (fun d =>
    let sl := t.dieSlots d
    (List.range t.stages.length).all (fun v => (List.range sl.length).all (fun i => decide (t.inFlight sl v i ≤ t.nbuf))))

/-- Table 10-12: the outcome as a status code, 0 where the load passes. Log 77 (DEDUCED). -/
def Module.ttCheck (m : Module) (img : List Nat) (blen : Nat) : Nat :=
  let t := timetableOf img
  if !ttFormatOk img blen then 0x30
  else if !ttCrcOk img then 0x31
  else if !(List.range 8).all (m.ttLessonOk t) then 0x32
  else if !t.slotsFit then 0x33
  else if !t.buffersFit then 0x34
  else 0

end Sys2Proof.Machine
end

