-- ==== Sys2Proof/Machine/Jobs.lean ====
section
/-! DEFINITION. Mersene's commands for the life of a job: PING, JOB_SETUP, JOB_END, STEP_RUN, JOB_STOP, LESSON_LOAD,
TIMETABLE_LOAD, POLICY (R423 to R431). -/

namespace Sys2Proof.Machine

/-- PING. -/
def Ctl.ping (c : Ctl) (m : Message) : Ctl :=
  c.answer m 0 [c.rdWord .st 0 4, c.rdWord .st 0 8, c.sec.moduleId % 2 ^ 32, c.sec.moduleId / 2 ^ 32, c.coord]

def execPing (chan : Nat) (s : State) : Host.Outcome State Fault Refusal :=
  match s.m.ctl.takenCmd chan 0x0001 with
  | some m => .next (s.onM (·.onCtl (·.ping m)))
  | none => .next s

/-! ## Settings -/

/-- A combined constraint of Table 13-11. -/
def genSetOk (l : List Nat) : Bool := decide (l.getD 2 0 ≤ l.getD 3 0)

/-- The class masks that pairs of family 5 give. -/
def Ctl.setClasses (c : Ctl) (l : List Pair) : Ctl :=
  c.each (l.filter (fun p => p.family == 5)) (fun c p => c.wr Fld.mb_MB_CLASS_CLASS_MASK p.value p.index)

/-- R425: no `CLASS_MASK` of the message removes HOST from the channel that carries the command. Log 73 (DEDUCED). -/
def Ctl.keepsHost (c : Ctl) (ch : Nat) (l : List Pair) : Bool :=
  !l.any (fun p => p.family == 5 && p.index == ch) || !c.permits ch 1 || (c.setClasses l).permits ch 1

/-- R179: ADAPTIVE with a data-parallel group above 256. -/
def planRefused (policy : List Nat) (dp : Nat) : Bool := policy.getD 0 1 == 0 && decide (256 < dp)

/-! ## JOB_SETUP (R426) -/

def Message.cowGib (m : Message) : Nat := bitsOf (m.w 7) 0 5
def Message.genGib (m : Message) : Nat := 16 * bitsOf (m.w 7) 5 7
def Message.dpSize (m : Message) : Nat := m.w 6 % 65536

/-- Is every memory controller ready? -/
def Ctl.memReady (c : Ctl) : Bool :=
  (List.range 8).all (fun n => c.on Fld.nm_NM_STATE_READY n) && (List.range 64).all (fun ch => c.on Fld.fc_FC_STATE_TRAINED ch)

/-- R299: a generation region that leaves the firmware region and the BAR2 window alone. -/
def Ctl.genFits (c : Ctl) (g : Nat) : Bool :=
  let z := c.rd Fld.fl_FL_BAR2_SIZE_GIB
  decide (16 + g ≤ 2048) && (z == 0 || decide (c.rd Fld.fl_FL_BAR2_BASE_GIB + z + g ≤ 2048))

/-- The status that refuses a setup, or 0. -/
def Ctl.setupCheck (c : Ctl) (m : Message) : Nat :=
  let l := m.pairs.1
  if !c.memReady then 0x19
  else if 16 < m.cowGib ∨ c.genFits m.genGib = false ∨ m.dpSize = 0 ∨ l.all Pair.inRange = false then 0x14
  else if !genSetOk (applyPairs 4 genDefaults l) || !c.keepsHost m.chan l then 0x14
  else if planRefused (applyPairs 1 policyDefaults l) m.dpSize then 0x1D
  else 0

/-- R71, R73: the seed of a job in every compute die, and its streams from zero. -/
def Ctl.loadSeed (c : Ctl) (seed seeded : Nat) : Ctl :=
  c.each (List.range 8) (fun c d =>
    ((c.wr Fld.gen_GEN_SEED_SEED_LO seed d).wr Fld.gen_GEN_STATUS_SEEDED seeded d).onDie d (fun x => { x with streams := [] }))

/-- The plan entries clear. -/
def Ctl.clearPlans (c : Ctl) : Ctl :=
  c.each (List.range 8) (fun c d => c.onDie d (fun x => { x with
    plan := []
    planStep := []
    track := [] }))

/-- The job a setup begins. What belongs to the module and not to a job stays: the Roll Call record, the step records. Log 73 (DEDUCED). -/
def Ctl.newJob (c : Ctl) (m : Message) : JobSt :=
  let l := m.pairs.1
  { JobSt.reset with
    inJob := true
    id := m.w64 2
    seed := m.w64 4
    dpSize := m.dpSize
    secureOnly := bit (m.w 7) 12
    policy := applyPairs 1 policyDefaults l
    policyNext := applyPairs 1 policyDefaults l
    stepSet := applyPairs 2 stepDefaults l
    stepNext := applyPairs 2 stepDefaults l
    recs := c.job.recs
    recNext := c.job.recNext
    roll := c.job.roll
    affectMaps := c.job.affectMaps }

/-- Step 5: slots whose record does not stand are EMPTY; a record of another job makes both EMPTY. Log 73 (DEDUCED). -/
def Module.keepSlots (m : Module) (id : Nat) : Module :=
  let used := [0, 1].filter (fun k => (m.ctl.gslot k).state != 0)
  let ok := used.filter m.recordOk
  let foreign := ok.filter (fun k => (m.ctl.gslot k).jobId != id)
  let drop := if foreign.isEmpty then used.filter (fun k => !ok.contains k) else used
  let m := drop.foldl (fun m k => m.onCtl (fun c => (c.endDrain k).onSlot k (fun g => { g with
    state := 0
    extents := [] }))) m
  (if foreign.isEmpty then [] else ok).foldl Module.putRecord m

/-- The generation engine at the start of a job. Log 73 (DEDUCED). -/
def Ctl.newGen (c : Ctl) (l : List Pair) : Ctl :=
  let set := applyPairs 4 genDefaults l
  let live := c.gen.slots.filter (fun g => g.state != 0)
  let c := { c with gen := { GenSt.reset with
    slots := c.gen.slots
    drain := c.gen.drain
    granted := c.gen.granted
    started := c.gen.started
    protGrant := c.gen.protGrant
    nextGen := 1 + live.foldl (fun n (g : GenSlot) => max n g.gen) 0
    set := set
    setNext := set
    precursors := c.gen.precursors } }
  let c := if live.isEmpty then c.wr Fld.sg_SG_DURABLE_GEN 0 else c
  (c.wr Fld.sg_SG_STATE c.genIdle).showState.setInterval

/-- A setup that passes. Log 73 (DEDUCED). -/
def Module.setupJob (m : Module) (x : Message) : Module :=
  let l := x.pairs.1
  let m := m.onCtl (fun c => (((c.setClasses l).wr Fld.fl_FL_COW_GIB x.cowGib).wr Fld.fl_FL_GEN_GIB x.genGib).loadSeed (x.w64 4) 1)
  let m := m.onCtl (fun c =>
    let c := { c.clearPlans with job := c.newJob x }
    ((c.wrDies Fld.chk_CHK_STEP 0).wrDies Fld.chk_CHK_RUN_NONFINITE_RUN 0).loadShifts)
  (m.keepSlots (x.w64 2)).onCtl (fun c => ((c.newGen l).wr Fld.st_ST_STATE_STAGE 3).answer x 0 [])

/-- R426, `AMEND`: pairs of families 2 and 5 for the job in force. Log 72 (DEDUCED). -/
def Ctl.amendJob (c : Ctl) (m : Message) : Ctl :=
  let l := m.pairs.1
  if c.stage != 3 || c.job.id != m.w64 2 then c.answer m 0x13 []
  else if !l.all Pair.inRange || !c.keepsHost m.chan l then c.answer m 0x14 []
  else
    let c := c.setClasses l
    let c := { c with job := { c.job with
      stepSet := applyPairs 2 c.job.stepNext l
      stepNext := applyPairs 2 c.job.stepNext l } }
    c.answer m 0 []

def Module.jobSetup (m : Module) (x : Message) : Module :=
  if x.amend then m.onCtl (·.amendJob x)
  else if m.ctl.setupCheck x = 0 then m.setupJob x
  else m.onCtl (fun c => c.answer x (c.setupCheck x) [])

def execJobSetup (chan : Nat) (s : State) : Host.Outcome State Fault Refusal :=
  match s.m.ctl.takenCmd chan 0x0010 with
  | some m => .next (s.onM (·.jobSetup m))
  | none => .next s

/-! ## JOB_END (R429) -/

/-- A changed Roll Call record takes the next `RC_SEQ`. -/
def Ctl.setGroups (c : Ctl) (l : List GroupEnt) : Ctl :=
  { c with job := { c.job with roll := { c.job.roll with
    groups := l
    seq := (c.job.roll.seq + 1) % 2 ^ 32 } } }

/-- A hold or a restore that is still on ends with the job. Log 74 (DESIGN CHOICE). -/
def Ctl.endHold (c : Ctl) : Ctl :=
  let c := { c with gen := { c.gen with
    restore := none
    restored := false
    holdDue := false } }
  (c.wr Fld.sg_SG_STATE c.genIdle).showState

/-- Every die's streams keep their table; its seed clears. Log 74 (DESIGN CHOICE). -/
def Ctl.clearSeed (c : Ctl) : Ctl :=
  c.each (List.range 8) (fun c d => (c.wr Fld.gen_GEN_SEED_SEED_LO 0 d).wr Fld.gen_GEN_STATUS_SEEDED 0 d)

/-- Log 74 (DESIGN CHOICE). -/
def Ctl.jobEnd (c : Ctl) (m : Message) : Ctl :=
  let c := ((c.each (List.range 8) Ctl.dropLesson).clearSeed.setGroups []).endHold
  let c := { c with job := { c.job with
    inJob := false
    seed := 0
    secureOnly := false
    timetable := none
    timetableNext := none
    held := true
    runLeft := 0
    stopReq := false } }
  ((c.wr Fld.st_ST_STATE_STAGE 2).answer m 0 []).handover

def execJobEnd (chan : Nat) (s : State) : Host.Outcome State Fault Refusal :=
  match s.m.ctl.takenCmd chan 0x0011 with
  | some m => .next (s.onM (·.onCtl (·.jobEnd m)))
  | none => .next s

/-! ## STEP_RUN and JOB_STOP (R427, R428) -/

/-- A run of `COUNT` attempts begins; from a hold, the module returns to the job. -/
def Ctl.startSteps (c : Ctl) (n : Nat) : Ctl :=
  { (c.wr Fld.st_ST_STATE_STAGE 3) with
    job := { c.job with
      held := false
      runLeft := n }
    gen := { c.gen with restored := false } }

/-- Log 75 (DEDUCED). -/
def Ctl.stepRun (c : Ctl) (m : Message) : Ctl :=
  let first := [c.job.step % 2 ^ 32, c.job.step / 2 ^ 32 % 2 ^ 32]
  if !c.job.roll.groups.any (fun g => g.kind == 4) then c.answer m 0x1E []
  else if c.job.timetable.isNone && c.job.timetableNext.isNone then c.answer m 0x41 []
  else if m.w 2 = 0 then c.answer m 0 first
  else (c.startSteps (m.w 2)).answer m 0 first

def execStepRun (chan : Nat) (s : State) : Host.Outcome State Fault Refusal :=
  match s.m.ctl.takenCmd chan 0x0012 with
  | some m => .next (s.onM (·.onCtl (·.stepRun m)))
  | none => .next s

def Ctl.jobStop (c : Ctl) (m : Message) : Ctl :=
  (if c.job.held then c else { c with job := { c.job with stopReq := true } }).answer m 0 []

def execJobStop (chan : Nat) (s : State) : Host.Outcome State Fault Refusal :=
  match s.m.ctl.takenCmd chan 0x0013 with
  | some m => .next (s.onM (·.onCtl (·.jobStop m)))
  | none => .next s

/-! ## LESSON_LOAD and TIMETABLE_LOAD (R431) -/

/-- LESSON_LOAD once its image has come. -/
def Module.loadLesson (m : Module) (x : Message) (img : List Nat) : Module :=
  let die := x.w 2
  let st := m.ctl.lessonCheck die (x.w 5) img
  if st = 0 then (m.takeLesson die img).onCtl (·.answer x 0 [imgId img % 2 ^ 32, imgId img / 2 ^ 32])
  else m.onCtl (·.answer x st [])

def Module.lessonLoad (m : Module) (x : Message) (buf : BufData) : Module :=
  if 1536 * 1048576 < x.w 5 then m.onCtl (·.answer x 0x18 [])
  else
    let img := m.bufRead (x.buf 3) buf
    let m := m.onCtl (·.countBuf (x.buf 3))
    match img with
    | none => m.onCtl (·.answer x 0x17 [])
    | some b => m.loadLesson x b

def execLessonLoad (chan : Nat) (buf : BufData) (s : State) : Host.Outcome State Fault Refusal :=
  match s.m.ctl.takenCmd chan 0x0020 with
  | some m => .next (s.onM (·.lessonLoad m buf))
  | none => .next s

/-- A Timetable that passes waits for the boundary, or for the next step to start (R286). -/
def Ctl.takeTimetable (c : Ctl) (x : Message) (t : Timetable) : Ctl :=
  ({ c with job := { c.job with timetableNext := some t } }).answer x 0 [t.id % 2 ^ 32, t.id / 2 ^ 32]

def Module.timetableLoad (m : Module) (x : Message) (buf : BufData) : Module :=
  let img := m.bufRead (x.buf 3) buf
  let m := m.onCtl (·.countBuf (x.buf 3))
  match img with
  | none => m.onCtl (·.answer x 0x17 [])
  | some b =>
    let st := m.ttCheck b (x.w 5)
    m.onCtl (fun c => if st = 0 then c.takeTimetable x (timetableOf b) else c.answer x st [])

def execTimetableLoad (chan : Nat) (buf : BufData) (s : State) : Host.Outcome State Fault Refusal :=
  match s.m.ctl.takenCmd chan 0x0021 with
  | some m => .next (s.onM (·.timetableLoad m buf))
  | none => .next s

/-! ## POLICY (R187, R425) -/

/-- Accepted policy settings wait for the plan update (R187). Log 76 (DEDUCED). -/
def Ctl.setPolicy (c : Ctl) (l : List Pair) : Ctl :=
  { c with job := { c.job with policyNext := applyPairs 1 c.job.policyNext l } }

/-- Log 76 (DEDUCED). -/
def Ctl.policyCheck (c : Ctl) (m : Message) : Nat :=
  let l := m.pairs.1
  if l.any (fun p => p.index == 0) && (c.job.attempt != 0 || c.job.step != 0) then 0x15
  else if !l.all Pair.inRange then 0x14
  else if planRefused (applyPairs 1 c.job.policyNext l) c.job.dpSize then 0x1D
  else 0

/-- Log 76 (DEDUCED). -/
def Ctl.policyCmd (c : Ctl) (m : Message) : Ctl :=
  let st := c.policyCheck m
  if st = 0 then (c.setPolicy m.pairs.1).answer m 0 [] else c.answer m st []

def execPolicy (chan : Nat) (s : State) : Host.Outcome State Fault Refusal :=
  match s.m.ctl.takenCmd chan 0x0030 with
  | some m => .next (s.onM (·.onCtl (·.policyCmd m)))
  | none => .next s

end Sys2Proof.Machine
end

