-- ==== Sys2Proof/Machine/Manage.lean ====
section
/-! DEFINITION. Mersene's commands for generations, links, groups, far memory and telemetry (R432 to R435). -/

namespace Sys2Proof.Machine

/-! ## GEN_CONTROL (Table 15-5) -/

/-- SET: the settings wait for the next step boundary (R391). -/
def Ctl.genSet (c : Ctl) (m : Message) : Ctl :=
  let l := m.pairs.1
  let next := applyPairs 4 c.gen.setNext l
  if !l.all Pair.inRange || !genSetOk next then c.answer m 0x14 []
  else ({ c with gen := { c.gen with setNext := next } }).answer m 0 []

def execGenSet (chan : Nat) (s : State) : Host.Outcome State Fault Refusal :=
  match s.m.ctl.takenSub chan 0x0040 0 with
  | some m => .next (s.onM (·.onCtl (·.genSet m)))
  | none => .next s

/-- SEAL_NOW: one seal, asked for in the next token. -/
def execSealNow (chan : Nat) (s : State) : Host.Outcome State Fault Refusal :=
  match s.m.ctl.takenSub chan 0x0040 1 with
  | some m => .next (s.onM (·.onCtl (fun c => ({ c with gen := { c.gen with sealNow := true } }).answer m 0 [])))
  | none => .next s

/-- HOLD. Log 133 (DEDUCED). -/
def Module.holdCmd (m : Module) (x : Message) : Module :=
  if m.ctl.stage = 4 then m.onCtl (·.answer x 0 []) else m.enterHold.onCtl (·.answer x 1 [])

def execHold (chan : Nat) (s : State) : Host.Outcome State Fault Refusal :=
  match s.m.ctl.takenSub chan 0x0040 2 with
  | some m => .next (s.onM (·.holdCmd m))
  | none => .next s

/-- The replacements a RESTORE or REJOIN names: `MODULE_ID` and coordinates. -/
def Message.triples (m : Message) : List (Nat × Nat) :=
  (List.range m.nrepl).map (fun i => (m.w64 (4 + 3 * i), m.w (6 + 3 * i)))

/-- RESTORE. The spec names no status for triples none of which carries this module's coordinates. Log 75 (DEDUCED). -/
def Module.restoreCmd (m : Module) (x : Message) : Module :=
  let c := m.ctl
  if c.stage != 3 || !c.job.held || c.job.attempt != 0 || c.gen.restore.isSome then m.onCtl (·.answer x 0x15 [])
  else if !x.triples.any (fun t => t.2 == c.coord) then m.onCtl (·.answer x (openStatus 0) [])
  else (m.onCtl (·.answer x 1 [])).beginRestore (x.w 3) x.triples

def execRestore (chan : Nat) (s : State) : Host.Outcome State Fault Refusal :=
  match s.m.ctl.takenSub chan 0x0040 3 with
  | some m => .next (s.onM (·.restoreCmd m))
  | none => .next s

/-- REJOIN. Log 75 (DEDUCED). -/
def Module.rejoinCmd (m : Module) (x : Message) : Module :=
  let c := m.ctl
  if c.stage != 4 || c.gen.holdDue then m.onCtl (·.answer x 0x15 [])
  else if c.durable != x.w 3 then m.onCtl (·.answer x 0x40 [])
  else (m.onCtl (·.answer x 1 [])).rejoin (x.w 3) x.triples

def execRejoin (chan : Nat) (s : State) : Host.Outcome State Fault Refusal :=
  match s.m.ctl.takenSub chan 0x0040 4 with
  | some m => .next (s.onM (·.rejoinCmd m))
  | none => .next s

/-! ## LINK_GROUP: coordinates and links (R336, R349, R357) -/

/-- Is a Lesson loaded on any die? -/
def Ctl.anyLesson (c : Ctl) : Bool := (List.range 8).any (fun d => (c.die d).lesson.isSome)

/-- Links that trained for the old coordinates train again. Log 61 (DEDUCED). -/
def Ctl.retrainAll (c : Ctl) : Ctl := c.each (List.range 36) Ctl.retrain

/-- SET_COORD. Log 61 (DEDUCED). -/
def Ctl.setCoord (c : Ctl) (m : Message) : Ctl :=
  let own := m.w 3 % 2 ^ 13
  let sx := bitsOf (m.w 3) 13 5
  let sy := bitsOf (m.w 3) 18 5
  if c.anyLesson then c.answer m 0x1A []
  else if sx < coordX own ∨ sy < coordY own then c.answer m 0x14 []
  else
    let c := ((c.wr Fld.ls_LS_COORD_OWN own).wr Fld.ls_LS_COORD_SX sx).wr Fld.ls_LS_COORD_SY sy
    c.retrainAll.answer m 0 []

/-- Log 61 (DEDUCED). -/
def execSetCoord (chan : Nat) (s : State) : Host.Outcome State Fault Refusal :=
  match s.m.ctl.takenSub chan 0x0050 0 with
  | some m => .next (s.onM (·.onCtl (·.setCoord m)))
  | none => .next s

/-- A link's settings with one of them changed (Table 12-12, in ID order). -/
def LinkSt.setting (l : LinkSt) (i v : Nat) : LinkSt :=
  match i with
  | 0 => { l with enable := v == 1 }
  | 1 | 2 | 3 | 4 => { l with cred := updAt l.cred (i - 1) (fun _ => v) }
  | 5 | 6 | 7 => { l with weight := updAt l.weight (i - 5) (fun _ => v) }
  | 8 => { l with violMax := v }
  | 9 => { l with violWindow := v }
  | _ => { l with retrainUncorr := v }

/-- A link after the pairs that name it, or all links. -/
def LinkSt.settings (l : LinkSt) (x : Nat) (ps : List Pair) : LinkSt :=
  (ps.filter (fun p => p.target == x || p.target == 0xFFFF)).foldl (fun l p => l.setting p.index p.value) l

/-- Has a link a state in which it carries or makes traffic? -/
def Ctl.lkUp (c : Ctl) (x : Nat) : Bool := c.lkState x == 1 || c.lkState x == 2 || c.lkState x == 3

/-- A link whose `ENABLE` is 0 is DISABLED: one that is up goes DOWN first, as by command. Log 60 (DEDUCED). -/
def Ctl.disable (c : Ctl) (x : Nat) : Ctl :=
  if (c.link x).enable then c
  else
    let c := if c.lkUp x then c.goDown x 1 else c
    if c.lkState x = 0 then c else c.setLkState x 0 0

/-- R358: LK_WEIGHT shows the weights of a link. -/
def Ctl.showWeight (c : Ctl) (x : Nat) : Ctl :=
  let w := (c.link x).weight
  c.wr Fld.lk_LK_WEIGHT (w.getD 0 0 % 16 + 16 * (w.getD 1 0 % 16) + 256 * (w.getD 2 0 % 16)) x

/-- LINK_SET (R357). Log 60 (DEDUCED). -/
def Ctl.linkSet (c : Ctl) (m : Message) : Ctl :=
  let l := m.pairs.1
  let links := (List.range 36).map (fun x => (c.link x).settings x l)
  if !l.all Pair.inRange || !links.all (fun k => decide (k.cred.foldl (· + ·) 0 ≤ 1024)) then c.answer m 0x14 []
  else
    let c := c.each (List.range 36) (fun c x => (c.onLink x (fun k => k.settings x l)).showWeight x)
    (c.each (List.range 36) Ctl.disable).answer m 0 []

def execLinkSet (chan : Nat) (s : State) : Host.Outcome State Fault Refusal :=
  match s.m.ctl.takenSub chan 0x0050 1 with
  | some m => .next (s.onM (·.onCtl (·.linkSet m)))
  | none => .next s

/-- An `ACTION` on a link; one that has no meaning in the link's state leaves it. -/
def Ctl.linkAction (c : Ctl) (act x : Nat) : Ctl :=
  match act with
  | 0 => if c.lkUp x then c.goDown x 1 else c
  | 1 => if c.lkState x = 0 ∨ c.lkState x = 4 then c.train x 1 else c
  | _ => c.retrain x

/-- LINK_STATE. -/
def Ctl.linkStateCmd (c : Ctl) (m : Message) : Ctl :=
  let mask := m.w 3 + 2 ^ 32 * m.w 4
  (c.each ((List.range 36).filter (bit mask)) (fun c x => c.linkAction (m.w 5) x)).answer m 0 []

def execLinkState (chan : Nat) (s : State) : Host.Outcome State Fault Refusal :=
  match s.m.ctl.takenSub chan 0x0050 2 with
  | some m => .next (s.onM (·.onCtl (·.linkStateCmd m)))
  | none => .next s

/-! ## Groups (R433) -/

/-- A frame to a module as its source sends it. -/
def frameTo (dst : Nat) : Frame :=
  { tc := 0, type := 0, psel := 0, yfirst := false, detour := false, dst := dst, src := 0, group := 0, hop := 0, mseq := 0, chunk := 0,
    phase := 0, ncontrib := 0, wireFmt := 0, pcrc := 0, payload := [] }

/-- The modules that a frame passes on its way, its source first and its destination left out (R338). Log 62 (DEDUCED). -/
def hops (t : Nat × Nat) (dst : Nat) : Nat → Nat → List Nat
  | 0, _ => []
  | n + 1, u =>
    if u = dst then []
    else match (linksToward u t (frameTo dst)).head? with
      | some x => u :: (match wiredTo u t x with | some p => hops t dst n p.1 | none => [])
      | none => [u]

/-- The links on which a module sends or forwards what the members of a group send each other. Log 62 (DEDUCED). -/
def routesAt (own : Nat) (t : Nat × Nat) (members : List Nat) : Nat :=
  let links := (members.map (fun a => (members.filter (· != a)).map (fun b =>
    if (hops t b 40 a).contains own then linksToward own t (frameTo b) else []))).flatten.flatten
  (links.foldl addNew []).foldl (fun n x => n + 2 ^ x) 0

/-- A member table. -/
def membersOf (b : List Nat) (n : Nat) : List (Nat × Nat) :=
  (List.range n).map (fun i => (fieldAt b (16 * i) 2, fieldAt b (16 * i + 4) 8))

/-- The reserved bytes of a member table. -/
def memberTableOk (b : List Nat) (n : Nat) : Bool :=
  (List.range n).all (fun i => zeros (bytesAt b (16 * i + 2) 2) && zeros (bytesAt b (16 * i + 12) 4))

def Message.groupId (m : Message) : Nat := m.w 3 % 65536

/-- The group a definition makes at this module. -/
def Ctl.groupFrom (c : Ctl) (m : Message) (members : List (Nat × Nat)) : GroupEnt :=
  let fan := m.w 3 / 2 ^ 28
  let n := members.length
  let old := c.job.roll.groups.find? (fun g => g.id == m.groupId)
  let base : GroupEnt :=
    { id := m.groupId, kind := bitsOf (m.w 3) 16 8, member := false, rank := 0xFFFF, parent := 0xFFFF, children := [],
      parityK := bitsOf (m.w 3) 24 4, routes := routesAt c.coord c.torus (members.map (·.1)),
      epoch := (match old with | some g => (g.epoch + 1) % 2 ^ 32 | none => 0), barrierSeq := 0, members := members }
  match members.findIdx? (fun p => p.1 == c.coord) with
  | none => base
  | some r => { base with
      member := true
      rank := r
      parent := if r = 0 then 0xFFFF else (r - 1) / fan
      children := ((List.range n).filter (fun k => decide (0 < k) && (k - 1) / fan == r)) }

/-- Does a definition break R433? -/
def Ctl.groupRefused (c : Ctl) (m : Message) (members : List (Nat × Nat)) : Bool :=
  let kind := bitsOf (m.w 3) 16 8
  let k := bitsOf (m.w 3) 24 4
  ((kind == 4 || kind == 5) && c.job.roll.groups.any (fun g => g.kind == kind && g.id != m.groupId))
    || (if kind = 5 then decide (k < 2 ∨ 8 < k) else k != 0)
    || (kind == 1 && c.job.inJob && decide (c.job.dpSize < members.length))
    || !distinct (members.map (·.1)) || !members.all (fun p => c.inTorus p.1)

/-- A group enters the record in place of the one it redefines. Log 62 (DEDUCED). -/
def putGroup (l : List GroupEnt) (g : GroupEnt) : List GroupEnt :=
  if l.any (fun x => x.id == g.id) then l.map (fun x => if x.id = g.id then g else x) else l ++ [g]

/-- R383: a record holds at most 1,024 groups and 16 MiB. Log 181 (DEDUCED). -/
def RollCall.fits (r : RollCall) : Bool := decide (r.groups.length ≤ 1024) && decide (r.size ≤ 16 * 1048576)

/-- Log 62 (DEDUCED). Log 181 (DEDUCED). -/
def Ctl.defineGroup (c : Ctl) (m : Message) (b : List Nat) : Ctl :=
  let members := membersOf b (m.w 4)
  let l := putGroup c.job.roll.groups (c.groupFrom m members)
  if !memberTableOk b (m.w 4) then c.answer m 0x13 []
  else if c.groupRefused m members || !({ c.job.roll with groups := l } : RollCall).fits then c.answer m 0x1F []
  else (c.setGroups l).answer m 0 []

/-- GROUP_DEFINE. -/
def Module.groupDefine (m : Module) (x : Message) (buf : BufData) : Module :=
  if x.w 7 != 16 * x.w 4 then m.onCtl (·.answer x 0x18 [])
  else
    let b := m.bufRead (x.buf 5) buf
    let m := m.onCtl (·.countBuf (x.buf 5))
    match b with
    | none => m.onCtl (·.answer x 0x17 [])
    | some l => m.onCtl (·.defineGroup x l)

def execGroupDefine (chan : Nat) (buf : BufData) (s : State) : Host.Outcome State Fault Refusal :=
  match s.m.ctl.takenSub chan 0x0050 3 with
  | some m => .next (s.onM (·.groupDefine m buf))
  | none => .next s

/-- GROUP_DELETE. -/
def Ctl.groupDelete (c : Ctl) (m : Message) : Ctl :=
  let l := c.job.roll.groups
  if l.any (fun g => g.id == m.groupId) then (c.setGroups (l.filter (fun g => g.id != m.groupId))).answer m 0 [] else c.answer m 0x1E []

def execGroupDelete (chan : Nat) (s : State) : Host.Outcome State Fault Refusal :=
  match s.m.ctl.takenSub chan 0x0050 4 with
  | some m => .next (s.onM (·.onCtl (·.groupDelete m)))
  | none => .next s

/-! ## FAR_LAYOUT (R300, R399, R434) -/

/-- Does a window lie in the span that R300 allows it? Log 78 (DEDUCED). -/
def Ctl.windowFits (c : Ctl) (base size : Nat) : Bool :=
  size == 0 || (decide (16 ≤ base) && decide (base + size + c.rd Fld.fl_FL_GEN_GIB ≤ 2048))

/-- Log 78 (DEDUCED). -/
def Ctl.farLayout (c : Ctl) (m : Message) : Ctl :=
  let base := m.w 2
  let size := m.w 3
  let same := base == c.rd Fld.fl_FL_BAR2_BASE_GIB && size == c.rd Fld.fl_FL_BAR2_SIZE_GIB
  if c.anyLesson then c.answer m 0x1A []
  else if !c.windowFits base size then c.answer m 0x1C []
  else if c.host.decoder.isSome && !same then c.answer m 0x1B []
  else ((c.wr Fld.fl_FL_BAR2_BASE_GIB base).wr Fld.fl_FL_BAR2_SIZE_GIB size).answer m 0 []

def execFarLayout (chan : Nat) (s : State) : Host.Outcome State Fault Refusal :=
  match s.m.ctl.takenCmd chan 0x0060 with
  | some m => .next (s.onM (·.onCtl (·.farLayout m)))
  | none => .next s

/-! ## TELEMETRY (R435) -/

/-- The block a message names. -/
def Message.block (m : Message) : Option TBlock := tblock (bitsOf (m.w 2) 16 8) (bitsOf (m.w 2) 8 8) (m.w 2 / 2 ^ 24)

/-- `SUB` 0: words in the response. -/
def Module.telemetry (m : Module) (x : Message) : Module :=
  match x.block with
  | none => m.onCtl (·.answer x 0x13 [])
  | some t =>
    if t.size m < x.w 3 + 4 * x.w 4 then m.onCtl (·.answer x 0x18 [])
    else
      let r := t.readMany (x.w 4) m (x.w 3)
      r.2.onCtl (·.answer x 0 r.1)

def execTelemetry (chan : Nat) (s : State) : Host.Outcome State Fault Refusal :=
  match s.m.ctl.takenSub chan 0x0070 0 with
  | some m => .next (s.onM (·.telemetry m))
  | none => .next s

/-- `SUB` 1: bytes into a buffer. Log 71 (DEDUCED). -/
def Module.telemetryBuffer (m : Module) (x : Message) (fail : Bool) : Module :=
  match x.block with
  | none => m.onCtl (·.answer x 0x13 [])
  | some t =>
    if t.size m < x.w 3 + x.w 4 ∨ x.w 7 < x.w 4 then m.onCtl (·.answer x 0x18 [])
    else if !m.ctl.bufOk (x.buf 5) then m.onCtl (·.answer x 0x17 [])
    else
      let r := t.readMany (x.w 4 / 4) m (x.w 3)
      match r.2.bufWrite (x.buf 5) (unwords r.1) fail with
      | some m' => m'.onCtl (·.answer x 0 [])
      | none => r.2.onCtl (·.answer x 0x17 [])

def execTelemetryBuffer (chan : Nat) (fail : Bool) (s : State) : Host.Outcome State Fault Refusal :=
  match s.m.ctl.takenSub chan 0x0070 1 with
  | some m => .next (s.onM (·.telemetryBuffer m fail))
  | none => .next s

end Sys2Proof.Machine
end

