-- ==== Sys2Proof/Machine/Power.lean ====
section
/-! DEFINITION. Power-up, the cap and the clamp, module reset, ageing (R490 to R512). -/

namespace Sys2Proof.Machine

/-! ## What is lost (R503, Table 18-8) -/

/-- What the flash keeps of the security processor's tables. -/
def SecSt.persist (x : SecSt) : SecSt :=
  { SecSt.reset with
    rpmc := x.rpmc, recSlot := x.recSlot, recFmts := x.recFmts, learned := x.learned, learnedTag := x.learnedTag,
    learnedBad := x.learnedBad, repairLog := x.repairLog,
    fabDelay := x.fabDelay, repairMap := x.repairMap }

/-- What a module reset leaves of it besides: the keys, the latched copy, and that test access was opened. -/
def SecSt.afterReset (x : SecSt) : SecSt :=
  { x.persist with
    keys := x.keys, root := x.root, pufDone := x.pufDone, moduleId := x.moduleId, latched := x.latched, record := x.record,
    opened := x.opened, attestOff := x.attestOff, attestDue := x.attestDue, idMismatch := x.idMismatch, leaf := x.leaf, lmsOut := x.lmsOut,
    lastReport := x.lastReport }

/-- Power is gone: every register and unit is as after power-up, the flash stays, the hours with it. -/
def Module.powerLoss (m : Module) (tripped : Bool) : Module :=
  let c := m.ctl
  { mem := [],
    ctl := { Ctl.reset with
      flash := c.flash, free := c.free, out := c.out ++ (if c.pow.flFree then [.pin "FL_FREE" false] else []),
      sec := c.sec.persist, host := { HostSt.reset with perst := c.host.perst },
      gen := { GenSt.reset with precursors := c.gen.precursors },
      pow := { PowerSt.reset with
        hours := c.pow.hours, replanHours := c.pow.replanHours, planned := c.pow.planned, modrst := c.pow.modrst, tripped := tripped } } }

/-! ## Power-up (R501, Table 18-6) -/

/-- POWER_UP: event 1. A trip keeps the module off until VIN has fallen (R499). Log 14 (DESIGN CHOICE). -/
def execPowerUp (modrst : Bool) (s : State) : Host.Outcome State Fault Refusal :=
  if s.m.ctl.pow.on = false ∧ s.m.ctl.pow.tripped = false then
    .next (s.onM (·.onCtl (fun c => { c with pow := { c.pow with on := true, event := 1, modrst := modrst, vin := 3900, cause := 0 } })))
  else .next s

def execVbusInRegulation (s : State) : Host.Outcome State Fault Refusal :=
  if s.m.ctl.pow.event = 1 then .next (s.onM (·.onCtl (fun c => { c with pow := { c.pow with event := 2 } }))) else .next s

/-- The base setpoint of a die's planned rail, mV (Table 18-3). -/
def railBase (die : Nat) : Nat := if die < 8 then 620 else 650
/-- The top of its window. -/
def railTop (die : Nat) : Nat := if die < 8 then 680 else 700

/-- A die's planned setpoint. -/
def Ctl.vset (c : Ctl) (die : Nat) : Nat := Tab.get (railBase die) c.pow.vset die
/-- A die's present setpoint. -/
def Ctl.vnow (c : Ctl) (die : Nat) : Nat := Tab.get (c.vset die) c.pow.vnow die
/-- A die's taps. -/
def Ctl.tapsOf (c : Ctl) (die : Nat) : Nat := Tab.get 0 c.pow.taps die

/-- Give a die its planned and present setpoint, and its taps. -/
def Ctl.setRail (c : Ctl) (die v t : Nat) : Ctl :=
  let c := { c with pow := { c.pow with vset := c.pow.vset.set die v, vnow := c.pow.vnow.set die v, taps := c.pow.taps.set die t } }
  (c.wr Fld.ag_AG_VSET_MV v die).wr Fld.ag_AG_SLACK_TAPS t die

/-- Every planned rail at its base setpoint. -/
def Ctl.baseRails (c : Ctl) : Ctl := c.each logicDies (fun c d => c.setRail d (railBase d) 0)

/-- The hours, as the flash holds them. -/
def Ctl.showHours (c : Ctl) : Ctl := (c.wr Fld.pm_PM_HOURS c.pow.hours).wr Fld.pm_PM_REPLAN_HOURS c.pow.replanHours

/-- FL_FREE rises and falls (R531). -/
def Ctl.setFlFree (c : Ctl) (b : Bool) : Ctl :=
  if c.pow.flFree == b then c else ({ c with pow := { c.pow with flFree := b } }).send (.pin "FL_FREE" b)

/-- RAILS_UP: event 3; MODPG is released, the TAP answers with IDCODE selected, and a module whose MODRST# is asserted is
parked (R515, R522, R531). -/
def Ctl.railsUp (c : Ctl) : Ctl :=
  let c := { c with pow := { c.pow with event := 3, modpg := true }, tap := { c.tap with on := true, ir := 2 } }
  let c := (c.baseRails.showHours).send (.pin "MODPG" true)
  if c.pow.modrst then c.setFlFree true else c

def execRailsUp (s : State) : Host.Outcome State Fault Refusal :=
  if s.m.ctl.pow.event = 2 then .next (s.onM (·.onCtl (·.railsUp))) else .next s

/-- HD_RESET_RELEASE: event 4: mask ROM runs, `STAGE` ROM (Table 16-5, event 1). -/
def execHdResetRelease (s : State) : Host.Outcome State Fault Refusal :=
  if s.m.ctl.pow.event = 3 ∧ s.m.ctl.pow.modrst = false then
    .next (s.onM (·.onCtl (fun c =>
      ({ c with pow := { c.pow with event := 4 }, sec := { c.sec with boot := .rom } }).wr Fld.st_ST_STATE_STAGE 0)))
  else .next s

/-! ## Re-planning (R507, R509) -/

/-- s_hot in 0.05 %, from the slack in 0.1 % and the junction. -/
def sHot (slack t : Nat) : Int := 2 * (slack : Int) - (105 - t : Nat)

/-- The next measurement: the last one stands once the list is used up. -/
def nextMeas (l : List Nat) : List Nat := match l with | _ :: b :: t => b :: t | l => l

/-- Raise the setpoint while slack is short. -/
def planUp (t top : Nat) : Nat → List Nat → Nat → Nat × List Nat
  | 0, l, v => (v, l)
  | n + 1, l, v => if sHot (l.headD 0) t < 200 ∧ v < top then planUp t top n (nextMeas l) (v + 5) else (v, l)

/-- Lower it while slack is ample. -/
def planDown (t base : Nat) : Nat → List Nat → Nat → Nat × List Nat
  | 0, l, v => (v, l)
  | n + 1, l, v => if 240 ≤ sHot (l.headD 0) t ∧ base < v then planDown t base n (nextMeas l) (v - 5) else (v, l)

/-- Add taps while slack is still short. -/
def planTaps (t : Nat) : Nat → List Nat → Nat → Nat
  | 0, _, k => k
  | n + 1, l, k => if sHot (l.headD 0) t < 200 ∧ k < 8 then planTaps t n (nextMeas l) (k + 1) else k

/-- AGE_TAP for the taps `a`+1 .. `b` of a die at its ceiling. -/
def Ctl.postTaps (c : Ctl) (die a b beat : Nat) : Ctl :=
  c.each ((List.range (b - a)).map (a + 1 + ·)) (fun c k => c.post 0x0A07 1 die 0xFF ([k, 1] ++ le 2 beat))

/-- The plan of one die's rail; no setpoint rises while a clamp episode lasts. -/
def Ctl.planDie (c : Ctl) (x : Measure) : Ctl :=
  let up := if c.on Fld.pm_PM_CLAMP_ACTIVE then (c.vset x.die, x.slacks) else planUp x.temp (railTop x.die) 32 x.slacks (c.vset x.die)
  let dn := planDown x.temp (railBase x.die) 32 up.2 up.1
  let k0 := c.tapsOf x.die
  let k := planTaps x.temp 8 dn.2 k0
  let c := c.setRail x.die dn.1 k
  if dn.1 == railTop x.die then c.postTaps x.die k0 k x.beat else c

/-- `CEILING`: some die has taps at its ceiling. -/
def Ctl.showCeiling (c : Ctl) : Ctl :=
  c.wrB Fld.pm_PM_AGE_CEILING (logicDies.any (fun d => c.vset d == railTop d && 0 < c.tapsOf d))

/-- The lengthening that the completion-delay monitor measures on an array with spare rows in use, at most 0x1E (R116, Table 4-11): an
open value. Log 162 (DESIGN CHOICE). -/
def measuredStretch (array : Nat) : Nat := Config.openValue 11 [array] % 0x1F

/-- Mersene's work on the arrays at event 8 after a reset: spare rows from the repair map (R116), the correction table of log
mode (R108). Log 162 (DESIGN CHOICE). -/
def Ctl.armDies (c : Ctl) : Ctl :=
  let c := c.each c.sec.repairMap (fun c p =>
    let r := p.2
    let c := (c.wr Fld.ma_MA_REPAIR_SPARE0_ROW ((r.spare 0).getD 0) p.1).wrB Fld.ma_MA_REPAIR_SPARE0_EN (r.spare 0).isSome p.1
    let c := (c.wr Fld.ma_MA_REPAIR_SPARE1_ROW ((r.spare 1).getD 0) p.1).wrB Fld.ma_MA_REPAIR_SPARE1_EN (r.spare 1).isSome p.1
    (c.wrB Fld.ma_MA_REPAIR_RETIRED r.retired p.1).wr Fld.ma_MA_BEAT_STRETCH (if (r.spare 0).isSome then measuredStretch p.1 else 0) p.1)
  c.each (List.range 8) (fun c d => c.onDie d (fun x => { x with corrections := logCorrections }))

/-- R507, R503: the flash records the setpoints and taps planned. -/
def Ctl.recordPlan (c : Ctl) : Ctl :=
  c.each logicDies (fun c d => { c with pow := { c.pow with planned := c.pow.planned.set d (c.vset d, c.tapsOf d) } })

/-- REPLAN (R507): after a reset every rail starts at its base with no taps; a die's setpoint has changed where it differs from the
one that the flash records. -/
def Ctl.replan (c : Ctl) (meas : List Measure) : Ctl :=
  let first := c.pow.event == 6
  let old := logicDies.map (fun d => (Tab.get (railBase d, 0) c.pow.planned d).1)
  let c := if first then c.baseRails.armDies.trainLinks else c
  let c := (c.each (meas.filter (fun x => logicDies.contains x.die)) Ctl.planDie).showCeiling.recordPlan
  let changed := ((List.zip old (logicDies.map c.vset)).filter (fun p => p.1 != p.2)).length
  let c := { c with pow := { c.pow with replanHours := c.pow.hours, event := if first then 7 else c.pow.event } }
  c.showHours.post 0x0A06 3 dieHD 0xFF (le 2 (c.rd Fld.pm_PM_AGE_AGE_INDEX) ++ [changed])

/-- A re-plan falls due at event 7, and when 500 hours have passed since the last, either way outside a clamp episode (R509). Log 189 (DEDUCED). -/
def Ctl.replanDue (c : Ctl) : Bool :=
  ((c.pow.event == 6 && c.sec.boot == .images) || (c.pow.event == 9 && decide (c.pow.replanHours + 500 ≤ c.pow.hours)))
    && !c.on Fld.pm_PM_CLAMP_ACTIVE

def execReplan (meas : List Measure) (s : State) : Host.Outcome State Fault Refusal :=
  if s.m.ctl.replanDue = true then .next (s.onM (·.onCtl (·.replan meas))) else .next s

/-! ## The end of power-up or reset (R501, R504, R450, R462, R481, R528) -/

/-- Has a link's bring-up ended, or does it wait at event 2 of Table 12-10 for a partner that is absent? -/
def Ctl.linkSettled (c : Ctl) (x : Nat) : Bool := c.lkState x != 1 || (c.link x).event == 1

/-- Event 8 is over: every link has settled, every stack has finished, and every channel is initialised, or a channel has failed and
the others are trained (R318). -/
def Ctl.event8Done (c : Ctl) : Bool :=
  c.inEvent8 && (List.range 36).all c.linkSettled && (List.range 8).all (fun n => c.pow.nmDone.contains n) &&
    ((List.range 64).all (fun ch => c.fcEvent ch == 7) ||
      ((List.range 64).all (fun ch => c.fcEvent ch == 5 || c.fcEvent ch == 8) && (List.range 64).any (fun ch => c.fcEvent ch == 8)))

/-- R462: the staged bank reached READY: the record switches to it, but not while the keys are zeroised (R455, R529); or another bank
did, and the activation failed. Log 29 (DEDUCED). Log 207 (DEDUCED). Log 211 (DEDUCED). -/
def Ctl.activateAtReset (c : Ctl) : Ctl :=
  if !c.sec.fromStaged then c
  else
    let r := c.sec.record
    if c.sec.bank != r.active then
      if c.sec.latched.isSome then c
      else
      let mask := if c.sec.recFmts.isEmpty then 0 else familyBits (changedFamilies c.sec.recFmts c.sec.fmts)
      let c := { c with sec := { c.sec with hoReset := mask } }
      let c := c.writeRec { r with
        active := c.sec.bank, minSvn := max r.minSvn (pkgSvn c.sec.manifest), revoke := r.revoke ||| pkgRevoke c.sec.manifest,
        staged := 0 }
      c.post 0x0802 1 dieHD 0xFF (le 4 (fwVersion c.sec.manifest) ++ [mask, 1])
    else c.post 0x0803 1 dieHD 0xFF (le 2 c.sec.failCode)

/-- R450: the other bank runs. Log 80 (DESIGN CHOICE). -/
def Ctl.announceFallback (c : Ctl) : Ctl :=
  if c.sec.fallback then c.post 0x0804 1 dieHD 0xFF [c.sec.bank] else c

/-- RESET_DONE: `STAGE` READY with `NEAR_READY` and `FAR_READY`, and what waited for READY. Log 211 (DEDUCED). -/
def Ctl.resetDone (c : Ctl) (pIdle : Nat) : Ctl :=
  let c := { c with pow := { c.pow with event := 9, pIdle := pIdle } }
  let c := (c.wr Fld.st_ST_STATE_STAGE 2).wrB Fld.st_ST_STATE_NEAR_READY ((List.range 8).all (fun n => c.on Fld.nm_NM_STATE_READY n))
  let c := c.wrB Fld.st_ST_STATE_FAR_READY ((List.range 64).all (fun ch => c.on Fld.fc_FC_STATE_TRAINED ch))
  let c := c.post 0x0A09 1 dieHD 0xFF ([c.pow.cause, 0] ++ le 2 (c.rd Fld.pm_PM_RESET_RESETS))
  let c := c.announceFallback.activateAtReset
  ({ c with sec := { c.sec with recFmts := c.sec.fmts } }).announceDumps.announceAttest

def execResetDone (pIdle : Nat) (s : State) : Host.Outcome State Fault Refusal :=
  if s.m.ctl.event8Done = true then .next (s.onM (·.onCtl (·.resetDone pIdle))) else .next s

/-! ## The input and the cap (R490, R493, R494) -/

/-- POWER_DOWN (R490): every converter stops; MODPG falls. -/
def execPowerDown (low : Bool) (s : State) : Host.Outcome State Fault Refusal :=
  let trip := s.m.ctl.pow.tripped && !low
  if s.m.ctl.pow.on = true then .next (s.onM (fun m => (m.powerLoss trip).onCtl (·.send (.pin "MODPG" false))))
  else .next (s.onM (·.onCtl (fun c => { c with pow := { c.pow with tripped := trip } })))

/-- THERMAL_TRIP (R499): the converters stop at once; the module stays off until VIN has fallen below 37.5 V. Log 145 (DESIGN CHOICE). -/
def execThermalTrip (_die : Nat) (s : State) : Host.Outcome State Fault Refusal :=
  if s.m.ctl.pow.on = true then .next (s.onM (fun m => (m.powerLoss true).onCtl (·.send (.pin "MODPG" false)))) else .next s

/-- P_cap in W and what decides it: 0 PCAP, 1 the brake, 2 VIN (R494). Log 17 (DEDUCED). -/
def Ctl.capOf (c : Ctl) : Nat × Nat :=
  let op := 2600 - 100 * c.rd Fld.pm_PM_CAP_PCAP
  let b := if c.pow.brake then op / 2 else op
  let v := 65 * c.pow.vin / 100
  if v < b then (v, 2) else (b, if c.pow.brake then 1 else 0)

/-- Bring P_cap in force up to date; a change posts CAP_CHANGE. Log 17 (DEDUCED). -/
def Ctl.recap (c : Ctl) : Ctl :=
  let (w, why) := c.capOf
  let old := c.rd Fld.pm_PM_CAP_CAP_W
  let c := ((c.wr Fld.pm_PM_CAP_CAP_W w).wrB Fld.pm_PM_CAP_BRAKE c.pow.brake).wrB Fld.pm_PM_CAP_VIN_LIMIT (why == 2)
  if w == old then c else c.post 0x0A03 2 dieHD 0xFF (le 2 w ++ [why])

/-- Note VIN, 10 mV. Log 14 (DESIGN CHOICE). -/
def Ctl.setVin (c : Ctl) (v : Nat) : Ctl := ({ c with pow := { c.pow with vin := v } }).wr Fld.pm_PM_INPUT_VIN (min v 65535)

/-- VIN_LOW: posted, and the cap follows VIN. Log 145 (DESIGN CHOICE). -/
def execVinLow (vin : Nat) (s : State) : Host.Outcome State Fault Refusal :=
  if s.m.ctl.pow.on = true then .next (s.onM (·.onCtl (fun c => ((c.setVin vin).post 0x0A01 1 dieHD 0xFF (le 2 vin)).recap)))
  else .next s

/-- VIN_HIGH: raised; operation continues. Log 145 (DESIGN CHOICE). -/
def execVinHigh (vin : Nat) (s : State) : Host.Outcome State Fault Refusal :=
  if s.m.ctl.pow.on = true then .next (s.onM (·.onCtl (fun c => (c.setVin vin).post 0x0A02 0 dieHD 0xFF (le 2 vin)))) else .next s

/-- The die that a planned rail feeds. -/
def railDie : Rail → Option Nat
  | .core n => some n
  | .logic d => some d
  | _ => none

/-- A regulator's report: kept, and the output of a planned rail shown. -/
def Ctl.railReport (c : Ctl) (r : RailReport) : Ctl :=
  let c := { c with pow := { c.pow with rails := c.pow.rails.set r.rail (r.mv, r.ma, r.temp) } }
  match railDie r.rail with
  | some d => c.wr Fld.ag_AG_VSET_MV_NOW r.mv d
  | none => c

/-- INPUT_SAMPLE: the input monitor and the regulators report (R490, R493). -/
def Ctl.inputSample (c : Ctl) (vin pin pcd : Nat) (outs : List RailReport) : Ctl :=
  let c := (c.setVin vin).wr Fld.pm_PM_INPUT_PIN (min pin 65535)
  ({ c with pow := { c.pow with pin := pin, pcd := pcd } }).each outs Ctl.railReport

def execInputSample (vin pin pcd : Nat) (outs : List RailReport) (s : State) : Host.Outcome State Fault Refusal :=
  if s.m.ctl.pow.on = true then .next (s.onM (·.onCtl (·.inputSample vin pin pcd outs))) else .next s

/-- CAP_SAMPLE: a PCAP code counts after three equal samples, the brake at once (R494, R515). -/
def Ctl.capSample (c : Ctl) (pcap : Nat) (brake : Bool) : Ctl :=
  let h := (pcap % 16 :: c.pow.pcap).take 3
  let c := { c with pow := { c.pow with pcap := h, brake := brake } }
  let c := if h == [pcap % 16, pcap % 16, pcap % 16] then c.wr Fld.pm_PM_CAP_PCAP pcap else c
  c.recap

def execCapSample (pcap : Nat) (brake : Bool) (s : State) : Host.Outcome State Fault Refusal :=
  if 3 ≤ s.m.ctl.pow.event then .next (s.onM (·.onCtl (·.capSample pcap brake))) else .next s

/-! ## The clamp (R497) -/

/-- Does the input, 0.1 W, exceed the cap by more than 2 %? -/
def Ctl.overCap (c : Ctl) (pin : Nat) : Bool := decide (c.rd Fld.pm_PM_CAP_CAP_W * 1020 < pin * 100)

/-- Is the input, as last measured, below 95 % of the cap? Log 208 (DEDUCED). -/
def Ctl.belowCap (c : Ctl) : Bool := decide (c.pow.pin * 100 < c.rd Fld.pm_PM_CAP_CAP_W * 950)

/-- The lowest present VDD_CORE setpoint. -/
def Ctl.lowestCore (c : Ctl) : Nat := (List.range 8).foldl (fun v d => min v (c.vnow d)) (c.vnow 0)

/-- An episode begins. -/
def Ctl.clampOn (c : Ctl) : Ctl :=
  let c := ({ c with pow := { c.pow with clampCap := c.rd Fld.pm_PM_CAP_CAP_W, clampLow := c.lowestCore } }).wr Fld.pm_PM_CLAMP_ACTIVE 1
  c.bump Fld.pm_PM_CLAMP_CLAMP_CNT

def execPowerClampEngage (pin : Nat) (s : State) : Host.Outcome State Fault Refusal :=
  if s.m.ctl.pow.on = true ∧ s.m.ctl.on Fld.pm_PM_CLAMP_ACTIVE = false ∧ s.m.ctl.overCap pin = true then
    .next (s.onM (·.onCtl (·.clampOn)))
  else .next s

/-- Change every present VDD_CORE setpoint. -/
def Ctl.moveCores (c : Ctl) (f : Nat → Nat → Nat) : Ctl :=
  c.each (List.range 8) (fun c d => { c with pow := { c.pow with vnow := c.pow.vnow.set d (f d (c.vnow d)) } })

/-- CLAMP_STEP_DOWN: 5 mV, down to 0.58 V at the lowest, while the excess lasts. -/
def Ctl.clampDown (c : Ctl) : Ctl :=
  let c := c.moveCores (fun _ v => max 580 (v - 5))
  { c with pow := { c.pow with clampLow := min c.pow.clampLow c.lowestCore } }

def execClampStepDown (pin : Nat) (s : State) : Host.Outcome State Fault Refusal :=
  if s.m.ctl.on Fld.pm_PM_CLAMP_ACTIVE = true ∧ s.m.ctl.overCap pin = true then .next (s.onM (·.onCtl (·.clampDown))) else .next s

/-- CLAMP_STEP_UP: 5 mV toward the planned setpoints; at them the episode ends and POWER_CLAMP is posted. -/
def Ctl.clampUp (c : Ctl) (us : Nat) : Ctl :=
  let plan := c.vset
  let c := c.moveCores (fun d v => min (plan d) (v + 5))
  if (List.range 8).all (fun d => c.vnow d == plan d) then
    (c.wr Fld.pm_PM_CLAMP_ACTIVE 0).post 0x0A04 1 dieHD 0xFF (le 2 c.pow.clampCap ++ le 2 c.pow.clampLow ++ le 4 us)
  else c

/-- Log 208 (DEDUCED). -/
def execClampStepUp (us : Nat) (s : State) : Host.Outcome State Fault Refusal :=
  if s.m.ctl.on Fld.pm_PM_CLAMP_ACTIVE = true ∧ s.m.ctl.belowCap = true then .next (s.onM (·.onCtl (·.clampUp us))) else .next s

/-- TJ_HOT (R499): raised for each rise through 105 °C. Log 145 (DESIGN CHOICE). -/
def execTjHot (die temp : Nat) (s : State) : Host.Outcome State Fault Refusal :=
  if s.m.ctl.pow.on = true then .next (s.onM (·.onCtl (·.post 0x0A05 0 die 0xFF [min temp 255]))) else .next s

/-! ## Module reset (R502 to R504, Table 18-7) -/

/-- What a reset leaves of a slot: what stands in far memory. Log 126 (DESIGN CHOICE). -/
def GenSlot.cut (g : GenSlot) : GenSlot := { g with todo := [], pool := [], extents := [] }

/-- Events 3 and 4: the far devices in self-refresh, DOWN_NOTICE on every ACTIVE link, every die in reset. Registers return to
their Reset entries but those that survive; near memory and SRAM are lost; far memory stays in its devices (Table 18-8). Log 13 (DESIGN CHOICE). -/
def Module.resetDies (m : Module) (cause : Nat) : Module :=
  let c := m.ctl
  let notices := ((List.range 36).filter c.active).map (fun x => Output.flit x ((c.link x).ctrlFlit [6, 1]))
  let trained := (List.range 64).filter (fun ch => c.on Fld.fc_FC_STATE_TRAINED ch)
  let resets := min (c.rd Fld.pm_PM_RESET_RESETS + 1) 65535
  let c' := { Ctl.reset with
    gen := { GenSt.reset with slots := c.gen.slots.map GenSlot.cut, precursors := c.gen.precursors },
    flash := c.flash, free := c.free, out := c.out ++ notices, stamps := c.stamps, sec := c.sec.afterReset,
    host := { HostSt.reset with
      perst := c.host.perst
      oldWindow := if c.host.decoder.isSome then some (c.rd Fld.fl_FL_BAR2_BASE_GIB * gib, c.rd Fld.fl_FL_BAR2_SIZE_GIB * gib) else c.host.oldWindow },
    tap := { c.tap with pinsTaken := false },
    trace := { TraceSt.reset with
      fifos := c.trace.fifos.map (fun (p : Nat × TraceFifo) => (p.1, { TraceFifo.reset with seq := p.2.seq }))
      dumps := c.trace.dumps
      dumpSeq := c.trace.dumpSeq },
    poison := c.poison.filter (fun l => (farOff (l * 64)).isSome),
    pow := { PowerSt.reset with
      on := true, event := 3, vin := c.pow.vin, modpg := true, modrst := c.pow.modrst, cause := cause, hours := c.pow.hours,
      replanHours := c.pow.replanHours, planned := c.pow.planned, refresh := trained, vset := c.pow.vset, vnow := c.pow.vnow, taps := c.pow.taps } }
  let c' := (c'.wr Fld.pm_PM_RESET_RESET_CAUSE cause).wr Fld.pm_PM_RESET_RESETS resets
  let c' := if c.sec.keys || c.sec.opened then c'.wr Fld.sb_SB_PID (c.rd Fld.sb_SB_PID) else c'
  { mem := Cells.clear (fun a => (farOff a).isNone) m.mem, ctl := c'.showHours }

/-- A reset request: the dump where `STAGE` is JOB or HOLD and none has been written, then the dies (R481, R502). Log 12 (DEDUCED). Log 13 (DESIGN CHOICE). -/
def Module.reset (m : Module) (pin dumped : Bool) : Module :=
  let st := m.ctl.stage
  let m := if (st == 3 || st == 4) && !dumped then m.dump 0 else m
  let m := m.resetDies (if pin then 1 else 2)
  if pin then m.onCtl (fun c => ({ c with pow := { c.pow with modrst := true } }).setFlFree true) else m

/-- MODRST# asserted before HD has left reset: power-up stops after event 3, or the reset in progress is joined (R502, R515). Log 12 (DEDUCED). -/
def Ctl.park (c : Ctl) : Ctl :=
  let c := { c with pow := { c.pow with modrst := true } }
  if c.pow.event = 3 then c.setFlFree true else c

/-- MODULE_RESET: by the pin, or by the watchdog request once the security processor runs firmware. Log 12 (DEDUCED). -/
def execModuleReset (pin : Bool) (s : State) : Host.Outcome State Fault Refusal :=
  let c := s.m.ctl
  if c.pow.on = true ∧ (if pin then 4 else 5) ≤ c.pow.event then .next (s.onM (·.reset pin false))
  else if c.pow.on = true ∧ pin = true then .next (s.onM (·.onCtl (·.park)))
  else .next s

/-- MODRST_RELEASE: FL_FREE falls, and power-up may go on (R531). Log 12 (DEDUCED). -/
def execModrstRelease (s : State) : Host.Outcome State Fault Refusal :=
  .next (s.onM (·.onCtl (fun c => ({ c with pow := { c.pow with modrst := false } }).setFlFree false)))

/-- WATCHDOG_EXPIRY (R481): the security processor dumps the module's state and requests a module reset. Log 19 (DEDUCED). -/
def execWatchdogExpiry (_cp : Nat) (s : State) : Host.Outcome State Fault Refusal :=
  if 5 ≤ s.m.ctl.pow.event then
    .next (s.onM (fun m => (if m.ctl.pow.event = 9 then m.dump 1 else m).reset false true))
  else .next s

/-! ## Ageing (R505 to R508) -/

/-- HOURS_TICK (R507): time with `STAGE` BOOT or later. Log 18 (DEDUCED). -/
def execHoursTick (s : State) : Host.Outcome State Fault Refusal :=
  if s.m.ctl.pow.on = true ∧ s.m.ctl.stage ≠ 0 then
    .next (s.onM (·.onCtl (fun c => ({ c with pow := { c.pow with hours := c.pow.hours + 1 } }).showHours.showPrecursors)))
  else .next s

/-- The ageing index (R506): the rise over the delay recorded at manufacture, in 0.1 % of 7.0 %. Log 18 (DEDUCED). -/
def ageIndex (delay fab : Nat) : Nat := if fab = 0 then 0 else min 4095 ((delay - fab) * 100000 / (7 * fab))

/-- R505: the completion-delay monitors of a die. -/
def monitorsOf (die : Nat) : Nat := if die < 8 then 64 else 8

/-- The lowest slack of a die's monitors. -/
def lowest (l : List Nat) : Nat := l.foldl min (l.headD 0)

/-- The slowest monitor: the largest normalised delay. -/
def slowest (l : List Nat) : Nat := l.foldl max 0

/-- MONITOR_SAMPLE (R505, R506): a die's monitors, its lowest slack, its index by the slowest, its junction and beat; AGE_EOL as it
passes 1,000. Log 18 (DEDUCED). -/
def Ctl.monitor (c : Ctl) (die : Nat) (slacks delays : List Nat) (temp beat : Nat) : Ctl :=
  let slack := lowest slacks
  let i := ageIndex (slowest delays) (Tab.get 0 c.sec.fabDelay die)
  let c := { c with pow := { c.pow with monitors := c.pow.monitors.set die (slacks.zip delays) } }
  let c := ((c.wr Fld.ag_AG_SLACK (min slack 255) die).wr Fld.ag_AG_INDEX i die).wr Fld.ag_AG_INDEX_TEMP (min temp 255) die
  let c := c.wr Fld.ag_AG_BEAT (if die < 8 then min beat 65535 else 0) die
  let c := c.wr Fld.pm_PM_AGE_AGE_INDEX (logicDies.foldl (fun n d => max n (c.rd Fld.ag_AG_INDEX d)) 0)
  if 1000 < i ∧ c.pow.eol.contains die = false then
    (({ c with pow := { c.pow with eol := addNew c.pow.eol die } }).wr Fld.pm_PM_AGE_EOL 1).post 0x0A08 0 die 0xFF (le 2 i)
  else c

/-- Log 144 (DESIGN CHOICE). -/
def execMonitorSample (die : Nat) (slack delay : List Nat) (temp beat : Nat) (s : State) : Host.Outcome State Fault Refusal :=
  if s.m.ctl.pow.on = true ∧ logicDies.contains die = true ∧ slack.length = monitorsOf die ∧ delay.length = monitorsOf die then .next (s.onM (·.onCtl (·.monitor die slack delay temp beat)))
  else .next s

/-- TAP_GUARD (R508): one tap more, up to 8; at the ceiling it is posted. -/
def Ctl.tapGuard (c : Ctl) (die beat : Nat) : Ctl :=
  let k := c.tapsOf die
  if 8 ≤ k then c
  else
    let c := ({ c with pow := { c.pow with taps := c.pow.taps.set die (k + 1) } }).wr Fld.ag_AG_SLACK_TAPS (k + 1) die
    if c.vset die == railTop die then (c.showCeiling).post 0x0A07 1 die 0xFF ([k + 1, 0] ++ le 2 beat) else c

def execTapGuard (die beat : Nat) (s : State) : Host.Outcome State Fault Refusal :=
  if s.m.ctl.pow.on = true ∧ logicDies.contains die = true then .next (s.onM (·.onCtl (·.tapGuard die beat))) else .next s

end Sys2Proof.Machine
end

