-- ==== Sys2Proof/Machine/Registers.lean ====
section
/-! DEFINITION. Register accesses that have no command of their own: BAR0 words, and the register space of a control core (R8, R79,
R119, R163, R251, R264, R296, R398). -/

namespace Sys2Proof.Machine

/-! ## A control core's writes -/

/-- A core writes the role formats of a plan entry, or its `FELL_BACK` (R163, R172). Log 50 (DEDUCED). -/
def Plan.coreWrite (p : Plan) (off v : Nat) : Plan :=
  if off = 0 then { p with fmt := [v % 64, v / 2 ^ 8 % 64, v / 2 ^ 16 % 64] }
  else if off = 12 then { p with fellBack := [bit v 0, bit v 1, bit v 2] }
  else p

/-- `LN_CTRL`: `ENABLE`, and a commit or a discard; both bits act as `DISCARD` (R158). -/
def Ctl.lnCtrlWrite (c : Ctl) (d v : Nat) : Ctl :=
  let c := c.wr Fld.ln_LN_CTRL_ENABLE (v % 2) d
  if bit v 2 then c.fenceWrite d false else if bit v 1 then c.fenceWrite d true else c

/-- Lantern block words: the counts that Table 6-2 limits. Log 50 (DEDUCED). -/
def Ctl.lanternWrite (c : Ctl) (d off v : Nat) : Ctl :=
  if off = 0 then c.lnCtrlWrite d v
  else if off = 0x8 then c.wr Fld.ln_LN_LAYERS_COUNT (min (v % 4096) 0x800) d
  else if off = 0x10 then c.wr Fld.ln_LN_AGREE_SHIFT (max 4 (min (v % 32) 16)) d
  else if 0x200000 ≤ off ∧ off < 0x210000 then
    c.onDie d (fun x => { x with plan := x.plan.upd Plan.reset ((off - 0x200000) / 32) (fun p => p.coreWrite (off % 32) v) })
  else c.wrWord .ln d off v

/-- `Q_CTRL`: `STOP_ON_ERROR`; `RESUME` and `FLUSH` act where the queue is stopped (R258). -/
def Ctl.qCtrlWrite (c : Ctl) (mem : List Host.Cell) (d q v : Nat) : Ctl :=
  let c := c.wrWord .que d (0x40 * q) v
  if bit v 4 && c.on Fld.que_Q_CTRL_STOPPED d q then c.flushRing mem d q
  else if bit v 3 then c.wr Fld.que_Q_CTRL_STOPPED 0 d q else c

/-- A word of the queue block (Table 9-14). -/
def Ctl.queWrite (c : Ctl) (mem : List Host.Cell) (d core off v : Nat) : Ctl :=
  if off < 0x1000 then
    match off % 0x40 with
    | 0x00 => c.qCtrlWrite mem d (off / 0x40) v
    | 0x14 => c.freeRecords d (off / 0x40) v
    | _ => c.wrWord .que d off v
  else if 0x2400 ≤ off ∧ off < 0x2800 then c.semAddBy d core ((off - 0x2400) / 4) v
  else c.wrWord .que d off v

/-- A word that a core writes in the blocks of its die: RW words take their bits, WO fields act (R8, Table 0-4). A block with no such
word is unchanged. Log 50 (DEDUCED). -/
def Module.coreStore (m : Module) (d core b inst off v : Nat) : Module :=
  if b = 0x01 then (if off = 0x20 then m.onCtl (·.wr Fld.gen_AMAXnn_VALUE 0 d (v % 64)) else m)
  else if b = 0x03 then m.onCtl (·.lanternWrite d off v)
  else if b = 0x04 then
    (if inst < 16 ∧ 0x1000 ≤ off ∧ off < 0x9000 then m.vregWrite d inst ((off - 0x1000) / 1024) ((off - 0x1000) / 4 % 256) v else m)
  else if b = 0x06 then m.onRead (fun mem c => c.queWrite mem d core off v)
  else m

/-- A word of one of the channels that a core or a peer reaches. -/
def Ctl.chanStore (c : Ctl) (p : Port) (ch off v : Nat) : Ctl := if c.reaches p ch then c.chanWrite p ch off v else c

/-- A word of one of them read; 0 of another. Log 49 (DESIGN CHOICE). -/
def Ctl.chanLoad (c : Ctl) (p : Port) (ch off : Nat) : Ctl :=
  let r := if c.reaches p ch then c.readCap .mb ch off else (0, c)
  r.2.send (.answer (le 4 r.1))

/-- A write of a core: WATCH looks at it afterwards. A channel of the mailboxes is block 0. Log 49 (DESIGN CHOICE). -/
def Module.coreWrite (m : Module) (d core b inst off v : Nat) : Module :=
  let m := if b = 0 then m.onCtl (·.chanStore (.core d core) inst off v) else m.coreStore d core b inst off v
  m.onCtl (·.watch d core b inst off)

/-- REGISTER_WRITE: of the host, `size` bytes of the BAR that `b` names; on the other paths a word. Log 49 (DESIGN CHOICE). -/
def Module.regWrite (m : Module) (p : Port) (size b inst off v : Nat) : Module :=
  match p with
  | .core d core => m.coreWrite d core b inst off v
  | .peer _ => m.onCtl (·.chanStore p inst off v)
  | .host _ => m.onCtl (·.hostStore p size b off v)
  | .sideband => m.onCtl (·.sbStore off v)

/-! ## Reads -/

/-- A core reads a word of its own die's blocks, or of a channel that serves cores. Log 49 (DESIGN CHOICE). -/
def Module.coreRead (m : Module) (d core b inst off : Nat) : Ctl :=
  if b = 0 then m.ctl.chanLoad (.core d core) inst off
  else match tblock b d inst with
    | some t =>
      let r := t.read m off
      r.2.send (.answer (le 4 r.1))
    | none => m.ctl.send (.answer [0, 0, 0, 0])

/-- REGISTER_READ. Log 49 (DESIGN CHOICE). -/
def Module.regRead (m : Module) (p : Port) (size b inst off : Nat) : Ctl :=
  match p with
  | .core d core => m.coreRead d core b inst off
  | .peer _ => m.ctl.chanLoad p inst off
  | .host _ => m.ctl.hostLoad size b off
  | .sideband =>
    let r := m.ctl.sbLoad off
    r.2.send (.answer (le 4 r.1))

/-! ## The commands -/

/-- May a path carry an access? Log 37 (DEDUCED). -/
def Ctl.pathUp (c : Ctl) : Port → Bool
  | .core d core => c.dieUp d && decide (core < 4)
  | .sideband => c.sbAnswers
  | p => c.portUp p

def execRegisterWrite (port : Port) (blk inst : Nat) (a : AccessBytes) (value : Nat) (s : State) : Host.Outcome State Fault Refusal :=
  if s.m.ctl.pathUp port then .next (s.onM (·.regWrite port a.size blk inst a.off (value % 2 ^ (8 * a.size)))) else .next s

def execRegisterRead (port : Port) (blk inst : Nat) (a : AccessBytes) (s : State) : Host.Outcome State Fault Refusal :=
  if s.m.ctl.pathUp port then .next (s.onM (fun m => { m with ctl := m.regRead port a.size blk inst a.off })) else .next s

end Sys2Proof.Machine
end

