-- ==== Sys2Proof/Machine/Spdm.lean ====
section
/-! DEFINITION. SPDM over the DOE mailbox: the requests of Table 16-7, attestation, the report and the IDE keys (R457 to
R459). SPDM 1.3 gives the bodies of its messages. -/

namespace Sys2Proof.Machine

/-- The DOE mailbox answers once the firmware runs and the host's link is up. Log 37 (DEDUCED). -/
def Ctl.doeUp (c : Ctl) : Bool := c.hdUp && c.stage != 0 && c.host.linkTrained

/-- An ERROR response. Log 30 (PRESUMED). -/
def Ctl.spdmError (c : Ctl) (code : Nat) : Ctl := c.send (.spdm 0x7F [code])

/-- The version byte of a request: GET_VERSION's is SPDM's 1.0, every other's 1.3 (R457). Log 209 (PRESUMED). -/
def spdmVersion (code : Nat) : Nat := if code == 0x84 then 0x10 else 0x13

/-- SPDM's own error for a request it refuses: UnsupportedRequest for another request code, VersionMismatch for another version; the
code of any other refusal is SPDM's. Log 31 (UNVERIFIED). Log 209 (PRESUMED). -/
def Ctl.spdmRefuse (c : Ctl) (code : Nat) (b : List Nat) : Ctl :=
  if b.getD 1 0 != code then c.spdmError 0x07
  else if b.getD 0 0 != spdmVersion code then c.spdmError 0x41
  else
    let r := c.fresh
    r.2.spdmError (r.1 % 256)

/-- A response whose body SPDM gives. Log 30 (PRESUMED). -/
def Ctl.spdmAnswer (c : Ctl) (rsp code : Nat) (head bytes : List Nat) : Ctl :=
  ({ c with sec := { c.sec with answers := c.sec.answers + 1 } }).send (.spdm rsp (head ++ (Config.spdmBody code bytes c.sec.answers).map BitVec.toNat))

/-- Is this the request it is sent as, in a version the module speaks? Log 209 (PRESUMED). -/
def spdmForm (code : Nat) (b : List Nat) : Bool := b.getD 1 0 == code && b.getD 0 0 == spdmVersion code

/-- Does SPDM accept the request at this point of the connection: version, capabilities and algorithms come first, in order? Log 30 (PRESUMED). Log 31 (UNVERIFIED). -/
def Ctl.spdmOk (c : Ctl) (need code : Nat) (bytes : List Nat) : Bool :=
  spdmForm code bytes && decide (need ≤ c.sec.spdm) && Config.spdmAccepts code bytes

/-- The connection has reached a point. -/
def Ctl.spdmAt (c : Ctl) (n : Nat) : Ctl := { c with sec := { c.sec with spdm := n } }

/-- R459: is attestation refused? Log 32 (DEDUCED). -/
def Ctl.noAttest (c : Ctl) : Bool := c.sec.idMismatch || c.sec.attestOff || c.sec.lmsOut

/-- VERSION: one entry, 1.3. Log 209 (PRESUMED). -/
def Ctl.getVersion (c : Ctl) (b : List Nat) : Ctl :=
  if c.spdmOk 0 0x84 b then (c.spdmAt 1).spdmAnswer 0x04 0x84 [0, 1, 0x00, 0x13] b else c.spdmRefuse 0x84 b

/-- Table 16-7: CERT, CHAL, MEAS with signature, ENCRYPT, MAC, KEY_EX, HBEAT, KEY_UPD, as SPDM's flags. Log 209 (PRESUMED). -/
def spdmFlags : Nat := 2 ^ 1 + 2 ^ 2 + 2 * 2 ^ 3 + 2 ^ 6 + 2 ^ 7 + 2 ^ 9 + 2 ^ 13 + 2 ^ 14

/-- CAPABILITIES: CTExponent 18 and the flags. -/
def Ctl.getCaps (c : Ctl) (b : List Nat) : Ctl :=
  if c.spdmOk 1 0xE1 b then (c.spdmAt 2).spdmAnswer 0x61 0xE1 ([0, 18, 0, 0] ++ le 4 spdmFlags) b else c.spdmRefuse 0xE1 b

/-- Does a requester offer ECDSA P-384 and SHA-384? Log 209 (PRESUMED). -/
def algsOffered (b : List Nat) : Bool := bit (fieldAt b 8 4) 7 && bit (fieldAt b 12 4) 1

/-- Table 16-7's algorithms, as SPDM's selections: measurement hash SHA-384, ECDSA P-384, SHA-384, secp384r1, AES-256-GCM.
Log 209 (PRESUMED). -/
def algsSelected : List Nat := le 4 (2 ^ 2) ++ le 4 (2 ^ 7) ++ le 4 (2 ^ 1) ++ le 2 (2 ^ 4) ++ le 2 (2 ^ 1)

/-- ALGORITHMS; a requester with other algorithms is refused. -/
def Ctl.negotiate (c : Ctl) (b : List Nat) : Ctl :=
  if c.spdmOk 2 0xE3 b && algsOffered b then (c.spdmAt 3).spdmAnswer 0x63 0xE3 algsSelected b else c.spdmRefuse 0xE3 b

/-- The DevID certificate, by the two length octets of its DER head; it carries a signature block, so that its length takes two.
Log 209 (PRESUMED). -/
def Ctl.devCert (c : Ctl) : List Nat :=
  let h := c.flashRead certAddr 4
  c.flashRead certAddr (min 0x2000 (4 + 256 * h.getD 2 0 + h.getD 3 0))

/-- Slot 0's certificate chain: its length, the part up to the DevID certificate, that certificate. Log 209 (PRESUMED). -/
def Ctl.certChain (c : Ctl) : List Nat :=
  let l := (Config.issuerChain c.devCert).map BitVec.toNat ++ c.devCert
  le 2 (l.length + 4) ++ [0, 0] ++ l

/-- DIGESTS: slot 0 alone, and its chain's digest. -/
def Ctl.getDigests (c : Ctl) (b : List Nat) : Ctl :=
  if c.spdmOk 3 0x81 b then c.spdmAnswer 0x01 0x81 (1 :: Config.sha384 c.certChain) b else c.spdmRefuse 0x81 b

/-- CERTIFICATE: a portion of slot 0's chain, with the lengths of the portion and of the rest; no other slot is provisioned.
Log 209 (PRESUMED). -/
def Ctl.getCertificate (c : Ctl) (b : List Nat) : Ctl :=
  let off := fieldAt b 4 2
  let part := (c.certChain.drop off).take (fieldAt b 6 2)
  if c.spdmOk 3 0x82 b && b.getD 2 0 % 16 == 0 && decide (off < c.certChain.length) then
    c.spdmAnswer 0x02 0x82 (0 :: le 2 part.length ++ le 2 (c.certChain.length - off - part.length) ++ part) b
  else c.spdmRefuse 0x82 b

/-- CHALLENGE of slot 0: refused where attestation is. Log 209 (PRESUMED). -/
def Ctl.challenge (c : Ctl) (b : List Nat) : Ctl :=
  if !(c.spdmOk 3 0x83 b && b.getD 2 0 == 0) then c.spdmRefuse 0x83 b
  else if c.noAttest then c.spdmError 5
  else c.spdmAnswer 0x03 0x83 [] b

/-- Whether test access has been opened since power-up: the byte of index 9. -/
def Ctl.openedByte (c : Ctl) : Nat := b2n (c.sec.opened || c.sec.latched.isSome)

/-- R458: the content of index 8. -/
def Ctl.recordBytes (c : Ctl) : List Nat := le 4 c.inForce.minSvn ++ [c.inForce.revoke, c.inForce.epoch]

/-- R458: the digest of a measurement index, 1..9. -/
def Ctl.measurement (c : Ctl) (i : Nat) : List Nat :=
  if i ≤ 6 then c.sec.images.getD (i - 1) []
  else if i = 7 then Config.sha384 c.sec.manifest
  else if i = 8 then Config.sha384 c.recordBytes
  else Config.sha384 [c.openedByte]

/-- The blocks a request names: one index, or all. -/
def Ctl.measureBlocks (c : Ctl) (idx : Nat) : List Nat :=
  if idx == 0xFF then ((List.range 9).map (fun i => c.measurement (i + 1))).flatten
  else if idx == 0 || 9 < idx then [] else c.measurement idx

/-- GET_MEASUREMENTS: bit 0 of its first parameter asks for a signature, with the key of slot 0. Log 209 (PRESUMED). -/
def Ctl.measurements (c : Ctl) (b : List Nat) : Ctl :=
  if !(c.spdmOk 3 0xE0 b && (!bit (b.getD 2 0) 0 || b.getD 36 0 % 16 == 0)) then c.spdmRefuse 0xE0 b
  else if c.noAttest && bit (b.getD 2 0) 0 then c.spdmError 5
  else c.spdmAnswer 0x60 0xE0 (c.measureBlocks (b.getD 3 0)) b

/-- A session by its identifier (the requester's half). Log 33 (DEDUCED). -/
def Ctl.session (c : Ctl) (id : Nat) : Option Session := c.sec.sessions.find? (fun x => x.id == id)

/-- A session that has finished its handshake. -/
def Ctl.secured (c : Ctl) (id : Nat) : Bool := c.sec.sessions.any (fun x => x.id == id && x.finished)

/-- Change a session. Log 33 (DEDUCED). -/
def Ctl.onSession (c : Ctl) (id : Nat) (f : Session → Session) : Ctl :=
  { c with sec := { c.sec with sessions := c.sec.sessions.map (fun x => if x.id == id then f x else x) } }

/-- The sessions but one. -/
def Ctl.dropSession (c : Ctl) (id : Nat) : List Session := c.sec.sessions.filter (fun x => x.id != id)

/-- KEY_EXCHANGE with slot 0: a session begins, under the identifier in bytes 4 and 5. Log 33 (DEDUCED). Log 209 (PRESUMED). -/
def Ctl.keyExchange (c : Ctl) (b : List Nat) : Ctl :=
  if !(c.spdmOk 3 0xE4 b && b.getD 3 0 == 0) then c.spdmRefuse 0xE4 b
  else if c.noAttest then c.spdmError 5
  else
    let id := fieldAt b 4 2
    ({ c with sec := { c.sec with sessions := c.dropSession id ++ [(⟨id, false, 0⟩ : Session)] } }).spdmAnswer
      0x64 0xE4 [] b

/-- FINISH. -/
def Ctl.finish (c : Ctl) (id : Nat) (b : List Nat) : Ctl :=
  if (c.session id).isSome && !c.secured id && c.spdmOk 3 0xE5 b then
    (c.onSession id (fun x => { x with finished := true })).spdmAnswer 0x65 0xE5 [] b
  else c.spdmRefuse 0xE5 b

/-- KEY_UPDATE. -/
def Ctl.keyUpdate (c : Ctl) (id : Nat) (b : List Nat) : Ctl :=
  if c.secured id && c.spdmOk 3 0xE9 b then (c.onSession id (fun x => { x with keyGen := x.keyGen + 1 })).spdmAnswer 0x69 0xE9 [] b
  else c.spdmRefuse 0xE9 b

def Ctl.heartbeat (c : Ctl) (id : Nat) (b : List Nat) : Ctl :=
  if c.secured id && c.spdmOk 3 0xE8 b then c.spdmAnswer 0x68 0xE8 [] b else c.spdmRefuse 0xE8 b

/-- END_SESSION. -/
def Ctl.endSession (c : Ctl) (id : Nat) (b : List Nat) : Ctl :=
  if c.secured id && c.spdmOk 3 0xEC b then
    ({ c with sec := { c.sec with sessions := c.dropSession id } }).spdmAnswer 0x6C 0xEC [] b
  else c.spdmRefuse 0xEC b

/-! ## The report (R459) -/

/-- Is this the report request: StandardID IANA, Cyniov's number, and a payload of 0x01 and a nonce? -/
def reportRequest (b : List Nat) : Bool :=
  fieldAt b 4 2 == 4 && b.getD 6 0 == 4 && fieldAt b 7 4 == 61893 && fieldAt b 11 2 == 33 && b.getD 13 0 == 1 && b.length == 46

/-- SHA-384 over the nine measurement blocks. Log 34 (DEDUCED). -/
def Ctl.allMeasured (c : Ctl) : List Nat := Config.sha384 (c.measureBlocks 0xFF)

/-- The 256-byte body, with the event stamp. Log 34 (DEDUCED). -/
def Ctl.reportBody (c : Ctl) (nonce : List Nat) (stamp : Nat) : List Nat :=
  padTo 256 ([0x52, 0x50, 0x54, 0x30] ++ le 2 4 ++ [0, 0] ++ padTo 32 nonce ++ le 8 c.sec.moduleId
    ++ le 4 (c.rd Fld.st_ST_FW_VERSION) ++ le 4 (pkgSvn c.sec.manifest) ++ [c.sec.record.epoch, 0, 0, 0] ++ le 4 c.sec.leaf
    ++ padTo 48 c.allMeasured ++ le 8 stamp ++ [c.openedByte])

/-- The epoch certificate that follows for an epoch above 0. Log 34 (DEDUCED). -/
def Ctl.epochCert (c : Ctl) : List Nat := if c.sec.record.epoch == 0 then [] else c.flashRead (epochAddr c.sec.record.epoch) 3200

/-- The report: signed with the next leaf, which is used up. -/
def Ctl.report (c : Ctl) (nonce : List Nat) (stamp : Nat) : Ctl :=
  let body := c.reportBody nonce stamp
  let r := body ++ c.signBlock 3 c.sec.record.epoch c.sec.leaf body ++ c.epochCert
  (({ c with sec := { c.sec with leaf := c.sec.leaf + 1, lastReport := some stamp } }).send (.spdm 0x7E r)).reserve

/-- Has a second passed since the last report? The stamp counts 1,000,000,000 a second (R467). Log 32 (DEDUCED). -/
def Ctl.tooSoon (c : Ctl) (stamp : Nat) : Bool :=
  match c.sec.lastReport with
  | some t => decide (stamp < t + 1000000000)
  | none => false

/-- VENDOR_DEFINED_REQUEST. Log 32 (DEDUCED). -/
def Ctl.vendorRequest (c : Ctl) (b : List Nat) : Ctl :=
  if !(c.spdmOk 3 0xFE b && reportRequest b) then c.spdmRefuse 0xFE b
  else if c.noAttest then c.spdmError 5
  else
    let r := c.stamp dieHD
    if c.tooSoon r.1 then r.2.spdmError 3 else r.2.report (b.drop 14) r.1

/-- IDE_KEY_SET: a stream comes to its secure state. -/
def Ctl.ideKeys (c : Ctl) (session stream : Nat) : Ctl :=
  if c.secured session then { c with sec := { c.sec with ide := addNew c.sec.ide stream } } else c

/-! ## The commands -/

def execGetVersion (bytes : List Nat) (s : State) : Host.Outcome State Fault Refusal :=
  if s.m.ctl.doeUp then .next (s.onM (·.onCtl (·.getVersion bytes))) else .next s

def execGetCapabilities (bytes : List Nat) (s : State) : Host.Outcome State Fault Refusal :=
  if s.m.ctl.doeUp then .next (s.onM (·.onCtl (·.getCaps bytes))) else .next s

def execNegotiateAlgorithms (bytes : List Nat) (s : State) : Host.Outcome State Fault Refusal :=
  if s.m.ctl.doeUp then .next (s.onM (·.onCtl (·.negotiate bytes))) else .next s

def execGetDigests (bytes : List Nat) (s : State) : Host.Outcome State Fault Refusal :=
  if s.m.ctl.doeUp then .next (s.onM (·.onCtl (·.getDigests bytes))) else .next s

def execGetCertificate (bytes : List Nat) (s : State) : Host.Outcome State Fault Refusal :=
  if s.m.ctl.doeUp then .next (s.onM (·.onCtl (·.getCertificate bytes))) else .next s

def execChallenge (bytes : List Nat) (s : State) : Host.Outcome State Fault Refusal :=
  if s.m.ctl.doeUp then .next (s.onM (·.onCtl (·.challenge bytes))) else .next s

def execGetMeasurements (bytes : List Nat) (s : State) : Host.Outcome State Fault Refusal :=
  if s.m.ctl.doeUp then .next (s.onM (·.onCtl (·.measurements bytes))) else .next s

def execKeyExchange (bytes : List Nat) (s : State) : Host.Outcome State Fault Refusal :=
  if s.m.ctl.doeUp then .next (s.onM (·.onCtl (·.keyExchange bytes))) else .next s

def execFinish (session : Nat) (bytes : List Nat) (s : State) : Host.Outcome State Fault Refusal :=
  if s.m.ctl.doeUp then .next (s.onM (·.onCtl (·.finish session bytes))) else .next s

def execKeyUpdate (session : Nat) (bytes : List Nat) (s : State) : Host.Outcome State Fault Refusal :=
  if s.m.ctl.doeUp then .next (s.onM (·.onCtl (·.keyUpdate session bytes))) else .next s

def execHeartbeat (session : Nat) (bytes : List Nat) (s : State) : Host.Outcome State Fault Refusal :=
  if s.m.ctl.doeUp then .next (s.onM (·.onCtl (·.heartbeat session bytes))) else .next s

def execEndSession (session : Nat) (bytes : List Nat) (s : State) : Host.Outcome State Fault Refusal :=
  if s.m.ctl.doeUp then .next (s.onM (·.onCtl (·.endSession session bytes))) else .next s

def execVendorDefinedRequest (bytes : List Nat) (s : State) : Host.Outcome State Fault Refusal :=
  if s.m.ctl.doeUp then .next (s.onM (·.onCtl (·.vendorRequest bytes))) else .next s

def execIdeKeySet (session stream : Nat) (s : State) : Host.Outcome State Fault Refusal :=
  if s.m.ctl.doeUp then .next (s.onM (·.onCtl (·.ideKeys session stream))) else .next s

end Sys2Proof.Machine
end

