-- ==== Sys2Proof/Machine/Tap.lean ====
section
/-! DEFINITION. The TAP: its instructions, boundary scan, debug access and the erasure that opens test access; the flash
programming path (R522 to R532). -/

namespace Sys2Proof.Machine

/-- Gated instructions, by opcode (Table 19-7). -/
def gatedIr (ir : Nat) : Bool := ir == 0x00 || ir == 0x03 || ir == 0x04 || ir == 0x05 || ir == 0x06 || ir == 0x20
/-- Those that control the pins. Log 35 (DEDUCED). -/
def pinsIr (ir : Nat) : Bool := gatedIr ir && ir != 0x20

/-! ## The boundary register (R525, Table 19-8) -/

/-- What a boundary cell does for its pin. -/
inductive CellRole where
  | input | data | enable | driver | recvP | recvN
deriving DecidableEq, Repr

/-- A lane's three cells. -/
def laneRole (i : Nat) : CellRole := if i % 3 == 0 then .driver else if i % 3 == 1 then .recvP else .recvN

/-- Table 19-8: the pin and the role of a cell, 0..494. -/
def cellOf (i : Nat) : BPin × CellRole :=
  if i == 0 then (.modrst, .input)
  else if i ≤ 4 then (.pcap (i - 1), .input)
  else if i == 5 then (.pbrake, .input)
  else if i ≤ 7 then (.modpg, if i == 6 then .data else .enable)
  else if i == 8 then (.perst, .input)
  else if i == 9 then (.scl, .input)
  else if i ≤ 12 then (.sda, if i == 10 then .data else if i == 11 then .enable else .input)
  else if i ≤ 14 then (.flFree, if i == 13 then .data else .enable)
  else if i ≤ 62 then (.cxl ((i - 15) / 3), laneRole (i - 15))
  else (.lane ((i - 63) / 12) ((i - 63) % 12 / 3), laneRole (i - 63))

def boundaryCells : Nat := 495

/-- What one cell drives under an instruction in effect: an output while its enable cell, the next one, is 1; a lane at a level, or as
1149.6's pulses; nothing under HIGHZ. Log 210 (DESIGN CHOICE). -/
def driveOf (ir : Nat) (cells : List Bool) (i : Nat) : Option (BPin × Drive) :=
  let b := cells.getD i false
  match cellOf i with
  | (p, .data) => some (p, if ir == 0x04 || !cells.getD (i + 1) false then .off else .level b)
  | (p, .driver) => some (p, if ir == 0x04 then .off else if ir == 0x05 then .pulse b else if ir == 0x06 then .train b else .level b)
  | _ => none

/-- What the register drives on the pins. -/
def drives (ir : Nat) (cells : List Bool) : List (BPin × Drive) := (List.range boundaryCells).filterMap (driveOf ir cells)

/-- The level on a pin, where the module knows it. -/
def Ctl.pinLevel (c : Ctl) (p : BPin) : Option Bool :=
  match p with
  | .modrst => some (!c.pow.modrst)
  | .modpg => some c.pow.modpg
  | .perst => some (!c.host.perst)
  | .flFree => some c.pow.flFree
  | _ => none

/-- What a cell captures: the level of its pin; an enable cell and a pin whose level the surroundings set are open. Log 210 (DESIGN CHOICE). -/
def Ctl.cellLevel (c : Ctl) (v i : Nat) : Bool :=
  match cellOf i with
  | (_, .enable) => bit v i
  | (p, _) => (c.pinLevel p).getD (bit v i)

/-- Capture-DR of the boundary register, shifted out, cell 0 first. -/
def Ctl.captureCells (c : Ctl) : Ctl :=
  let r := c.fresh
  r.2.send (.tdo ((List.range boundaryCells).map (c.cellLevel r.1)))

/-! ## The instruction register -/

/-- A pin-controlling instruction is in effect (R526): every link that is up goes DOWN as by the management command, the CXL link with
them, and the register drives the pins. Log 35 (DEDUCED). -/
def Ctl.takePins (c : Ctl) : Ctl :=
  let c := c.each ((List.range 36).filter (fun x => c.lkState x == 1 || c.lkState x == 2 || c.lkState x == 3)) (fun c x => c.goDown x 1)
  let c := if c.hdUp && c.host.linkTrained then c.linkLost else c
  ({ c with tap := { c.tap with pinsTaken := true } }).send (.boundary (drives c.tap.ir c.tap.preload))

/-- The instruction in the register takes effect, test access being open. -/
def Ctl.irEffect (c : Ctl) : Ctl := if pinsIr c.tap.ir then c.takePins else c

/-- Has the security processor passed event 3 of Table 16-5? -/
def Ctl.pastRecord (c : Ctl) : Bool :=
  c.sec.boot == .record || c.sec.boot == .manifest || c.sec.boot == .firmware || c.sec.boot == .images
    || (c.sec.boot == .fault && !c.sec.tried.isEmpty)

/-- Events 1 and 2 of Table 19-11. -/
def Ctl.startErase (c : Ctl) : Ctl :=
  if c.tap.erasing then c else { c with tap := { c.tap with erasing := true, pending := !c.pastRecord } }

/-- The instruction of an opcode: every opcode that Table 19-7 does not list acts as BYPASS (R523). -/
def irOf (op : Nat) : Nat := if [0x00, 0x01, 0x02, 0x03, 0x04, 0x05, 0x06, 0x10, 0x20, 0xFF].contains op then op else 0xFF

/-- Update-IR with an opcode. -/
def Ctl.loadIr (c : Ctl) (op : Nat) : Ctl :=
  let c := { c with tap := { c.tap with ir := irOf op } }
  if !gatedIr (irOf op) then c else if c.tap.opened then c.irEffect else c.startErase

/-- R522: what Capture-IR loads, bit 0 first: 0b0000_ES01. -/
def TapSt.captureIr (t : TapSt) : List Bool := [true, false, t.opened, t.erasing, false, false, false, false]

/-- A scan of the instruction register: the captured value is shifted out, the opcode takes effect. -/
def Ctl.scanIr (c : Ctl) (op : Nat) : Ctl := (c.send (.tdo c.tap.captureIr)).loadIr op

/-- TEST_STATUS (Table 19-10). -/
def Ctl.testStatus (c : Ctl) : Nat :=
  b2n c.tap.opened + 2 * b2n c.tap.erasing + 4 * b2n c.tap.pending + 8 * b2n c.tap.recordFail + 16 * b2n c.tap.pinsTaken
    + 256 * c.stage

/-- Log 35 (DEDUCED). -/
def execTestLogicReset (s : State) : Host.Outcome State Fault Refusal :=
  if s.m.ctl.tap.on then .next (s.onM (·.onCtl (·.loadIr 0x02))) else .next s

def execExtest (s : State) : Host.Outcome State Fault Refusal :=
  if s.m.ctl.tap.on then .next (s.onM (·.onCtl (·.scanIr 0x00))) else .next s

/-- The cells shifted in are what a later instruction drives. -/
def Ctl.preload (c : Ctl) (p : Option (List Bool)) : Ctl :=
  match p with
  | some b => { c with tap := { c.tap with preload := b } }
  | none => c

/-- SAMPLE/PRELOAD: the cells are captured and shifted out, and those shifted in are held. -/
def execSamplePreload (preload : Option (List Bool)) (s : State) : Host.Outcome State Fault Refusal :=
  if s.m.ctl.tap.on then .next (s.onM (·.onCtl (fun c => (c.scanIr 0x01).captureCells.preload preload))) else .next s

/-- IDCODE (R524). -/
def execIdcode (s : State) : Host.Outcome State Fault Refusal :=
  if s.m.ctl.tap.on then .next (s.onM (·.onCtl (fun c => (c.scanIr 0x02).send (.answer (le 4 0x10836D5D))))) else .next s

def execClamp (s : State) : Host.Outcome State Fault Refusal :=
  if s.m.ctl.tap.on then .next (s.onM (·.onCtl (·.scanIr 0x03))) else .next s

def execHighz (s : State) : Host.Outcome State Fault Refusal :=
  if s.m.ctl.tap.on then .next (s.onM (·.onCtl (·.scanIr 0x04))) else .next s

def execExtestPulse (s : State) : Host.Outcome State Fault Refusal :=
  if s.m.ctl.tap.on then .next (s.onM (·.onCtl (·.scanIr 0x05))) else .next s

def execExtestTrain (s : State) : Host.Outcome State Fault Refusal :=
  if s.m.ctl.tap.on then .next (s.onM (·.onCtl (·.scanIr 0x06))) else .next s

def execTestStatus (s : State) : Host.Outcome State Fault Refusal :=
  if s.m.ctl.tap.on then .next (s.onM (·.onCtl (fun c => (c.scanIr 0x10).send (.answer (le 4 c.testStatus))))) else .next s

/-- Capture-DR of the debug register, shifted out: the result of the latest access (Table 19-9). -/
def Ctl.captureDbg (c : Ctl) : Ctl := c.send (.tdo ((List.range 82).map (bit c.tap.dr)))

/-- DBG_ACCESS, and a capture of its register where it is in effect. -/
def Ctl.dbgScan (c : Ctl) : Ctl := if c.tap.opened then (c.scanIr 0x20).captureDbg else c.scanIr 0x20

def execDbgAccess (s : State) : Host.Outcome State Fault Refusal :=
  if s.m.ctl.tap.on then .next (s.onM (·.onCtl (·.dbgScan))) else .next s

/-- BYPASS, and every reserved opcode, which acts as it (R523). -/
def execBypass (s : State) : Host.Outcome State Fault Refusal :=
  if s.m.ctl.tap.on then .next (s.onM (·.onCtl (·.scanIr 0xFF))) else .next s

/-- BOUNDARY_UPDATE_DR (R525): the cells captured are shifted out; under an EXTEST instruction in effect those shifted in drive the
pins, under SAMPLE/PRELOAD they are held. -/
def Ctl.updateBoundary (c : Ctl) (bits : List Bool) : Ctl :=
  if c.tap.ir == 0x01 then c.captureCells.preload (some bits)
  else if c.tap.opened && (c.tap.ir == 0x00 || c.tap.ir == 0x05 || c.tap.ir == 0x06) then
    (c.captureCells.preload (some bits)).send (.boundary (drives c.tap.ir bits))
  else c

def execBoundaryUpdateDr (bits : List Bool) (s : State) : Host.Outcome State Fault Refusal :=
  if s.m.ctl.tap.on then .next (s.onM (·.onCtl (·.updateBoundary bits))) else .next s

/-! ## Debug access (R527) -/

/-- Does a word hold a field that may be written? -/
def writable (b : Blk) (off : Nat) : Bool :=
  (fieldsOf b).any (fun f => (f.covers off).isSome && (decide (f.acc = .rw) || decide (f.acc = .wo)))

/-- The limits on what the trace block stores: `SIZE` 1..128, class 0 always enabled. -/
def Ctl.trLimits (c : Ctl) : Ctl :=
  (c.each [0, 1, 2, 3] (fun c r => c.wr Fld.tr_TR_GEOM_SIZE (max 1 (min 128 (c.rd Fld.tr_TR_GEOM_SIZE 0 r))) 0 r)).wr
    Fld.tr_TR_SRC_CLASS_EN (setBit (c.rd Fld.tr_TR_SRC_CLASS_EN) 0 true)

/-- A write to the trace control block or to a breakpoint block. -/
def Ctl.dbgWrite (c : Ctl) (b : Blk) (inst off v : Nat) : Ctl :=
  if b = .tr then ((c.wrWord .tr inst off v).trLimits).settleRings
  else if off == 0x20 then (if bit v 4 then c.breakResume inst else c)
  else c.wrWord .bp inst off v

/-- What Capture-DR shows: `DATA`, the address as shifted in, `DONE`, `ERROR`. Log 36 (DEDUCED). -/
def dbgResult (bits data : Nat) (err : Bool) : Nat := data % 2 ^ 32 + bits / 2 ^ 32 % 2 ^ 48 * 2 ^ 32 + 2 ^ 80 + b2n err * 2 ^ 81

/-- The block an access names, where TELEMETRY would not refuse it. -/
def Module.dbgTarget (m : Module) (bits : Nat) : Option TBlock :=
  let off := bitsOf bits 32 24
  match tblock (bitsOf bits 56 8) (bitsOf bits 64 8) (bitsOf bits 72 8) with
  | some t => if off % 4 == 0 && decide (off + 4 ≤ t.size m) then some t else none
  | none => none

/-- An access that is refused: the word captured is open. Log 36 (DEDUCED). -/
def Ctl.dbgFail (c : Ctl) (bits : Nat) : Ctl :=
  let r := c.fresh
  { r.2 with tap := { r.2.tap with dr := dbgResult bits r.1 true } }

/-- A write that takes effect; the word captured is open. -/
def Ctl.dbgStore (c : Ctl) (bits : Nat) (b : Blk) (inst : Nat) : Ctl :=
  let r := (c.dbgWrite b inst (bitsOf bits 32 24) (bitsOf bits 0 32)).fresh
  { r.2 with tap := { r.2.tap with dr := dbgResult bits r.1 false } }

/-- One access. Log 36 (DEDUCED). -/
def Module.dbgAccess (m : Module) (bits : Nat) : Ctl :=
  match m.dbgTarget bits with
  | none => m.ctl.dbgFail bits
  | some t =>
    if bit bits 80 then
      match t with
      | .regs b i _ =>
        if (decide (b = .tr) || decide (b = .bp)) && writable b (bitsOf bits 32 24) then m.ctl.dbgStore bits b i else m.ctl.dbgFail bits
      | _ => m.ctl.dbgFail bits
    else
      let r := t.read m (bitsOf bits 32 24)
      { r.2 with tap := { r.2.tap with dr := dbgResult bits r.1 false } }

/-- DEBUG_ACCESS_UPDATE: only while the instruction is in effect; the scan shows the result of the access before. Log 36 (DEDUCED). -/
def execDebugAccessUpdate (bits : Nat) (s : State) : Host.Outcome State Fault Refusal :=
  if s.m.ctl.tap.on && s.m.ctl.tap.opened && s.m.ctl.tap.ir == 0x20 then
    .next (s.onM (fun m => { m with ctl := (m.onCtl Ctl.captureDbg).dbgAccess bits }))
  else .next s

/-! ## Erasure (Table 19-11, R455, R456, R528 to R530) -/

/-- Event 3: the record with `RESERVED_END` = 2^20, in up to three attempts. Log 25 (DEDUCED). -/
def Ctl.eraseRecord (c : Ctl) (writes : List Bool) : Ctl :=
  if (writes.take 3).contains true then c.writeRec { c.sec.record with reservedEnd := 2 ^ 20 }
  else { c with tap := { c.tap with recordFail := true } }

/-- R530: a handover before its commit is abandoned. Log 25 (DEDUCED). -/
def Ctl.abandonHandover (c : Ctl) : Ctl :=
  if c.sec.updState == 3 || c.sec.updState == 5 then
    ({ c with sec := { c.sec with updState := 2, hoReady := false } }).post 0x0803 1 dieHD 0xFF (le 2 0x080A)
  else c

/-- Event 4: the record in force is latched; the key store is zeroised; sessions and secure streams end; a boot that has not begun
on the staged bank takes the active one, as with a `STAGED` of 1 (R456). Log 25 (DEDUCED). Log 207 (DEDUCED). -/
def Ctl.zeroise (c : Ctl) : Ctl :=
  let x := c.sec
  let back := x.fromStaged && x.boot == .record && x.tried.isEmpty
  { c with sec := { x with
      bank := if back then x.record.active % 2 else x.bank, fromStaged := x.fromStaged && !back,
      latched := some x.record, keys := false, root := [], sessions := [], ide := [], attestOff := true, opened := true } }

/-- Events 5 and 6: test access is open, the gated instruction takes effect, and ATTEST_DISABLED is posted from READY on. -/
def Ctl.openTest (c : Ctl) : Ctl :=
  let c := ({ c with tap := { c.tap with opened := true, erasing := false, pending := false } }).irEffect
  ({ c with sec := { c.sec with attestDue := true } }).announceAttest

/-- ERASURE_TAKEN: the security processor takes the request once it has passed event 3 of Table 16-5. Log 25 (DEDUCED). -/
def execErasureTaken (writes : List Bool) (s : State) : Host.Outcome State Fault Refusal :=
  if s.m.ctl.tap.erasing && s.m.ctl.pastRecord then
    .next (s.onM (·.onCtl (fun c => (((c.eraseRecord writes).abandonHandover).zeroise).openTest)))
  else .next s

/-! ## The flash programming path (R531, R532) -/

/-- Does a span meet a region of the flash? -/
def meets (a n lo size : Nat) : Bool := decide (a < lo + size) && decide (lo < a + n)

/-- The learned tables are damaged; the hours, setpoints and taps in the persistent records are whatever was written. Log 20 (DEDUCED). -/
def Ctl.flashTables (c : Ctl) (a n : Nat) : Ctl :=
  let c := if meets a n learnedAddr 0x800000 then { c with sec := { c.sec with learnedBad := true } } else c
  if meets a n persistAddr 0x400000 then
    let h := c.fresh
    let r := h.2.fresh
    ({ r.2 with pow := { r.2.pow with hours := h.1, replanHours := r.1 } }).each logicDies (fun c d =>
      let v := c.fresh
      let t := v.2.fresh
      { t.2 with pow := { t.2.pow with planned := t.2.pow.planned.set d (v.1, t.1) } })
  else c

/-- FLASH_EXTERNAL_WRITE: the programmer drives the bus while FL_FREE is high. -/
def execFlashExternalWrite (addr : Nat) (bytes : List Nat) (s : State) : Host.Outcome State Fault Refusal :=
  if s.m.ctl.pow.flFree && decide (addr + bytes.length ≤ flashSize) then
    .next (s.onM (·.onCtl (fun c => (c.flashTables addr bytes.length).flashWrite addr bytes)))
  else .next s

end Sys2Proof.Machine
end

