-- ==== Sys2Proof/Machine/Update.lean ====
section
/-! DEFINITION. Firmware update: staging, activation, the handover (R461 to R466, Tables 16-10 to 16-12). -/

namespace Sys2Proof.Machine

/-! ## The update's state (R465) -/

/-- The bank that stages: the other than `ACTIVE_BANK`. -/
def Ctl.stagingBank (c : Ctl) : Nat := 1 - c.inForce.active % 2

/-- The state UPDATE_STATUS shows: staging and the events of a handover, else what the record's `STAGED` says; a `STAGED` of 2
counts as 1 while the keys are zeroised (R456). Log 26 (DESIGN CHOICE). -/
def Ctl.updShown (c : Ctl) : Nat :=
  if c.sec.updState = 1 ∨ c.sec.updState = 3 ∨ c.sec.updState = 5 then c.sec.updState
  else match c.inForce.staged with
    | 0 => 0
    | 2 => if c.sec.latched.isSome then 2 else 4
    | _ => 2

/-- Is an activation pending? Log 78 (DEDUCED). -/
def Ctl.updPending (c : Ctl) : Bool := c.updShown == 3 || c.updShown == 4 || c.updShown == 5

/-- Are the keys zeroised (R455)? Log 27 (DEDUCED). -/
def Ctl.locked (c : Ctl) : Bool := c.sec.latched.isSome

/-- The record in force changes: it is written, or, while the key that authenticates it is zeroised, its latched copy changes
(R456, R530). Log 27 (DEDUCED). -/
def Ctl.changeRec (c : Ctl) (f : ProtRec → ProtRec) : Ctl :=
  match c.sec.latched with
  | some r => { c with sec := { c.sec with latched := some (f r) } }
  | none => c.writeRec (f c.sec.record)

/-- UPDATE_FAILED. Log 80 (DESIGN CHOICE). -/
def Ctl.updFailed (c : Ctl) (code : Nat) : Ctl := c.post 0x0803 1 dieHD 0xFF (le 2 code)

/-! ## UPDATE_STAGE and its end (R461) -/

/-- Step 1 of a staging, its package read from the buffer. Log 78 (DEDUCED). -/
def Ctl.beginStage (c : Ctl) (b : List Nat) : Ctl :=
  let c := (c.flashErase (bankAddr c.stagingBank) bankSize).changeRec (fun r => { r with staged := 0 })
  { c with sec := { c.sec with
    updState := 1
    package := b } }

def Module.updateStage (m : Module) (x : Message) (buf : BufData) : Module :=
  if 96 * 1048576 < x.w 5 then m.onCtl (·.answer x 0x18 [])
  else if m.ctl.updPending then m.onCtl (·.answer x 0x0809 [])
  else
    let b := m.bufRead (x.buf 3) buf
    let m := m.onCtl (·.countBuf (x.buf 3))
    match b with
    | none => m.onCtl (·.answer x 0x17 [])
    | some l => m.onCtl (fun c => (c.beginStage l).answer x 1 [])

def execUpdateStage (chan : Nat) (buf : BufData) (s : State) : Host.Outcome State Fault Refusal :=
  match s.m.ctl.takenCmd chan 0x0080 with
  | some m => .next (s.onM (·.updateStage m buf))
  | none => .next s

/-- The first failing code of Table 16-10, or 0. -/
def Ctl.stageOutcome (c : Ctl) (flashOk : Bool) : Nat :=
  let p := c.sec.package
  let st := stageCheck p p.length (bytesAt p) c.inForce
  if st != 0 then st else if !flashOk then 0x0807 else 0

/-- Steps 2 and 3; a staging completes where the keys are zeroised meanwhile (R530). -/
def Ctl.endStage (c : Ctl) (flashOk : Bool) : Ctl :=
  let st := c.stageOutcome flashOk
  let p := c.sec.package
  let c := { c with sec := { c.sec with
    updState := 0
    package := [] } }
  if st = 0 then
    ((c.flashWrite (bankAddr c.stagingBank) p).changeRec (fun r => { r with staged := 1 })).post 0x0801 2 dieHD 0xFF
      (le 4 (fwVersion p) ++ le 4 (pkgSvn p))
  else c.updFailed st

/-- UPDATE_STAGED: staging completes or fails. -/
def execUpdateStaged (flashOk : Bool) (s : State) : Host.Outcome State Fault Refusal :=
  if s.m.ctl.sec.updState = 1 then .next (s.onM (·.onCtl (·.endStage flashOk))) else .next s

/-! ## UPDATE_ACTIVATE and UPDATE_STATUS (R462, R465) -/

/-- `WHEN` 1: the record's `STAGED` becomes 2; 0: the handover of R463 begins. -/
def Ctl.activate (c : Ctl) (atReset : Bool) : Ctl :=
  if atReset then c.changeRec (fun r => { r with staged := 2 })
  else { c with sec := { c.sec with
    updState := 3
    hoReady := false } }

/-- Log 28 (DEDUCED). -/
def Ctl.updateActivate (c : Ctl) (m : Message) : Ctl :=
  if c.locked then c.answer m 0x080A []
  else if c.updPending then c.answer m 0x0809 []
  else if c.updShown != 2 then c.answer m 0x0808 []
  else (c.activate (m.w 2 == 1)).answer m 1 []

def execUpdateActivate (chan : Nat) (s : State) : Host.Outcome State Fault Refusal :=
  match s.m.ctl.takenCmd chan 0x0081 with
  | some m => .next (s.onM (·.onCtl (·.updateActivate m)))
  | none => .next s

/-- Leaves of the epoch no report has used. Log 27 (DEDUCED). -/
def Ctl.leavesLeft (c : Ctl) : Nat := if c.locked then 0 else 2 ^ 20 - c.sec.leaf

/-- Log 26 (DESIGN CHOICE). -/
def Ctl.updateStatus (c : Ctl) (m : Message) : Ctl :=
  let staged := if c.inForce.staged = 0 then 0 else fwVersion (c.bankManifest c.stagingBank)
  c.answer m 0 [c.updShown, c.rd Fld.st_ST_FW_VERSION, staged, c.inForce.minSvn, c.inForce.epoch, c.leavesLeft]

def execUpdateStatus (chan : Nat) (s : State) : Host.Outcome State Fault Refusal :=
  match s.m.ctl.takenCmd chan 0x0082 with
  | some m => .next (s.onM (·.onCtl (·.updateStatus m)))
  | none => .next s

/-! ## The handover (R463, R464, Table 16-11) -/

/-- A failure before the commit: the old set stays in force, `STAGED` 1. Log 28 (DEDUCED). -/
def Ctl.handoverFails (c : Ctl) : Ctl :=
  ({ c with sec := { c.sec with
    updState := 2
    hoReady := false } }).updFailed 0x080B

/-- Where no boundary has to be waited for: READY, a held job, or a hold that restores nothing. Log 28 (DEDUCED). -/
def Ctl.atBoundary (c : Ctl) : Bool :=
  c.stage == 2 || ((c.stage == 3 || c.stage == 4) && c.isHeld && !c.gen.holdDue && c.gen.restore.isNone)

/-- The staged bank, hashed again. -/
def Ctl.stagedSound (c : Ctl) : Bool :=
  [0, 1, 2, 3, 4, 5].all (imageOk (c.bankManifest c.stagingBank) (c.bankRead c.stagingBank))

/-- Events 1 and 2: the new firmware has booted, or has not. -/
def Ctl.newFirmware (c : Ctl) (ok : Bool) : Ctl :=
  if !ok || !c.stagedSound then c.handoverFails
  else
    let c := { c with sec := { c.sec with hoReady := true } }
    if c.atBoundary then c.handover else c

def execNewFirmwareBoot (ok : Bool) (s : State) : Host.Outcome State Fault Refusal :=
  let x := s.m.ctl.sec
  if x.updState = 3 ∧ x.hoReady = false then .next (s.onM (·.onCtl (·.newFirmware ok))) else .next s

/-- R464: a family of settings returns to its defaults. Log 60 (DEDUCED). -/
def Ctl.defaults (c : Ctl) (fam : Nat) : Ctl :=
  match fam with
  | 1 => ({ c with job := { c.job with
      policy := policyDefaults
      policyNext := policyDefaults } }).loadShifts
  | 2 => { c with job := { c.job with
      stepSet := stepDefaults
      stepNext := stepDefaults } }
  | 3 => c.each (List.range 36) (fun c x => (c.onLink x (fun l => { l with
      enable := true
      cred := LinkSt.reset.cred
      weight := LinkSt.reset.weight
      violMax := LinkSt.reset.violMax
      violWindow := LinkSt.reset.violWindow
      retrainUncorr := LinkSt.reset.retrainUncorr })).showWeight x)
  | 4 => ({ c with gen := { c.gen with
      set := genDefaults
      setNext := genDefaults } }).setInterval
  | _ => c.each (List.range 32) (fun c ch => c.unset Fld.mb_MB_CLASS_CLASS_MASK ch)

/-- Events 6 to 8. Log 211 (DEDUCED). -/
def Ctl.commitHandover (c : Ctl) : Ctl :=
  let b := c.stagingBank
  let p := c.bankManifest b
  let fams := changedFamilies c.sec.fmts (pkgFmts p)
  let mask := familyBits fams
  let c := (c.each fams Ctl.defaults).changeRec (fun r => { r with
    active := b
    minSvn := max r.minSvn (pkgSvn p)
    revoke := r.revoke ||| pkgRevoke p
    staged := 0 })
  let c := { c with sec := { c.sec with
    bank := b
    manifest := p
    images := c.imageDigests b
    fmts := pkgFmts p
    recFmts := pkgFmts p
    hoReset := mask
    hoReady := false
    updState := 0 } }
  (c.wr Fld.st_ST_FW_VERSION (fwVersion p)).post 0x0802 1 dieHD 0xFF (le 4 (fwVersion p) ++ [mask, 0])

/-- HANDOVER_COMMIT: event 7, or a failure before it. Log 28 (DEDUCED). -/
def execHandoverCommit (ok : Bool) (s : State) : Host.Outcome State Fault Refusal :=
  if s.m.ctl.sec.updState = 5 then .next (s.onM (·.onCtl (fun c => if ok then c.commitHandover else c.handoverFails)))
  else .next s

end Sys2Proof.Machine
end

