-- ==== Sys2Proof/Machine/Dispatch.lean ====
section
/-! DEFINITION. The dispatch: one arm for each command, in the order of the opcode table. -/

namespace Sys2Proof.Machine

/-- The meaning of a command. Log 10 (DESIGN CHOICE). Log 140 (DESIGN CHOICE). Log 190 (DESIGN CHOICE). -/
def exec (i : Instr) (s : State) : Host.Outcome State Fault Refusal :=
  match i with
  | .powerUp modrst => Sys2Proof.Machine.execPowerUp modrst s
  | .vbusInRegulation => Sys2Proof.Machine.execVbusInRegulation s
  | .railsUp => Sys2Proof.Machine.execRailsUp s
  | .hdResetRelease => Sys2Proof.Machine.execHdResetRelease s
  | .pufReconstruct pattern => Sys2Proof.Machine.execPufReconstruct pattern s
  | .bootRecordFound => Sys2Proof.Machine.execBootRecordFound s
  | .bootManifestVerify => Sys2Proof.Machine.execBootManifestVerify s
  | .hdFirmwareLoad => Sys2Proof.Machine.execHdFirmwareLoad s
  | .firmwareImagesLoad => Sys2Proof.Machine.execFirmwareImagesLoad s
  | .replan meas => Sys2Proof.Machine.execReplan meas s
  | .nmBringup stack repaired exhausted bistFail => Sys2Proof.Machine.execNmBringup stack repaired exhausted bistFail s
  | .fmOscillatorLock fm => Sys2Proof.Machine.execFmOscillatorLock fm s
  | .lpddr6Init ch => Sys2Proof.Machine.execLpddr6Init ch s
  | .trainingSettingsRead ch identity => Sys2Proof.Machine.execTrainingSettingsRead ch identity s
  | .quickVerification ch pass => Sys2Proof.Machine.execQuickVerification ch pass s
  | .fullTrainingAttempt ch pass settings => Sys2Proof.Machine.execFullTrainingAttempt ch pass settings s
  | .farMemoryInit exhausted => Sys2Proof.Machine.execFarMemoryInit exhausted s
  | .resetDone pIdle => Sys2Proof.Machine.execResetDone pIdle s
  | .powerDown low => Sys2Proof.Machine.execPowerDown low s
  | .vinLow vin => Sys2Proof.Machine.execVinLow vin s
  | .vinHigh vin => Sys2Proof.Machine.execVinHigh vin s
  | .inputSample vin pin pcd outs => Sys2Proof.Machine.execInputSample vin pin pcd outs s
  | .capSample pcap brake => Sys2Proof.Machine.execCapSample pcap brake s
  | .budgetRecompute g tj tjDie => Sys2Proof.Machine.execBudgetRecompute g tj tjDie s
  | .powerClampEngage pin => Sys2Proof.Machine.execPowerClampEngage pin s
  | .clampStepDown pin => Sys2Proof.Machine.execClampStepDown pin s
  | .clampStepUp us => Sys2Proof.Machine.execClampStepUp us s
  | .tjHot die temp => Sys2Proof.Machine.execTjHot die temp s
  | .thermalTrip die => Sys2Proof.Machine.execThermalTrip die s
  | .moduleReset pin => Sys2Proof.Machine.execModuleReset pin s
  | .modrstRelease => Sys2Proof.Machine.execModrstRelease s
  | .watchdogExpiry cp => Sys2Proof.Machine.execWatchdogExpiry cp s
  | .hoursTick => Sys2Proof.Machine.execHoursTick s
  | .monitorSample die slack delay temp beat => Sys2Proof.Machine.execMonitorSample die slack delay temp beat s
  | .tapGuard die beat => Sys2Proof.Machine.execTapGuard die beat s
  | .refreshTempSample ctrl temp => Sys2Proof.Machine.execRefreshTempSample ctrl temp s
  | .strobeRetrack ch beyondHalf => Sys2Proof.Machine.execStrobeRetrack ch beyondHalf s
  | .scrubRead addr symbols => Sys2Proof.Machine.execScrubRead addr symbols s
  | .cowWriteResume die queue seq => Sys2Proof.Machine.execCowWriteResume die queue seq s
  | .slotStart die => Sys2Proof.Machine.execSlotStart die s
  | .stepStart die => Sys2Proof.Machine.execStepStart die s
  | .issue die queue => Sys2Proof.Machine.execIssue die queue s
  | .drainWord die queue => Sys2Proof.Machine.execDrainWord die queue s
  | .endWord die queue => Sys2Proof.Machine.execEndWord die queue s
  | .descriptorFetch die queue => Sys2Proof.Machine.execDescriptorFetch die queue s
  | .semaphoreWaitMet die queue => Sys2Proof.Machine.execSemaphoreWaitMet die queue s
  | .hallPassGrant => Sys2Proof.Machine.execHallPassGrant s
  | .engineStart die queue seq => Sys2Proof.Machine.execEngineStart die queue seq s
  | .descriptorComplete die queue seq => Sys2Proof.Machine.execDescriptorComplete die queue seq s
  | .completionRecord die queue => Sys2Proof.Machine.execCompletionRecord die queue s
  | .hallPassRelease die queue seq => Sys2Proof.Machine.execHallPassRelease die queue seq s
  | .nop die queue seq => Sys2Proof.Machine.execNop die queue seq s
  | .dmCopy die queue seq errs => Sys2Proof.Machine.execDmCopy die queue seq errs s
  | .arrayPassGroup die array => Sys2Proof.Machine.execArrayPassGroup die array s
  | .vchain die vu => Sys2Proof.Machine.execVchain die vu s
  | .rtTopk die queue seq => Sys2Proof.Machine.execRtTopk die queue seq s
  | .rtDisp die queue seq => Sys2Proof.Machine.execRtDisp die queue seq s
  | .rtExloop die queue seq => Sys2Proof.Machine.execRtExloop die queue seq s
  | .rtComb die queue seq => Sys2Proof.Machine.execRtComb die queue seq s
  | .clAllreduce die queue seq => Sys2Proof.Machine.execClAllreduce die queue seq s
  | .clReducescatter die queue seq => Sys2Proof.Machine.execClReducescatter die queue seq s
  | .clAllgather die queue seq => Sys2Proof.Machine.execClAllgather die queue seq s
  | .clBcast die queue seq => Sys2Proof.Machine.execClBcast die queue seq s
  | .clReduce die queue seq => Sys2Proof.Machine.execClReduce die queue seq s
  | .clSend die queue seq => Sys2Proof.Machine.execClSend die queue seq s
  | .clRecv die queue seq => Sys2Proof.Machine.execClRecv die queue seq s
  | .clBarrier die queue seq => Sys2Proof.Machine.execClBarrier die queue seq s
  | .semAdd die sem value => Sys2Proof.Machine.execSemAdd die sem value s
  | .resume die queue => Sys2Proof.Machine.execResume die queue s
  | .flush die queue => Sys2Proof.Machine.execFlush die queue s
  | .qCheadWrite die queue value => Sys2Proof.Machine.execQCheadWrite die queue value s
  | .amaxClr die slot => Sys2Proof.Machine.execAmaxClr die slot s
  | .commit die => Sys2Proof.Machine.execCommit die s
  | .discard die => Sys2Proof.Machine.execDiscard die s
  | .lanternFenceEffect die => Sys2Proof.Machine.execLanternFenceEffect die s
  | .vregWrite die vu vreg lane value => Sys2Proof.Machine.execVregWrite die vu vreg lane value s
  | .vregWriteEffect die vu => Sys2Proof.Machine.execVregWriteEffect die vu s
  | .registerWrite port blk inst bytes value => Sys2Proof.Machine.execRegisterWrite port blk inst bytes value s
  | .passIssue die array => Sys2Proof.Machine.execPassIssue die array s
  | .loadBeat die array errs => Sys2Proof.Machine.execLoadBeat die array errs s
  | .arrayBeat die array errs => Sys2Proof.Machine.execArrayBeat die array errs s
  | .readoutRow die array => Sys2Proof.Machine.execReadoutRow die array s
  | .recomputeAttempt die queue seq => Sys2Proof.Machine.execRecomputeAttempt die queue seq s
  | .fallback die queue seq => Sys2Proof.Machine.execFallback die queue seq s
  | .sampledAgreeCompare die queue seq tile => Sys2Proof.Machine.execSampledAgreeCompare die queue seq tile s
  | .vectorStep die vu => Sys2Proof.Machine.execVectorStep die vu s
  | .tileBufferSlotReady die vu buf => Sys2Proof.Machine.execTileBufferSlotReady die vu buf s
  | .countBlockReceive die queue seq rank srcDie bytes => Sys2Proof.Machine.execCountBlockReceive die queue seq rank srcDie bytes s
  | .dispatchCountTimeout die queue seq rank srcDie => Sys2Proof.Machine.execDispatchCountTimeout die queue seq rank srcDie s
  | .admittedCountReturn die queue seq rank ownDie bytes => Sys2Proof.Machine.execAdmittedCountReturn die queue seq rank ownDie bytes s
  | .routeRowReceive die queue seq rank srcDie bytes => Sys2Proof.Machine.execRouteRowReceive die queue seq rank srcDie bytes s
  | .dispatchRowTimeout die queue seq => Sys2Proof.Machine.execDispatchRowTimeout die queue seq s
  | .combineReturnReceive die queue seq rank ownDie bytes => Sys2Proof.Machine.execCombineReturnReceive die queue seq rank ownDie bytes s
  | .combineReturnTimeout die queue seq => Sys2Proof.Machine.execCombineReturnTimeout die queue seq s
  | .enterCheck die => Sys2Proof.Machine.execEnterCheck die s
  | .moduleTokenSend => Sys2Proof.Machine.execModuleTokenSend s
  | .checkTokenReceive rank bytes => Sys2Proof.Machine.execCheckTokenReceive rank bytes s
  | .verdictReceive bytes => Sys2Proof.Machine.execVerdictReceive bytes s
  | .applyDone die => Sys2Proof.Machine.execApplyDone die s
  | .checkTimeout => Sys2Proof.Machine.execCheckTimeout s
  | .planProposal => Sys2Proof.Machine.execPlanProposal s
  | .proposalReceive rank bytes => Sys2Proof.Machine.execProposalReceive rank bytes s
  | .linkPllLock link => Sys2Proof.Machine.execLinkPllLock link s
  | .partnerSignalDetect link => Sys2Proof.Machine.execPartnerSignalDetect link s
  | .equalisationDone link => Sys2Proof.Machine.execEqualisationDone link s
  | .codewordLock link pair0 pair1 => Sys2Proof.Machine.execCodewordLock link pair0 pair1 s
  | .trainingAttemptFail link => Sys2Proof.Machine.execTrainingAttemptFail link s
  | .ident link bytes => Sys2Proof.Machine.execIdent link bytes s
  | .nak link bytes => Sys2Proof.Machine.execNak link bytes s
  | .violation link bytes => Sys2Proof.Machine.execViolation link bytes s
  | .echo link bytes => Sys2Proof.Machine.execEcho link bytes s
  | .retrainReq link bytes => Sys2Proof.Machine.execRetrainReq link bytes s
  | .downNotice link bytes => Sys2Proof.Machine.execDownNotice link bytes s
  | .flitReceive link bytes corrected uncorr => Sys2Proof.Machine.execFlitReceive link bytes corrected uncorr s
  | .flitTransmit link => Sys2Proof.Machine.execFlitTransmit link s
  | .replayTimeout link => Sys2Proof.Machine.execReplayTimeout link s
  | .echoSendTick link => Sys2Proof.Machine.execEchoSendTick link s
  | .frameReceive link tc => Sys2Proof.Machine.execFrameReceive link tc s
  | .tc0HeldRelease => Sys2Proof.Machine.execTc0HeldRelease s
  | .lossOfSignal link lane => Sys2Proof.Machine.execLossOfSignal link lane s
  | .retrainDone link pair0 pair1 => Sys2Proof.Machine.execRetrainDone link pair0 pair1 s
  | .violationWindowEnd link => Sys2Proof.Machine.execViolationWindowEnd link s
  | .chunkReceive group coll chunk rank ncontrib bytes => Sys2Proof.Machine.execChunkReceive group coll chunk rank ncontrib bytes s
  | .combineWaitTimeout group coll chunk => Sys2Proof.Machine.execCombineWaitTimeout group coll chunk s
  | .distributeReceive group coll chunk bytes => Sys2Proof.Machine.execDistributeReceive group coll chunk bytes s
  | .distLost group coll chunk => Sys2Proof.Machine.execDistLost group coll chunk s
  | .dieIssueTimeout group coll => Sys2Proof.Machine.execDieIssueTimeout group coll s
  | .drainStart => Sys2Proof.Machine.execDrainStart s
  | .drainLineCopy => Sys2Proof.Machine.execDrainLineCopy s
  | .drainComplete => Sys2Proof.Machine.execDrainComplete s
  | .mirrorData rank bytes => Sys2Proof.Machine.execMirrorData rank bytes s
  | .parityDelta rank bytes => Sys2Proof.Machine.execParityDelta rank bytes s
  | .parityFull rank bytes => Sys2Proof.Machine.execParityFull rank bytes s
  | .restoreData rank bytes => Sys2Proof.Machine.execRestoreData rank bytes s
  | .ack rank bytes => Sys2Proof.Machine.execAck rank bytes s
  | .request rank bytes => Sys2Proof.Machine.execRequest rank bytes s
  | .protectRetransmit index => Sys2Proof.Machine.execProtectRetransmit index s
  | .durabilityReportReceive rank genA genB => Sys2Proof.Machine.execDurabilityReportReceive rank genA genB s
  | .durableAnnounce gen => Sys2Proof.Machine.execDurableAnnounce gen s
  | .replicaDigestReceive rank bytes => Sys2Proof.Machine.execReplicaDigestReceive rank bytes s
  | .localRestore => Sys2Proof.Machine.execLocalRestore s
  | .rollcallReplay => Sys2Proof.Machine.execRollcallReplay s
  | .rollcallDigestReceive rank bytes => Sys2Proof.Machine.execRollcallDigestReceive rank bytes s
  | .restoreDone => Sys2Proof.Machine.execRestoreDone s
  | .restoreAbort => Sys2Proof.Machine.execRestoreAbort s
  | .claim port chan => Sys2Proof.Machine.execClaim port chan s
  | .release port chan => Sys2Proof.Machine.execRelease port chan s
  | .go port chan value => Sys2Proof.Machine.execGo port chan value s
  | .messageTake => Sys2Proof.Machine.execMessageTake s
  | .ping chan => Sys2Proof.Machine.execPing chan s
  | .jobSetup chan => Sys2Proof.Machine.execJobSetup chan s
  | .jobEnd chan => Sys2Proof.Machine.execJobEnd chan s
  | .stepRun chan => Sys2Proof.Machine.execStepRun chan s
  | .jobStop chan => Sys2Proof.Machine.execJobStop chan s
  | .lessonLoad chan buf => Sys2Proof.Machine.execLessonLoad chan buf s
  | .timetableLoad chan buf => Sys2Proof.Machine.execTimetableLoad chan buf s
  | .policy chan => Sys2Proof.Machine.execPolicy chan s
  | .genSet chan => Sys2Proof.Machine.execGenSet chan s
  | .sealNow chan => Sys2Proof.Machine.execSealNow chan s
  | .hold chan => Sys2Proof.Machine.execHold chan s
  | .restore chan => Sys2Proof.Machine.execRestore chan s
  | .rejoin chan => Sys2Proof.Machine.execRejoin chan s
  | .setCoord chan => Sys2Proof.Machine.execSetCoord chan s
  | .linkSet chan => Sys2Proof.Machine.execLinkSet chan s
  | .linkState chan => Sys2Proof.Machine.execLinkState chan s
  | .groupDefine chan buf => Sys2Proof.Machine.execGroupDefine chan buf s
  | .groupDelete chan => Sys2Proof.Machine.execGroupDelete chan s
  | .farLayout chan => Sys2Proof.Machine.execFarLayout chan s
  | .telemetry chan => Sys2Proof.Machine.execTelemetry chan s
  | .telemetryBuffer chan fail => Sys2Proof.Machine.execTelemetryBuffer chan fail s
  | .updateStage chan buf => Sys2Proof.Machine.execUpdateStage chan buf s
  | .updateStaged flashOk => Sys2Proof.Machine.execUpdateStaged flashOk s
  | .updateActivate chan => Sys2Proof.Machine.execUpdateActivate chan s
  | .updateStatus chan => Sys2Proof.Machine.execUpdateStatus chan s
  | .newFirmwareBoot ok => Sys2Proof.Machine.execNewFirmwareBoot ok s
  | .handoverCommit ok => Sys2Proof.Machine.execHandoverCommit ok s
  | .dbPendClear value => Sys2Proof.Machine.execDbPendClear value s
  | .dbMaskWrite value => Sys2Proof.Machine.execDbMaskWrite value s
  | .evHeadWrite value => Sys2Proof.Machine.execEvHeadWrite value s
  | .eventDelayExpiry => Sys2Proof.Machine.execEventDelayExpiry s
  | .flr => Sys2Proof.Machine.execFlr s
  | .cxlReset => Sys2Proof.Machine.execCxlReset s
  | .hotReset => Sys2Proof.Machine.execHotReset s
  | .cxPerstAssert => Sys2Proof.Machine.execCxPerstAssert s
  | .hdmDecoderCommit base size ways => Sys2Proof.Machine.execHdmDecoderCommit base size ways s
  | .cxlMemAccess off len write errs => Sys2Proof.Machine.execCxlMemAccess off len write errs s
  | .privateWrite bytes => Sys2Proof.Machine.execPrivateWrite bytes s
  | .privateRead words => Sys2Proof.Machine.execPrivateRead words s
  | .entdaa addr => Sys2Proof.Machine.execEntdaa addr s
  | .setdasa static addr => Sys2Proof.Machine.execSetdasa static addr s
  | .rstdaa => Sys2Proof.Machine.execRstdaa s
  | .enec events => Sys2Proof.Machine.execEnec events s
  | .disec events => Sys2Proof.Machine.execDisec events s
  | .getpid => Sys2Proof.Machine.execGetpid s
  | .getbcr => Sys2Proof.Machine.execGetbcr s
  | .getdcr => Sys2Proof.Machine.execGetdcr s
  | .getstatus => Sys2Proof.Machine.execGetstatus s
  | .getmwl => Sys2Proof.Machine.execGetmwl s
  | .getmrl => Sys2Proof.Machine.execGetmrl s
  | .getVersion bytes => Sys2Proof.Machine.execGetVersion bytes s
  | .getCapabilities bytes => Sys2Proof.Machine.execGetCapabilities bytes s
  | .negotiateAlgorithms bytes => Sys2Proof.Machine.execNegotiateAlgorithms bytes s
  | .getDigests bytes => Sys2Proof.Machine.execGetDigests bytes s
  | .getCertificate bytes => Sys2Proof.Machine.execGetCertificate bytes s
  | .challenge bytes => Sys2Proof.Machine.execChallenge bytes s
  | .getMeasurements bytes => Sys2Proof.Machine.execGetMeasurements bytes s
  | .keyExchange bytes => Sys2Proof.Machine.execKeyExchange bytes s
  | .finish session bytes => Sys2Proof.Machine.execFinish session bytes s
  | .keyUpdate session bytes => Sys2Proof.Machine.execKeyUpdate session bytes s
  | .heartbeat session bytes => Sys2Proof.Machine.execHeartbeat session bytes s
  | .endSession session bytes => Sys2Proof.Machine.execEndSession session bytes s
  | .vendorDefinedRequest bytes => Sys2Proof.Machine.execVendorDefinedRequest bytes s
  | .traceRecordAccept die => Sys2Proof.Machine.execTraceRecordAccept die s
  | .ringSnapshot ring => Sys2Proof.Machine.execRingSnapshot ring s
  | .traceFrameReceive src bytes => Sys2Proof.Machine.execTraceFrameReceive src bytes s
  | .breakpointResume die core => Sys2Proof.Machine.execBreakpointResume die core s
  | .echoFabricExchange => Sys2Proof.Machine.execEchoFabricExchange s
  | .testLogicReset => Sys2Proof.Machine.execTestLogicReset s
  | .extest => Sys2Proof.Machine.execExtest s
  | .samplePreload preload => Sys2Proof.Machine.execSamplePreload preload s
  | .idcode => Sys2Proof.Machine.execIdcode s
  | .clamp => Sys2Proof.Machine.execClamp s
  | .highz => Sys2Proof.Machine.execHighz s
  | .extestPulse => Sys2Proof.Machine.execExtestPulse s
  | .extestTrain => Sys2Proof.Machine.execExtestTrain s
  | .testStatus => Sys2Proof.Machine.execTestStatus s
  | .dbgAccess => Sys2Proof.Machine.execDbgAccess s
  | .bypass => Sys2Proof.Machine.execBypass s
  | .debugAccessUpdate bits => Sys2Proof.Machine.execDebugAccessUpdate bits s
  | .erasureTaken writes => Sys2Proof.Machine.execErasureTaken writes s
  | .registerRead port blk inst bytes => Sys2Proof.Machine.execRegisterRead port blk inst bytes s
  | .configurationRequest off write => Sys2Proof.Machine.execConfigurationRequest off write s
  | .cxPerstDeassert => Sys2Proof.Machine.execCxPerstDeassert s
  | .cxlLinkTrained width rate => Sys2Proof.Machine.execCxlLinkTrained width rate s
  | .ideKeySet session stream => Sys2Proof.Machine.execIdeKeySet session stream s
  | .stBeatTick => Sys2Proof.Machine.execStBeatTick s
  | .barrierTokenReceive group rank seq => Sys2Proof.Machine.execBarrierTokenReceive group rank seq s
  | .flashExternalWrite addr bytes => Sys2Proof.Machine.execFlashExternalWrite addr bytes s
  | .boundaryUpdateDr bits => Sys2Proof.Machine.execBoundaryUpdateDr bits s

end Sys2Proof.Machine
end

