-- ==== Sys2Proof/Safety.lean ====
section
/-! DEFINITION. What counts as a sound state and a safe run, in the terms the statements use. -/

namespace Sys2Proof.Machine

/-- The canonical form of addressed memory: addresses strictly rising, and no cell that reads as an unlisted address does. -/
def Memory.wf (m : List Host.Cell) : Bool := Cells.wf memDefault m

/-- The canonical form of the flash, whose erased bytes read 0xFF. -/
def Flash.wf (m : List Host.Cell) : Bool := Cells.wf flashDefault m

/-- A state whose memory is in canonical form. -/
def State.wf (s : State) : Bool := Memory.wf s.m.mem

/-- A run goes on from a state: the next step answers a next state. -/
def State.goesOn (s : State) : Prop := ∃ t, step s = .next t

/-- A command is carried out: `exec` answers a next state, of which `P` holds. -/
def Completes (i : Instr) (s : State) (P : State → Prop) : Prop := ∃ t, exec i s = .next t ∧ P t

/-- Every byte of memory reads as before. -/
def State.sameMem (s t : State) : Prop := ∀ a, memByte t.m.mem a = memByte s.m.mem a

/-- What raising an event may not change: everything but the event ring, the doorbells and the trace blocks' registers, the
host interface's queues, trace, stamps, open values, what has left the module, and the precursors noted with what shows them. -/
structure Ctl.Quiet (c c' : Ctl) : Prop where
  dies : c'.dies = c.dies
  links : c'.links = c.links
  held : c'.held = c.held
  seen : c'.seen = c.seen
  colls : c'.colls = c.colls
  barriers : c'.barriers = c.barriers
  hp : c'.hp = c.hp
  job : c'.job = c.job
  gen : c'.gen = { c.gen with precursors := c'.gen.precursors }
  sec : c'.sec = c.sec
  tap : c'.tap = c.tap
  pow : c'.pow = c.pow
  flash : c'.flash = c.flash
  poison : c'.poison = c.poison
  rd : ∀ f i j, f.blk ≠ .ev → f.blk ≠ .db → f.blk ≠ .tr → (f.blk = .sg → f.off + f.stride * j ≠ 0x20 ∧ f.off + f.stride * j ≠ 0x28) →
    c'.rd f i j = c.rd f i j

/-- R411, R413: the ring takes an entry of this class at once: a free entry for an alarm; for other classes more than 256, and no
loss summary still to write. -/
def Ctl.hasRoom (c : Ctl) (cls : Nat) : Prop := if cls = 0 then c.freeCount ≠ 0 else 256 < c.freeCount ∧ c.host.shedFirst = none

/-- One entry has been written at `TAIL`: its code, class, source, step counter and payload (Table 14-13, R436), and `TAIL` has
advanced past it. -/
def Ctl.Posted (c c' : Ctl) (code cls die unit : Nat) (pl : List Nat) : Prop :=
  (∃ e, (c.rd Fld.ev_EV_TAIL, e) ∈ c'.host.ring ∧ e.code = code ∧ e.cls = cls ∧ e.remote = false ∧ e.die = die ∧ e.unit = unit ∧
    e.payload.take (8 + pl.length) = le 8 c.job.step ++ pl) ∧
  c'.rd Fld.ev_EV_TAIL = (c.rd Fld.ev_EV_TAIL + 1) % 16384

/-- What a module reset leaves (Tables 18-7 and 18-8), where it wrote the bytes `dump` to the slot in turn. -/
structure State.ResetTo (s : State) (pin : Bool) (dump : List Nat) (t : State) : Prop where
  event : t.m.ctl.pow.event = 3
  near : ∀ a, farOff a = none → memByte t.m.mem a = 0
  far : ∀ a, farOff a ≠ none → (let slot := dumpBase + gib * (s.m.ctl.trace.dumpSeq % 2); a < slot ∨ slot + dump.length ≤ a) →
    memByte t.m.mem a = memByte s.m.mem a
  flash : t.m.ctl.flash = s.m.ctl.flash
  keys : t.m.ctl.sec.keys = s.m.ctl.sec.keys
  moduleId : t.m.ctl.sec.moduleId = s.m.ctl.sec.moduleId
  dies : t.m.ctl.dies = []
  links : t.m.ctl.links = []
  stamps : ∀ d, d ≠ dieHD → t.m.ctl.lastStamp d = s.m.ctl.lastStamp d
  job : t.m.ctl.job = JobSt.reset
  hp : t.m.ctl.hp = HpSt.reset
  cause : t.m.ctl.rd Fld.pm_PM_RESET_RESET_CAUSE = (if pin then 1 else 2)
  resets : t.m.ctl.rd Fld.pm_PM_RESET_RESETS = min (s.m.ctl.rd Fld.pm_PM_RESET_RESETS + 1) 65535
  hours : t.m.ctl.pow.hours = s.m.ctl.pow.hours
  plan : t.m.ctl.pow.planned = s.m.ctl.pow.planned ∧ t.m.ctl.pow.replanHours = s.m.ctl.pow.replanHours
  parked : pin = true → t.m.ctl.pow.modrst = true ∧ t.m.ctl.pow.flFree = true

/-- What every reset of the CXL function does, and what goes on through it (R414, Table 14-14a): the doorbells at their reset
values, D0, the ring read up to `TAIL`, HOST channels released, one with a message in progress at that message's end. -/
structure State.FunctionReset (s t : State) : Prop where
  pend : t.m.ctl.rd Fld.db_DB_PEND = 0
  mask : t.m.ctl.rd Fld.db_DB_MASK = 0xFFFFFFFF
  tail : t.m.ctl.rd Fld.ev_EV_TAIL = s.m.ctl.rd Fld.ev_EV_TAIL
  head : t.m.ctl.rd Fld.ev_EV_HEAD = s.m.ctl.rd Fld.ev_EV_TAIL % 16384
  ring : t.m.ctl.host.ring = s.m.ctl.host.ring
  config : (∀ p ∈ t.m.ctl.host.config, 0x2000000 ≤ p.1) ∧ (∀ n < 32, t.m.ctl.host.msixMask.contains n = true) ∧ t.m.ctl.host.msixPend = []
    ∧ t.m.ctl.host.msixFmask = false ∧ t.m.ctl.host.d3 = false
  free : ∀ ch < 32, s.m.ctl.hostOwned ch = true → s.m.ctl.busy ch = false →
    t.m.ctl.rd Fld.mb_MB_OWN_OWNER ch = 0 ∧ ∀ w < 16, t.m.ctl.mbWord ch w = 0
  busy : ∀ ch < 32, s.m.ctl.hostOwned ch = true → s.m.ctl.busy ch = true →
    t.m.ctl.busy ch = true ∧ t.m.ctl.host.releasing.contains ch = true ∧ t.m.ctl.host.quiet.contains ch = true
  others : ∀ ch < 32, s.m.ctl.hostOwned ch = false → t.m.ctl.rd Fld.mb_MB_OWN_OWNER ch = s.m.ctl.rd Fld.mb_MB_OWN_OWNER ch
    ∧ ∀ w < 16, t.m.ctl.mbWord ch w = s.m.ctl.mbWord ch w
  fields : ∀ f i j, f.blk ≠ .db → f.blk ≠ .ev → f.blk ≠ .mb → t.m.ctl.rd f i j = s.m.ctl.rd f i j
  dies : t.m.ctl.dies = s.m.ctl.dies
  links : t.m.ctl.links = s.m.ctl.links
  job : t.m.ctl.job = s.m.ctl.job
  gen : t.m.ctl.gen = s.m.ctl.gen
  pow : t.m.ctl.pow = s.m.ctl.pow
  mem : s.sameMem t

/-- No core of a die has a WATCH breakpoint armed (R483). -/
def Ctl.Unwatched (c : Ctl) (die : Nat) : Prop := ∀ k < 4, c.bpMatch (4 * die + k) 2 (fun _ => true) = []

/-- R445, R446, R449: the manifest in a bank verifies: its target, its `SVN`, a signature block of the layout over it with both
signatures under a root key that is not revoked, and the hash of the HD firmware image. -/
structure Ctl.BankVerifies (c : Ctl) (b : Nat) : Prop where
  target : pkgTarget (c.bankManifest b) = true
  svn : c.inForce.minSvn ≤ pkgSvn (c.bankManifest b)
  key : (c.bankManifest b).getD 519 0 ≤ 3 ∧ bit c.inForce.revoke ((c.bankManifest b).getD 519 0) = false
    ∧ Config.sha384 (bytesAt (bytesAt (c.bankManifest b) 512 3136) 12 97 ++ bytesAt (bytesAt (c.bankManifest b) 512 3136) 112 56)
      = Config.rootKeyHash ((c.bankManifest b).getD 519 0)
  layout : (bytesAt (c.bankManifest b) 512 3136).take 7 = [0x53, 0x49, 0x47, 0x30, 4, 0, 1]
    ∧ bytesAt (c.bankManifest b) 520 4 = [0, 0, 0, 0] ∧ bytesAt (c.bankManifest b) 621 3 = [0, 0, 0]
    ∧ bytesAt (c.bankManifest b) 3604 44 = List.replicate 44 0 ∧ bytesAt (c.bankManifest b) 624 8 = [0, 0, 0, 8, 0, 0, 0, 3]
  ecdsa : Config.ecdsaVerify (bytesAt (bytesAt (c.bankManifest b) 512 3136) 12 97)
    (Config.sha384 (sigMessage (bytesAt (c.bankManifest b) 512 3136) (bytesAt (c.bankManifest b) 0 512)))
    (bytesAt (bytesAt (c.bankManifest b) 512 3136) 168 96) = true
  lms : Config.lmsVerify (bytesAt (bytesAt (c.bankManifest b) 512 3136) 112 56)
    (sigMessage (bytesAt (c.bankManifest b) 512 3136) (bytesAt (c.bankManifest b) 0 512))
    (bytesAt (bytesAt (c.bankManifest b) 512 3136) 264 2828) = true
  image : imageOk (c.bankManifest b) (c.bankRead b) 0 = true

/-- R407: a message that Mersene had taken is over: `DONE` is set, `BUSY` clear, word 0 holds the status and the request's tag,
word 1 Mersene's stamp (on a channel that was not released meanwhile, R405). -/
structure Ctl.Answered (c c' : Ctl) (x : Message) (status : Nat) : Prop where
  done : c'.on Fld.mb_MB_CTRL_DONE x.chan = true
  busy : c'.busy x.chan = false
  hwstat : c'.rd Fld.mb_MB_CTRL_HWSTAT x.chan = 0
  gone : ∀ m ∈ c'.host.taken, m.chan ≠ x.chan
  words : c.host.releasing.contains x.chan = false →
    c'.mbWord x.chan 0 = (status + 65536 * (c.mbWord x.chan 0 / 65536 % 65536)) % 2 ^ 32 ∧ c'.mbWord x.chan 1 = 0x580F

end Sys2Proof.Machine
end

