-- ==== Sys2Proof/WellFormed.lean ====
section
/-! DEFINITION. Which commands are well-formed: every unit an operand names exists (section 1), every byte is a byte and
every word a word. A command that is not well-formed meets no unit, and its meaning finds it not enabled. -/

namespace Sys2Proof

/-- CDn: 0 to 7 (R17). -/
def dieWf (n : Nat) : Bool := decide (n < 8)
/-- One of the sixteen logic dies, by its index of Table 1-3. -/
def logicDieWf (n : Nat) : Bool := [0, 1, 2, 3, 4, 5, 6, 7, 0x40, 0x41, 0x42, 0x43, 0x48, 0x49, 0x50, 0x58].contains n
/-- A rail of Table 18-3. -/
def railWf : Rail → Bool
  | .vbus | .serdes | .lpddr6 => true
  | .core n | .sram n | .nmc n | .nmq n => dieWf n
  | .logic d => logicDieWf d && decide (8 ≤ d)
/-- A queue of a compute die (R240). -/
def queueWf (q : Nat) : Bool := decide (q < 64)
/-- A sequence number of a queue's descriptors (Table 9-6). -/
def seqWf (n : Nat) : Bool := decide (n < 2 ^ 32)
/-- A logical array of a compute die. -/
def arrayWf (a : Nat) : Bool := decide (a < 96)
/-- A vector unit of a compute die. -/
def vuWf (v : Nat) : Bool := decide (v < 16)
/-- A link Lxx. -/
def linkWf (x : Nat) : Bool := decide (x < 36)
/-- A mailbox channel. -/
def chanWf (c : Nat) : Bool := decide (c < 32)
/-- A far channel. -/
def farWf (c : Nat) : Bool := decide (c < 64)
/-- A stack of near memory. -/
def stackWf (n : Nat) : Bool := decide (n < 8)
/-- A byte string. -/
def bytesWf (l : List Nat) : Bool := l.all (fun b => decide (b < 256))
/-- A 32-bit word. -/
def wordWf (v : Nat) : Bool := decide (v < 2 ^ 32)
/-- Errors found by a read: line addresses, and at least one symbol of a line's nine (R307). -/
def errsWf (l : Errs) : Bool := l.all (fun e => decide (e.1 % 64 = 0 ∧ 0 < e.2))
/-- A path of Table 14-9. -/
def portWf : Port → Bool
  | .host _ => true
  | .sideband => true
  | .core d c => dieWf d && decide (c < 4)
  | .peer l => linkWf l
/-- The bytes of an access: the host's may be any, those of the other paths are words. -/
def accessWf : Port → AccessBytes → Bool
  | .host _, a => decide (0 < a.size)
  | _, a => decide (a.size = 4 ∧ a.off % 4 = 0)
/-- What a read of a host buffer brought. -/
def bufWf : BufData → Bool
  | .bytes b => bytesWf b
  | .error => true

/-- The well-formed commands. Log 141 (DEDUCED). -/
def Instr.wf : Instr → Bool
  | .powerUp _ | .vbusInRegulation | .railsUp | .hdResetRelease | .pufReconstruct _ | .bootRecordFound | .bootManifestVerify
  | .hdFirmwareLoad | .firmwareImagesLoad | .resetDone _ | .powerDown _ | .vinLow _ | .vinHigh _ | .capSample _ _
  | .powerClampEngage _ | .clampStepDown _ | .clampStepUp _ | .moduleReset _ | .modrstRelease | .hoursTick | .hallPassGrant
  | .moduleTokenSend | .checkTimeout | .planProposal | .tc0HeldRelease | .drainStart | .drainLineCopy | .drainComplete
  | .protectRetransmit _ | .durabilityReportReceive _ _ _ | .durableAnnounce _ | .localRestore | .rollcallReplay | .restoreDone
  | .restoreAbort | .messageTake | .updateStaged _ | .newFirmwareBoot _ | .handoverCommit _ | .eventDelayExpiry | .flr | .cxlReset
  | .hotReset | .cxPerstAssert | .hdmDecoderCommit _ _ _ | .privateRead _ | .rstdaa | .getpid | .getbcr | .getdcr | .getstatus
  | .getmwl | .getmrl | .echoFabricExchange | .testLogicReset | .extest | .samplePreload none | .idcode | .clamp | .highz
  | .extestPulse | .extestTrain | .testStatus | .dbgAccess | .bypass | .erasureTaken _ | .cxPerstDeassert | .cxlLinkTrained _ _
  | .ideKeySet _ _ | .stBeatTick | .farMemoryInit _ | .watchdogExpiry _ => true
  | .replan meas => meas.all (fun m => logicDieWf m.die)
  | .nmBringup stack _ _ _ => stackWf stack
  | .fmOscillatorLock fm => decide (fm < 2)
  | .lpddr6Init ch | .trainingSettingsRead ch _ | .quickVerification ch _ | .fullTrainingAttempt ch _ _ | .strobeRetrack ch _ =>
    farWf ch
  | .inputSample _ _ _ outs => outs.all (fun o => railWf o.rail)
  | .samplePreload (some bits) | .boundaryUpdateDr bits => bits.length == 495
  | .budgetRecompute _ _ die | .tjHot die _ | .thermalTrip die | .monitorSample die _ _ _ _ | .tapGuard die _
  | .traceRecordAccept die => logicDieWf die
  | .refreshTempSample ctrl _ => decide (ctrl < 8 + 64)
  | .scrubRead addr _ => decide (addr % 64 = 0)
  | .cowWriteResume die queue seq | .engineStart die queue seq | .descriptorComplete die queue seq | .hallPassRelease die queue seq
  | .nop die queue seq | .rtTopk die queue seq | .rtDisp die queue seq | .rtExloop die queue seq | .rtComb die queue seq
  | .clAllreduce die queue seq | .clReducescatter die queue seq | .clAllgather die queue seq | .clBcast die queue seq
  | .clReduce die queue seq | .clSend die queue seq | .clRecv die queue seq | .clBarrier die queue seq
  | .recomputeAttempt die queue seq | .fallback die queue seq | .sampledAgreeCompare die queue seq _
  | .dispatchRowTimeout die queue seq | .combineReturnTimeout die queue seq => dieWf die && queueWf queue && seqWf seq
  | .dmCopy die queue seq errs => dieWf die && queueWf queue && seqWf seq && errsWf errs
  | .slotStart die | .stepStart die | .commit die | .discard die | .lanternFenceEffect die | .enterCheck die | .applyDone die =>
    dieWf die
  | .issue die queue | .drainWord die queue | .endWord die queue | .descriptorFetch die queue | .semaphoreWaitMet die queue
  | .completionRecord die queue | .resume die queue | .flush die queue => dieWf die && queueWf queue
  | .qCheadWrite die queue value => dieWf die && queueWf queue && wordWf value
  | .arrayPassGroup die array | .passIssue die array | .readoutRow die array => dieWf die && arrayWf array
  | .loadBeat die array errs | .arrayBeat die array errs => dieWf die && arrayWf array && errsWf errs
  | .vchain die vu | .vregWriteEffect die vu | .vectorStep die vu => dieWf die && vuWf vu
  | .tileBufferSlotReady die vu buf => dieWf die && vuWf vu && decide (buf < 4)
  | .semAdd die sem value => dieWf die && decide (sem < 256) && wordWf value
  | .amaxClr die slot => dieWf die && decide (slot < 64)
  | .vregWrite die vu vreg lane value => dieWf die && vuWf vu && decide (vreg < 32) && decide (lane < 256) && wordWf value
  | .registerWrite port _ _ a value => portWf port && accessWf port a && decide (value < 2 ^ (8 * a.size))
  | .registerRead port _ _ a => portWf port && accessWf port a
  | .countBlockReceive die queue seq _ srcDie bytes | .admittedCountReturn die queue seq _ srcDie bytes
  | .routeRowReceive die queue seq _ srcDie bytes | .combineReturnReceive die queue seq _ srcDie bytes =>
    dieWf die && queueWf queue && seqWf seq && dieWf srcDie && bytesWf bytes
  | .dispatchCountTimeout die queue seq _ srcDie => dieWf die && queueWf queue && seqWf seq && dieWf srcDie
  | .checkTokenReceive _ bytes | .verdictReceive bytes | .proposalReceive _ bytes | .mirrorData _ bytes | .parityDelta _ bytes
  | .parityFull _ bytes | .restoreData _ bytes | .ack _ bytes | .request _ bytes | .replicaDigestReceive _ bytes
  | .rollcallDigestReceive _ bytes | .privateWrite bytes | .getVersion bytes | .getCapabilities bytes | .negotiateAlgorithms bytes
  | .getDigests bytes | .getCertificate bytes | .challenge bytes | .getMeasurements bytes | .keyExchange bytes | .finish _ bytes
  | .keyUpdate _ bytes | .heartbeat _ bytes | .endSession _ bytes | .vendorDefinedRequest bytes | .traceFrameReceive _ bytes
  | .flashExternalWrite _ bytes => bytesWf bytes
  | .linkPllLock link | .partnerSignalDetect link | .equalisationDone link | .codewordLock link _ _ | .trainingAttemptFail link
  | .flitTransmit link | .replayTimeout link | .echoSendTick link | .retrainDone link _ _ | .violationWindowEnd link => linkWf link
  | .ident link bytes | .nak link bytes | .violation link bytes | .echo link bytes | .retrainReq link bytes | .downNotice link bytes
  | .flitReceive link bytes _ _ => linkWf link && bytesWf bytes
  | .frameReceive link tc => linkWf link && decide (tc < 4)
  | .lossOfSignal link lane => linkWf link && decide (lane < 4)
  | .chunkReceive group _ _ _ _ bytes | .distributeReceive group _ _ bytes => decide (group < 65536) && bytesWf bytes
  | .combineWaitTimeout group _ _ | .distLost group _ _ | .dieIssueTimeout group _ | .barrierTokenReceive group _ _ =>
    decide (group < 65536)
  | .claim port chan | .release port chan => portWf port && chanWf chan
  | .go port chan value => portWf port && chanWf chan && wordWf value
  | .ping chan | .jobSetup chan | .jobEnd chan | .stepRun chan | .jobStop chan | .policy chan | .genSet chan | .sealNow chan
  | .hold chan | .restore chan | .rejoin chan | .setCoord chan | .linkSet chan | .linkState chan | .groupDelete chan
  | .farLayout chan | .telemetry chan | .telemetryBuffer chan _ | .updateActivate chan | .updateStatus chan => chanWf chan
  | .lessonLoad chan buf | .timetableLoad chan buf | .groupDefine chan buf | .updateStage chan buf => chanWf chan && bufWf buf
  | .dbPendClear value | .dbMaskWrite value | .evHeadWrite value => wordWf value
  | .cxlMemAccess _ _ write errs => (match write with | some b => bytesWf b | none => true) && errsWf errs
  | .entdaa addr => decide (addr < 128)
  | .setdasa static addr => decide (static < 128 ∧ addr < 128)
  | .enec events | .disec events => decide (events < 256)
  | .ringSnapshot ring => decide (ring < 4)
  | .breakpointResume die core => dieWf die && decide (core < 4)
  | .debugAccessUpdate bits => decide (bits < 2 ^ 82)
  | .configurationRequest off write => decide (off % 4 = 0) && (match write with | some v => wordWf v | none => true)

end Sys2Proof
end

