-- ==== Sys2Proof/Certificates/Slice0/Obligations.lean ====
section
/-! DEFINITION. The statements for the provers. -/

open Sys2Proof Sys2Proof.Machine

/-! ## The block and its queue -/

/-- A step runs the command at the front of the queue on the state with the queue's rest.
Besides the rules, the model's choices and readings of log entries 1 and 2. -/
def Obligations.StepRunsFrontCommand : Prop :=
  ∀ (c : Instr) (rest : List Instr) (s : State), step { s with pending := c :: rest } = exec c { s with pending := rest }

/-- Every command is carried out to a next state, and no command touches the queue of those that wait.
Besides the rules, the model's choices and readings of log entry 6. -/
def Obligations.EveryCommandAnswersAndKeepsQueue : Prop :=
  ∀ (i : Instr) (s : State), ∃ t, exec i s = .next t ∧ t.pending = s.pending

/-- Every step keeps memory in canonical form: addresses strictly rising, and no cell that reads as an unlisted one does.
Besides the rules, the model's choices and readings of log entries 2 and 3. -/
def Obligations.StepKeepsMemoryCanonical : Prop := ∀ s t : State, s.wf = true → step s = .next t → t.wf = true

/-- Memory and flash are canonical after reset, and every register field reads its Reset entry.
Besides the rules, the model's choices and readings of log entries 3, 4 and 5. -/
def Obligations.ResetStorageAndRegisters : Prop :=
  State.reset.wf = true ∧ Flash.wf State.reset.m.ctl.flash = true ∧ (∀ a, memByte State.reset.m.mem a = 0)
  ∧ (∀ f i j, State.reset.m.ctl.rd f i j = f.resetOf i j)

/-! ## Power, cap, ageing, reset (section 18) -/

/-- R501, Table 18-6 events 1 to 4; R515: with MODRST# asserted power-up stops after event 3; R522, Table 19-6: the TAP then
answers with IDCODE selected. -/
def Obligations.PowerUpReachesHdRelease : Prop :=
  (∀ (p : Bool) (s : State), s.m.ctl.pow.on = false → s.m.ctl.pow.tripped = false →
    Completes (.powerUp p) s (fun t => t.m.ctl.pow.on = true ∧ t.m.ctl.pow.event = 1 ∧ t.m.ctl.pow.modrst = p ∧ t.m.ctl.flash = s.m.ctl.flash
      ∧ s.sameMem t)) ∧
  (∀ s : State, s.m.ctl.pow.event = 1 →
    Completes .vbusInRegulation s (fun t => t.m = { s.m with ctl := { s.m.ctl with pow := { s.m.ctl.pow with event := 2 } } })) ∧
  (∀ s : State, s.m.ctl.pow.event = 2 →
    Completes .railsUp s (fun t => t.m.ctl.pow.event = 3 ∧ t.m.ctl.pow.modpg = true ∧ t.m.ctl.tap.on = true ∧ t.m.ctl.tap.ir = 2
      ∧ (∀ d ∈ logicDies, t.m.ctl.rd Fld.ag_AG_VSET_MV d = (if d < 8 then 620 else 650) ∧ t.m.ctl.rd Fld.ag_AG_SLACK_TAPS d = 0)
      ∧ (s.m.ctl.pow.modrst = true → t.m.ctl.pow.flFree = true) ∧ s.sameMem t)) ∧
  (∀ s : State, s.m.ctl.pow.event = 3 → s.m.ctl.pow.modrst = false →
    Completes .hdResetRelease s (fun t => t.m.ctl.pow.event = 4 ∧ t.m.ctl.stage = 0 ∧ t.m.ctl.sec.boot = .rom ∧ s.sameMem t)) ∧
  (∀ s : State, s.m.ctl.pow.event = 3 → s.m.ctl.pow.modrst = true → exec .hdResetRelease s = .next s)

/-- R490, R499, Table 18-8: power-down and the thermal trip stop every converter: memory and registers are lost, the flash, the hours and
the planned setpoints that it records stay. After a trip the module stays off until VIN has fallen. -/
def Obligations.PowerLossKeepsOnlyFlash : Prop :=
  (∀ (low : Bool) (s : State), s.m.ctl.pow.on = true →
    Completes (.powerDown low) s (fun t => (∀ a, memByte t.m.mem a = 0) ∧ t.m.ctl.flash = s.m.ctl.flash
      ∧ t.m.ctl.pow.hours = s.m.ctl.pow.hours ∧ t.m.ctl.pow.planned = s.m.ctl.pow.planned
      ∧ t.m.ctl.pow.on = false ∧ t.m.ctl.pow.event = 0 ∧ t.m.ctl.sec.keys = false
      ∧ (∀ d, t.m.ctl.lastStamp d = 0) ∧ (∀ f i j, t.m.ctl.rd f i j = f.resetOf i j) ∧ t.m.ctl.out.getLast? = some (.pin "MODPG" false))) ∧
  (∀ (d : Nat) (s : State), s.m.ctl.pow.on = true →
    Completes (.thermalTrip d) s (fun t => (∀ a, memByte t.m.mem a = 0) ∧ t.m.ctl.flash = s.m.ctl.flash
      ∧ t.m.ctl.pow.hours = s.m.ctl.pow.hours ∧ t.m.ctl.pow.on = false ∧ t.m.ctl.pow.event = 0 ∧ t.m.ctl.pow.tripped = true
      ∧ t.m.ctl.out.getLast? = some (.pin "MODPG" false))) ∧
  (∀ (p : Bool) (s : State), s.m.ctl.pow.tripped = true → exec (.powerUp p) s = .next s) ∧
  (∀ s : State, s.m.ctl.pow.on = false → Completes (.powerDown true) s (fun t => t.m.ctl.pow.tripped = false))

/-- R494: P_cap is the smallest of the operator cap, half of it under PBRAKE#, and 65.0 A × VIN; a PCAP code counts after three
equal samples, the brake at once. R495, R496, R261: the budget follows the cap, the input and the junction, no running holder
loses its units, and no request larger than the budget waits in a FIFO.
Besides the rules, the model's choices and readings of log entries 16 and 17. -/
def Obligations.CapAndBudgetFollowInput : Prop :=
  (∀ (v : Nat) (s : State), s.m.ctl.pow.on = true → v < 65536 →
    Completes (.vinLow v) s (fun t => t.m.ctl.rd Fld.pm_PM_INPUT_VIN = v
      ∧ t.m.ctl.rd Fld.pm_PM_CAP_CAP_W
          = min (let op := 2600 - 100 * s.m.ctl.rd Fld.pm_PM_CAP_PCAP; if s.m.ctl.pow.brake then op / 2 else op) (65 * v / 100)
      ∧ s.sameMem t)) ∧
  (∀ (v : Nat) (s : State), s.m.ctl.pow.on = true → v < 65536 → s.m.ctl.hasRoom 0 →
    Completes (.vinHigh v) s (fun t => t.m.ctl.rd Fld.pm_PM_INPUT_VIN = v ∧ s.m.ctl.Posted t.m.ctl 0x0A02 0 0x58 0xFF (le 2 v)
      ∧ t.m.ctl.rd Fld.pm_PM_CAP_CAP_W = s.m.ctl.rd Fld.pm_PM_CAP_CAP_W ∧ s.sameMem t)) ∧
  (∀ (vin pin pcd : Nat) (outs : List RailReport) (s : State), s.m.ctl.pow.on = true → vin < 65536 → pin < 65536 →
    Completes (.inputSample vin pin pcd outs) s (fun t => t.m.ctl.rd Fld.pm_PM_INPUT_VIN = vin ∧ t.m.ctl.rd Fld.pm_PM_INPUT_PIN = pin
      ∧ t.m.ctl.pow.pin = pin ∧ t.m.ctl.pow.pcd = pcd
      ∧ (∀ pre r post, outs = pre ++ r :: post → (∀ q ∈ post, q.rail ≠ r.rail) →
          Tab.get (0, 0, 0) t.m.ctl.pow.rails r.rail = (r.mv, r.ma, r.temp)
          ∧ (∀ d, railDie r.rail = some d → d ∈ logicDies → r.mv < 65536 → t.m.ctl.rd Fld.ag_AG_VSET_MV_NOW d = r.mv))
      ∧ (∀ r, (∀ q ∈ outs, q.rail ≠ r) → Tab.get (0, 0, 0) t.m.ctl.pow.rails r = Tab.get (0, 0, 0) s.m.ctl.pow.rails r)
      ∧ t.m.ctl.hp = s.m.ctl.hp ∧ s.sameMem t)) ∧
  (∀ (p : Nat) (b : Bool) (s : State), 3 ≤ s.m.ctl.pow.event → p < 16 →
    Completes (.capSample p b) s (fun t =>
      t.m.ctl.rd Fld.pm_PM_CAP_PCAP = (if s.m.ctl.pow.pcap.take 2 = [p, p] then p else s.m.ctl.rd Fld.pm_PM_CAP_PCAP)
      ∧ t.m.ctl.rd Fld.pm_PM_CAP_BRAKE = (if b then 1 else 0)
      ∧ t.m.ctl.rd Fld.pm_PM_CAP_CAP_W
          = min (let op := 2600 - 100 * t.m.ctl.rd Fld.pm_PM_CAP_PCAP; if b then op / 2 else op) (65 * s.m.ctl.pow.vin / 100)
      ∧ s.sameMem t)) ∧
  (∀ (g tj d : Nat) (s : State), s.m.ctl.pow.on = true →
    Completes (.budgetRecompute g tj d) s (fun t =>
      (let rho := t.m.ctl.rd Fld.pm_PM_BASE_RHO
       rho = nextRho (s.m.ctl.rd Fld.pm_PM_BASE_RHO) g s.m.ctl.pow.pcd s.m.ctl.pow.pIdle (s.m.ctl.on Fld.pm_PM_CLAMP_ACTIVE) % 4096
       ∧ (256 ≤ g → s.m.ctl.on Fld.pm_PM_CLAMP_ACTIVE = false → 512 ≤ rho ∧ rho ≤ 1280))
      ∧ t.m.ctl.rd Fld.pm_PM_UNITS_BUDGET ≤ 16383 ∧ (113 ≤ tj → t.m.ctl.rd Fld.pm_PM_UNITS_BUDGET = 0)
      ∧ t.m.ctl.hp.held = s.m.ctl.hp.held ∧ (∀ r ∈ t.m.ctl.hp.fifo, r.units ≤ t.m.ctl.rd Fld.pm_PM_UNITS_BUDGET) ∧ s.sameMem t))

/-- R497: a clamp episode counts as it engages, lowers every VDD_CORE rail by 5 mV a step down to 580 mV, raises them by 5 mV a step,
where the input as last measured is below 95 % of the cap, to their planned setpoints, and ends there. R499: TJ_HOT is raised.
Besides the rules, the model's choices and readings of log entry 208. -/
def Obligations.ClampStepsVddCore : Prop :=
  (∀ (pin : Nat) (s : State), s.m.ctl.pow.on = true → s.m.ctl.on Fld.pm_PM_CLAMP_ACTIVE = false → s.m.ctl.overCap pin = true →
    Completes (.powerClampEngage pin) s (fun t => t.m.ctl.on Fld.pm_PM_CLAMP_ACTIVE = true
      ∧ t.m.ctl.rd Fld.pm_PM_CLAMP_CLAMP_CNT = min (s.m.ctl.rd Fld.pm_PM_CLAMP_CLAMP_CNT + 1) 65535
      ∧ t.m.ctl.pow.vset = s.m.ctl.pow.vset ∧ t.m.ctl.pow.clampCap = s.m.ctl.rd Fld.pm_PM_CAP_CAP_W ∧ s.sameMem t)) ∧
  (∀ (pin : Nat) (s : State), s.m.ctl.on Fld.pm_PM_CLAMP_ACTIVE = true → s.m.ctl.overCap pin = true →
    Completes (.clampStepDown pin) s (fun t => (∀ d < 8, t.m.ctl.vnow d = max 580 (s.m.ctl.vnow d - 5))
      ∧ (∀ d, t.m.ctl.vset d = s.m.ctl.vset d) ∧ t.m.ctl.regs = s.m.ctl.regs ∧ t.m.ctl.dies = s.m.ctl.dies ∧ s.sameMem t)) ∧
  (∀ (us : Nat) (s : State), ¬ s.m.ctl.pow.pin * 100 < s.m.ctl.rd Fld.pm_PM_CAP_CAP_W * 950 → exec (.clampStepUp us) s = .next s) ∧
  (∀ (us : Nat) (s : State), s.m.ctl.on Fld.pm_PM_CLAMP_ACTIVE = true → s.m.ctl.pow.pin * 100 < s.m.ctl.rd Fld.pm_PM_CAP_CAP_W * 950 →
    Completes (.clampStepUp us) s (fun t => (∀ d < 8, t.m.ctl.vnow d = min (s.m.ctl.vset d) (s.m.ctl.vnow d + 5))
      ∧ (t.m.ctl.on Fld.pm_PM_CLAMP_ACTIVE = false ↔ ∀ d < 8, s.m.ctl.vset d ≤ s.m.ctl.vnow d + 5)
      ∧ ((∀ d < 8, s.m.ctl.vset d ≤ s.m.ctl.vnow d + 5) → s.m.ctl.hasRoom 1 →
          s.m.ctl.Posted t.m.ctl 0x0A04 1 0x58 0xFF (le 2 s.m.ctl.pow.clampCap ++ le 2 s.m.ctl.pow.clampLow ++ le 4 us))
      ∧ s.sameMem t)) ∧
  (∀ (d temp : Nat) (s : State), s.m.ctl.pow.on = true → temp < 256 → s.m.ctl.hasRoom 0 →
    Completes (.tjHot d temp) s (fun t => s.m.ctl.Posted t.m.ctl 0x0A05 0 d 0xFF [temp] ∧ s.m.ctl.Quiet t.m.ctl ∧ s.sameMem t))

/-- R502 to R504, R531, Tables 18-7 and 18-8: a module reset loses near memory, SRAM, Lessons, jobs and links, keeps the key store,
the flash, the stamps and far memory but for the dump it writes, counts in `RESETS` and holds its cause; with the pin it parks.
Besides the rules, the model's choices and readings of log entries 12, 13 and 19. -/
def Obligations.ModuleResetKeepsAndLoses : Prop :=
  (∀ (pin : Bool) (s : State), s.wf = true → s.m.ctl.pow.on = true → (if pin then 4 else 5) ≤ s.m.ctl.pow.event →
    Completes (.moduleReset pin) s
      (s.ResetTo pin (if s.m.ctl.stage = 3 ∨ s.m.ctl.stage = 4 then dumpBytes s.m 0 (s.m.ctl.trace.dumpSeq % 2) s.m.ctl.trace.dumpSeq
        (s.m.ctl.stamp dieHD).1 ((s.m.ctl.stamp dieHD).2.stamp dieHD).1 else []))) ∧
  (∀ (cp : Nat) (s : State), s.wf = true → 5 ≤ s.m.ctl.pow.event →
    Completes (.watchdogExpiry cp) s
      (s.ResetTo false (if s.m.ctl.pow.event = 9 then dumpBytes s.m 1 (s.m.ctl.trace.dumpSeq % 2) s.m.ctl.trace.dumpSeq
        (s.m.ctl.stamp dieHD).1 ((s.m.ctl.stamp dieHD).2.stamp dieHD).1 else []))) ∧
  (∀ s : State, s.m.ctl.pow.on = true → s.m.ctl.pow.event = 3 →
    Completes (.moduleReset true) s (fun t => t.m.ctl.pow.modrst = true ∧ t.m.ctl.pow.flFree = true ∧ t.m.ctl.regs = s.m.ctl.regs ∧ s.sameMem t)) ∧
  (∀ s : State, Completes .modrstRelease s (fun t => t.m.ctl.pow.modrst = false ∧ t.m.ctl.pow.flFree = false
      ∧ t.m.ctl.pow.event = s.m.ctl.pow.event ∧ t.m.ctl.regs = s.m.ctl.regs ∧ s.sameMem t))

/-- R504 to R509: the end of power-up, the hours, the re-plan between base and ceiling, which the flash records and no clamp episode
sees, the ageing index by the slowest of a die's monitors, and the guard's taps. R349: every link whose `ENABLE` is 1 enters TRAINING.
Besides the rules, the model's choices and readings of log entries 18 and 177. -/
def Obligations.AgeingBoundsAndReady : Prop :=
  (∀ (meas : List Measure) (s : State), s.m.ctl.pow.event = 6 → s.m.ctl.sec.boot = .images →
    s.m.ctl.on Fld.pm_PM_CLAMP_ACTIVE = false →
    Completes (.replan meas) s (fun t => t.m.ctl.pow.event = 7 ∧ t.m.ctl.pow.replanHours = s.m.ctl.pow.hours
      ∧ (∀ d ∈ logicDies, Tab.get (railBase d, 0) t.m.ctl.pow.planned d = (t.m.ctl.vset d, t.m.ctl.tapsOf d))
      ∧ (∀ d ∈ logicDies, railBase d ≤ t.m.ctl.vset d ∧ t.m.ctl.vset d ≤ railTop d ∧ t.m.ctl.tapsOf d ≤ 8) ∧ s.sameMem t
      ∧ (∀ x < 36, (s.m.ctl.link x).enable = true → t.m.ctl.lkState x = 1 ∧ (t.m.ctl.link x).event = 0)
      ∧ (∀ x < 36, (s.m.ctl.link x).enable = false → t.m.ctl.lkState x = s.m.ctl.lkState x ∧ t.m.ctl.link x = s.m.ctl.link x))) ∧
  (∀ (meas : List Measure) (s : State), s.m.ctl.on Fld.pm_PM_CLAMP_ACTIVE = true → exec (.replan meas) s = .next s) ∧
  (∀ (p : Nat) (s : State), s.m.ctl.event8Done = true →
    Completes (.resetDone p) s (fun t => t.m.ctl.pow.event = 9 ∧ t.m.ctl.pow.pIdle = p ∧ t.m.ctl.stage = 2
      ∧ (t.m.ctl.on Fld.st_ST_STATE_NEAR_READY = true ↔ ∀ n < 8, s.m.ctl.on Fld.nm_NM_STATE_READY n = true)
      ∧ (t.m.ctl.on Fld.st_ST_STATE_FAR_READY = true ↔ ∀ ch < 64, s.m.ctl.on Fld.fc_FC_STATE_TRAINED ch = true) ∧ s.sameMem t)) ∧
  (∀ s : State, s.m.ctl.pow.on = true → s.m.ctl.stage ≠ 0 →
    Completes .hoursTick s (fun t => t.m.ctl.pow.hours = s.m.ctl.pow.hours + 1
      ∧ t.m.ctl.rd Fld.pm_PM_HOURS = (s.m.ctl.pow.hours + 1) % 2 ^ 32 ∧ s.sameMem t)) ∧
  (∀ (d temp beat : Nat) (slack delay : List Nat) (s : State), s.m.ctl.pow.on = true → d ∈ logicDies →
    slack.length = (if d < 8 then 64 else 8) → delay.length = (if d < 8 then 64 else 8) → temp < 256 → beat < 65536 →
    Completes (.monitorSample d slack delay temp beat) s (fun t =>
      (∃ lo ∈ slack, (∀ x ∈ slack, lo ≤ x) ∧ t.m.ctl.rd Fld.ag_AG_SLACK d = min lo 255)
      ∧ Tab.get [] t.m.ctl.pow.monitors d = slack.zip delay
      ∧ t.m.ctl.rd Fld.ag_AG_INDEX_TEMP d = temp ∧ t.m.ctl.rd Fld.ag_AG_BEAT d = (if d < 8 then beat else 0)
      ∧ (∃ hi ∈ delay, (∀ x ∈ delay, x ≤ hi) ∧ t.m.ctl.rd Fld.ag_AG_INDEX d = ageIndex hi (Tab.get 0 s.m.ctl.sec.fabDelay d))
      ∧ (1000 < t.m.ctl.rd Fld.ag_AG_INDEX d → s.m.ctl.pow.eol.contains d = false →
          t.m.ctl.on Fld.pm_PM_AGE_EOL = true ∧ t.m.ctl.pow.eol.contains d = true) ∧ s.sameMem t)) ∧
  (∀ (d beat : Nat) (s : State), s.m.ctl.pow.on = true → d ∈ logicDies →
    Completes (.tapGuard d beat) s (fun t => t.m.ctl.tapsOf d = (if s.m.ctl.tapsOf d < 8 then s.m.ctl.tapsOf d + 1 else s.m.ctl.tapsOf d)
      ∧ (∀ e, t.m.ctl.vset e = s.m.ctl.vset e)
      ∧ (s.m.ctl.tapsOf d < 8 → s.m.ctl.vset d = railTop d → s.m.ctl.hasRoom 1 →
          s.m.ctl.Posted t.m.ctl 0x0A07 1 d 0xFF ([s.m.ctl.tapsOf d + 1, 0] ++ le 2 beat)) ∧ s.sameMem t))

/-! ## Memory (section 11) -/

/-- R316, R313: a stack whose test passes is zeroed and `READY`, and nothing else in memory changes; one that fails sets no `READY`.
R317 to R319, Table 11-7: the far channels' events, the contents a channel keeps, the learned settings, and the third failure.
Besides the rules, the model's choices and readings of log entries 15 and 20. -/
def Obligations.MemoryBringUp : Prop :=
  (∀ (n rep : Nat) (ex : List Nat) (bad : Bool) (s : State), s.wf = true → s.m.ctl.inEvent8 = true → n < 8 →
    s.m.ctl.pow.nmDone.contains n = false →
    Completes (.nmBringup n rep ex bad) s (fun t => t.m.ctl.pow.nmDone.contains n = true
      ∧ (bad = false → t.m.ctl.on Fld.nm_NM_STATE_READY n = true ∧ (∀ a, stackOf a = some n → memByte t.m.mem a = 0))
      ∧ (bad = true → t.m.ctl.rd Fld.nm_NM_STATE_READY n = s.m.ctl.rd Fld.nm_NM_STATE_READY n)
      ∧ (∀ a, stackOf a ≠ some n → memByte t.m.mem a = memByte s.m.mem a))) ∧
  (∀ (fm : Nat) (s : State), s.m.ctl.inEvent8 = true → fm < 2 → s.m.ctl.fcEvent (32 * fm) = 0 →
    Completes (.fmOscillatorLock fm) s (fun t =>
      (∀ ch, t.m.ctl.fcEvent ch = (if ch / 32 = fm then 1 else s.m.ctl.fcEvent ch)) ∧ s.sameMem t)) ∧
  (∀ (ch : Nat) (s : State), s.m.ctl.fcEvent ch = 1 →
    Completes (.lpddr6Init ch) s (fun t => (∀ x, t.m.ctl.fcEvent x = (if x = ch then 2 else s.m.ctl.fcEvent x)) ∧ s.sameMem t)) ∧
  (∀ (ch ident : Nat) (s : State), s.m.ctl.fcEvent ch = 2 →
    Completes (.trainingSettingsRead ch ident) s (fun t => t.m.ctl.fcEvent ch = 3
      ∧ (s.m.ctl.pow.full.contains ch = false →
          (t.m.ctl.pow.full.contains ch = true ↔ s.m.ctl.sec.keys = true ∧ (s.m.ctl.learnedOk = false ∨
            ∀ p, s.m.ctl.sec.learned.find? (fun q => q.1 == ch) = some p → p.2.1 ≠ ident))) ∧ s.sameMem t)) ∧
  (∀ (ch : Nat) (pass : Bool) (s : State), s.m.ctl.fcEvent ch = 3 → s.m.ctl.pow.full.contains ch = false →
    Completes (.quickVerification ch pass) s (fun t =>
      (pass = true → t.m.ctl.fcEvent ch = 5 ∧ (t.m.ctl.kept ch = true ↔ s.m.ctl.pow.refresh.contains ch = true))
      ∧ (pass = false → t.m.ctl.fcEvent ch = 3 ∧ t.m.ctl.pow.full.contains ch = true) ∧ s.sameMem t)) ∧
  (∀ (ch set : Nat) (pass : Bool) (s : State), s.m.ctl.fcEvent ch = 3 → s.m.ctl.pow.full.contains ch = true →
    Completes (.fullTrainingAttempt ch pass set) s (fun t =>
      t.m.ctl.rd Fld.fc_FC_STATE_ATTEMPTS ch = min (s.m.ctl.rd Fld.fc_FC_STATE_ATTEMPTS ch + 1) 3
      ∧ t.m.ctl.rd Fld.fc_FC_STATE_FULL_TRAIN ch = 1
      ∧ (pass = true → t.m.ctl.fcEvent ch = 5
          ∧ (s.m.ctl.sec.keys = true → (Tab.get (0, 0) t.m.ctl.sec.learned ch).2 = set ∧ t.m.ctl.learnedOk = true))
      ∧ (pass = false → 2 ≤ s.m.ctl.rd Fld.fc_FC_STATE_ATTEMPTS ch → s.m.ctl.hasRoom 1 →
          t.m.ctl.fcEvent ch = 8 ∧ s.m.ctl.Posted t.m.ctl 0x0408 1 (0x48 + ch / 32) (ch % 32) []) ∧ s.sameMem t)) ∧
  (∀ (ex : List Nat) (s : State), s.wf = true → (∀ ch < 64, s.m.ctl.fcEvent ch = 5) →
    Completes (.farMemoryInit ex) s (fun t => (∀ ch < 64, t.m.ctl.on Fld.fc_FC_STATE_TRAINED ch = true ∧ t.m.ctl.fcEvent ch = 7)
      ∧ (∀ a o, farOff a = some o → memByte t.m.mem a = (if s.m.ctl.kept (chanOf o) = true then memByte s.m.mem a else 0))
      ∧ (∀ a, farOff a = none → memByte t.m.mem a = memByte s.m.mem a)))

/-- R308, R309: an error of one symbol is corrected and counted, one of more poisons the line, is counted, its address kept and
logged for repair; no byte changes. R314, Table 11-6: a controller's refresh band and its alarm. R315: an adjustment counts.
Besides the rules, the model's choices and readings of log entries 11 and 21. -/
def Obligations.MemoryErrorsAndRefresh : Prop :=
  (∀ (a sym n : Nat) (s : State), s.m.ctl.pow.on = true → stackOf a = some n → s.m.ctl.bad a = false → 1 ≤ sym →
    Completes (.scrubRead a sym) s (fun t =>
      (sym = 1 → t.m.ctl.rd Fld.nm_NM_CE_CNT_COUNT n = min (s.m.ctl.rd Fld.nm_NM_CE_CNT_COUNT n + 1) (2 ^ 32 - 1)
        ∧ t.m.ctl.poison = s.m.ctl.poison)
      ∧ (2 ≤ sym → t.m.ctl.rd Fld.nm_NM_UE_CNT_COUNT n = min (s.m.ctl.rd Fld.nm_NM_UE_CNT_COUNT n + 1) (2 ^ 32 - 1)
        ∧ t.m.ctl.bad a = true ∧ t.m.ctl.rd Fld.nm_NM_LAST_UE_ADDR n = a / 64 * 64 ∧ t.m.ctl.sec.repairLog.contains (a / 64 * 64) = true)
      ∧ t.m.ctl.dies = s.m.ctl.dies ∧ s.sameMem t)) ∧
  (∀ (a sym o : Nat) (s : State), s.m.ctl.pow.on = true → stackOf a = none → farOff a = some o → s.m.ctl.bad a = false → 1 ≤ sym →
    Completes (.scrubRead a sym) s (fun t =>
      (sym = 1 → t.m.ctl.rd Fld.fc_FC_CE_CNT_COUNT (chanOf o) = min (s.m.ctl.rd Fld.fc_FC_CE_CNT_COUNT (chanOf o) + 1) (2 ^ 32 - 1)
        ∧ t.m.ctl.poison = s.m.ctl.poison)
      ∧ (2 ≤ sym → t.m.ctl.rd Fld.fc_FC_UE_CNT_COUNT (chanOf o) = min (s.m.ctl.rd Fld.fc_FC_UE_CNT_COUNT (chanOf o) + 1) (2 ^ 32 - 1)
        ∧ t.m.ctl.bad a = true ∧ t.m.ctl.rd Fld.fc_FC_LAST_UE_ADDR (chanOf o) = a / 64 * 64
        ∧ t.m.ctl.sec.repairLog.contains (a / 64 * 64) = true)
      ∧ t.m.ctl.dies = s.m.ctl.dies ∧ s.sameMem t)) ∧
  (∀ (n temp : Nat) (s : State), s.m.ctl.pow.on = true → n < 8 → temp < 256 →
    Completes (.refreshTempSample n temp) s (fun t => t.m.ctl.rd Fld.nm_NM_TEMP n = temp
      ∧ t.m.ctl.rd Fld.nm_NM_STATE_REFRESH n = (if temp ≤ 85 then 0 else if temp ≤ 105 then 1 else 2)
      ∧ (t.m.ctl.on Fld.nm_NM_STATE_HOT n = true ↔ 105 < temp)
      ∧ (105 < temp → s.m.ctl.on Fld.nm_NM_STATE_HOT n = false → s.m.ctl.hasRoom 0 → s.m.ctl.Posted t.m.ctl 0x0405 0 n 0xFF [temp])
      ∧ s.sameMem t)) ∧
  (∀ (ch temp : Nat) (s : State), s.m.ctl.pow.on = true → ch < 64 → temp < 256 →
    Completes (.refreshTempSample (8 + ch) temp) s (fun t => t.m.ctl.rd Fld.fc_FC_TEMP ch = temp
      ∧ t.m.ctl.rd Fld.fc_FC_STATE_REFRESH ch = (if temp ≤ 85 then 0 else if temp ≤ 95 then 1 else 2)
      ∧ (t.m.ctl.on Fld.fc_FC_STATE_HOT ch = true ↔ 95 < temp) ∧ s.sameMem t)) ∧
  (∀ (ch : Nat) (s : State), s.m.ctl.pow.on = true → ch < 64 →
    Completes (.strobeRetrack ch true) s (fun t =>
      t.m.ctl.rd Fld.fc_FC_RETRACK_COUNT ch = min (s.m.ctl.rd Fld.fc_FC_RETRACK_COUNT ch + 1) (2 ^ 32 - 1)
      ∧ (∀ x, x ≠ ch → t.m.ctl.rd Fld.fc_FC_RETRACK_COUNT x = s.m.ctl.rd Fld.fc_FC_RETRACK_COUNT x) ∧ s.sameMem t))

/-! ## Security (section 16) and the TAP (section 19) -/

/-- R439, R445, R446, R448 to R450, R456, Table 16-5: the events of secure boot. The root secret is in use exactly where its check value is the
one programmed. A bank's manifest is accepted exactly where it verifies under a root key that is not revoked, with both signatures, its
`SVN` at least `MIN_SVN` and the HD image's hash, and its images exactly where every hash agrees; a failed bank gives way to the other, and two failures end
in FAULT with NO_IMAGE.
Besides the rules, the model's choices and readings of log entries 9, 22 and 23. -/
def Obligations.SecureBootEvents : Prop :=
  (∀ (pat : Nat) (s : State), s.m.ctl.sec.boot = .rom → s.m.ctl.sec.pufDone = false →
    Completes (.pufReconstruct pat) s (fun t => t.m.ctl.sec.pufDone = true ∧ t.m.ctl.flash = s.m.ctl.flash ∧ s.sameMem t
      ∧ (let root := Config.fuzzy pat (s.m.ctl.flashRead helperAddr 0x8000)
         let good := Config.hkdf root (ascii "cyn-check") 16 = s.m.ctl.flashRead checkAddr 16
         (good → t.m.ctl.sec.boot = .puf ∧ t.m.ctl.sec.root = root ∧ t.m.ctl.sec.keys = true)
         ∧ (¬ good → t.m.ctl.sec.boot = .fault ∧ t.m.ctl.sec.root = [] ∧ t.m.ctl.stage = 5 ∧ t.m.ctl.rd Fld.st_ST_STATE_FAULT_CAUSE = 1)))) ∧
  (∀ (r : ProtRec) (s : State), s.m.ctl.sec.boot = .puf ∨ (s.m.ctl.sec.boot = .rom ∧ s.m.ctl.sec.pufDone = true) →
    s.m.ctl.sec.latched = some r →
    Completes .bootRecordFound s (fun t => t.m.ctl.sec.boot = .record ∧ t.m.ctl.flash = s.m.ctl.flash ∧ t.m.ctl.sec.bank = r.active % 2
      ∧ t.m.ctl.sec.record = { r with staged := if r.staged = 2 then 1 else r.staged } ∧ s.sameMem t)) ∧
  (∀ (r : ProtRec) (s : State), s.m.ctl.sec.boot = .puf ∨ (s.m.ctl.sec.boot = .rom ∧ s.m.ctl.sec.pufDone = true) →
    s.m.ctl.sec.latched = none → s.m.ctl.findRec = some r → r.epoch < 255 → r.reservedEnd < 2 ^ 20 →
    Completes .bootRecordFound s (fun t => t.m.ctl.sec.boot = .record ∧ t.m.ctl.sec.leaf < t.m.ctl.sec.record.reservedEnd
      ∧ r.reservedEnd ≤ t.m.ctl.sec.leaf ∧ t.m.ctl.sec.record.epoch = r.epoch
      ∧ t.m.ctl.sec.bank = (if r.staged = 2 then 1 - r.active % 2 else r.active % 2) ∧ s.sameMem t)) ∧
  (∀ s : State, s.m.ctl.sec.boot = .record →
    Completes .bootManifestVerify s (fun t => t.m.ctl.flash = s.m.ctl.flash ∧ s.sameMem t
      ∧ (t.m.ctl.sec.boot = .manifest ↔ s.m.ctl.BankVerifies s.m.ctl.sec.bank)
      ∧ (t.m.ctl.sec.boot = .manifest → t.m.ctl.sec.bank = s.m.ctl.sec.bank)
      ∧ (t.m.ctl.sec.boot ≠ .manifest → s.m.ctl.sec.tried = [] → t.m.ctl.sec.boot = .record ∧ t.m.ctl.sec.bank = 1 - s.m.ctl.sec.bank)
      ∧ (t.m.ctl.sec.boot ≠ .manifest → s.m.ctl.sec.tried = [1 - s.m.ctl.sec.bank] → s.m.ctl.sec.bank < 2 →
          t.m.ctl.sec.boot = .fault ∧ t.m.ctl.stage = 5 ∧ t.m.ctl.rd Fld.st_ST_STATE_FAULT_CAUSE = 2))) ∧
  (∀ s : State, s.m.ctl.sec.boot = .manifest →
    Completes .hdFirmwareLoad s (fun t => t.m.ctl.stage = 1 ∧ t.m.ctl.sec.boot = .firmware ∧ t.m.ctl.pow.event = max 5 s.m.ctl.pow.event
      ∧ t.m.ctl.rd Fld.st_ST_FW_VERSION = fwVersion (s.m.ctl.bankManifest s.m.ctl.sec.bank)
      ∧ (s.m.ctl.sec.keys = true → s.m.ctl.devPub ≠ s.m.ctl.certKey → t.m.ctl.sec.idMismatch = true) ∧ s.sameMem t)) ∧
  (∀ s : State, s.m.ctl.sec.boot = .firmware →
    Completes .firmwareImagesLoad s (fun t => s.sameMem t
      ∧ (t.m.ctl.sec.boot = .images ↔
          ∀ i, 1 ≤ i → i < 6 → imageOk (s.m.ctl.bankManifest s.m.ctl.sec.bank) (s.m.ctl.bankRead s.m.ctl.sec.bank) i = true)
      ∧ (t.m.ctl.sec.boot = .images → t.m.ctl.sec.manifest = s.m.ctl.bankManifest s.m.ctl.sec.bank
          ∧ t.m.ctl.pow.event = max 6 s.m.ctl.pow.event ∧ t.m.ctl.sec.bank = s.m.ctl.sec.bank)
      ∧ (t.m.ctl.sec.boot ≠ .images → s.m.ctl.sec.tried = [] → t.m.ctl.sec.boot = .record ∧ t.m.ctl.sec.bank = 1 - s.m.ctl.sec.bank)))

/-- R522 to R528, Tables 19-7 to 19-10: a scan of the instruction register shows OPENED and ERASING; an open instruction disturbs no
part of the module; SAMPLE/PRELOAD captures the 495 boundary cells, and DBG_ACCESS the result of the access before; a gated one begins the
erasure while test access is closed, and, once it is open, takes the pins, so that no link is up.
Besides the rules, the model's choices and readings of log entries 35 and 210. -/
def Obligations.TapInstructions : Prop :=
  let capIr (s : State) : List Bool := [true, false, s.m.ctl.tap.opened, s.m.ctl.tap.erasing, false, false, false, false]
  (∀ s : State, s.m.ctl.tap.on = true →
    Completes .testLogicReset s (fun t => t.m = { s.m with ctl := { s.m.ctl with tap := { s.m.ctl.tap with ir := 0x02 } } })) ∧
  (∀ s : State, s.m.ctl.tap.on = true →
    Completes .bypass s (fun t => t.m = { s.m with ctl := { s.m.ctl with
      tap := { s.m.ctl.tap with ir := 0xFF }, out := s.m.ctl.out ++ [.tdo (capIr s)] } })) ∧
  (∀ (p : Option (List Bool)) (s : State), s.m.ctl.tap.on = true →
    Completes (.samplePreload p) s (fun t => t.m.ctl.tap.preload = p.getD s.m.ctl.tap.preload ∧ t.m.ctl.tap.ir = 0x01
      ∧ (∃ cells, t.m.ctl.out = s.m.ctl.out ++ [.tdo (capIr s), .tdo cells] ∧ cells.length = 495
          ∧ cells.getD 0 false = (!s.m.ctl.pow.modrst) ∧ cells.getD 6 false = s.m.ctl.pow.modpg
          ∧ cells.getD 8 false = (!s.m.ctl.host.perst) ∧ cells.getD 13 false = s.m.ctl.pow.flFree)
      ∧ t.m.ctl.regs = s.m.ctl.regs ∧ t.m.ctl.links = s.m.ctl.links ∧ s.sameMem t)) ∧
  (∀ s : State, s.m.ctl.tap.on = true →
    Completes .idcode s (fun t => t.m.ctl.out = s.m.ctl.out ++ [.tdo (capIr s), .answer [0x5D, 0x6D, 0x83, 0x10]] ∧ t.m.ctl.tap.ir = 2
      ∧ t.m.ctl.regs = s.m.ctl.regs ∧ t.m.ctl.links = s.m.ctl.links ∧ s.sameMem t)) ∧
  (∀ s : State, s.m.ctl.tap.on = true →
    Completes .testStatus s (fun t => t.m.ctl.regs = s.m.ctl.regs ∧ t.m.ctl.links = s.m.ctl.links ∧ s.sameMem t
      ∧ ∃ w, t.m.ctl.out = s.m.ctl.out ++ [.tdo (capIr s), .answer (le 4 w)] ∧ bit w 0 = s.m.ctl.tap.opened ∧ bit w 1 = s.m.ctl.tap.erasing
        ∧ bit w 2 = s.m.ctl.tap.pending ∧ bit w 3 = s.m.ctl.tap.recordFail ∧ bit w 4 = s.m.ctl.tap.pinsTaken
        ∧ bitsOf w 8 4 = s.m.ctl.stage % 16)) ∧
  (∀ (i : Instr) (code : Nat) (s : State), s.m.ctl.tap.on = true → s.m.ctl.tap.opened = false →
    (i, code) ∈ ([(.extest, 0x00), (.clamp, 0x03), (.highz, 0x04), (.extestPulse, 0x05), (.extestTrain, 0x06), (.dbgAccess, 0x20)]
      : List (Instr × Nat)) →
    Completes i s (fun t => t.m.ctl.tap.ir = code ∧ t.m.ctl.tap.erasing = true
      ∧ (s.m.ctl.tap.erasing = false → (t.m.ctl.tap.pending = true ↔ s.m.ctl.pastRecord = false))
      ∧ t.m.ctl.out = s.m.ctl.out ++ [.tdo (capIr s)]
      ∧ t.m.ctl.regs = s.m.ctl.regs ∧ t.m.ctl.links = s.m.ctl.links ∧ t.m.ctl.sec = s.m.ctl.sec ∧ s.sameMem t)) ∧
  (∀ (i : Instr) (code : Nat) (s : State), s.m.ctl.tap.on = true → s.m.ctl.tap.opened = true →
    (i, code) ∈ ([(.extest, 0x00), (.clamp, 0x03), (.highz, 0x04), (.extestPulse, 0x05), (.extestTrain, 0x06)] : List (Instr × Nat)) →
    Completes i s (fun t => t.m.ctl.tap.ir = code ∧ t.m.ctl.out.getLast? = some (.boundary (drives code s.m.ctl.tap.preload))
      ∧ t.m.ctl.tap.pinsTaken = true ∧ (∀ x < 36, t.m.ctl.lkState x ≠ 1 ∧ t.m.ctl.lkState x ≠ 2 ∧ t.m.ctl.lkState x ≠ 3)
      ∧ (s.m.ctl.hdUp = true → t.m.ctl.host.linkTrained = false) ∧ s.sameMem t)) ∧
  (∀ s : State, s.m.ctl.tap.on = true → s.m.ctl.tap.opened = true →
    Completes .dbgAccess s (fun t => t.m = { s.m with ctl := { s.m.ctl with
      tap := { s.m.ctl.tap with ir := 0x20 },
      out := s.m.ctl.out ++ [.tdo (capIr s), .tdo ((List.range 82).map (bit s.m.ctl.tap.dr))] } }))

/-- R455, R456, R528 to R530, Table 19-11: the erasure latches the record with every leaf of the epoch used up, zeroises the key
store, ends sessions and secure streams, and opens test access. R525: the boundary cells. R527: debug access reads and writes.
R531: while FL_FREE is high an external programmer writes the flash, and nothing else of it changes.
Besides the rules, the model's choices and readings of log entries 25, 36, 207 and 210. -/
def Obligations.TestAccessAndFlashPath : Prop :=
  (∀ (w : List Bool) (s : State), s.m.ctl.tap.erasing = true → s.m.ctl.pastRecord = true →
    Completes (.erasureTaken w) s (fun t => t.m.ctl.sec.keys = false ∧ t.m.ctl.sec.root = [] ∧ t.m.ctl.sec.sessions = []
      ∧ t.m.ctl.sec.ide = [] ∧ t.m.ctl.sec.attestOff = true ∧ t.m.ctl.tap.opened = true ∧ t.m.ctl.tap.erasing = false
      ∧ t.m.ctl.tap.pending = false ∧ (t.m.ctl.sec.attestDue = true ↔ ¬ (2 ≤ s.m.ctl.stage ∧ s.m.ctl.stage ≤ 4))
      ∧ (2 ≤ s.m.ctl.stage → s.m.ctl.stage ≤ 4 → s.m.ctl.hasRoom 0 → s.m.ctl.sec.updState ≠ 3 → s.m.ctl.sec.updState ≠ 5 →
          s.m.ctl.tap.ir = 0x20 → s.m.ctl.Posted t.m.ctl 0x0808 0 0x58 0xFF [])
      ∧ ((w.take 3).contains true = true → t.m.ctl.sec.latched = some { s.m.ctl.sec.record with reservedEnd := 2 ^ 20 }
          ∧ t.m.ctl.sec.rpmc = (s.m.ctl.sec.rpmc + 1) % 2 ^ 32)
      ∧ ((w.take 3).contains true = false → t.m.ctl.tap.recordFail = true ∧ t.m.ctl.flash = s.m.ctl.flash) ∧ s.sameMem t)) ∧
  (∀ (b : List Bool) (s : State), s.m.ctl.tap.on = true →
    s.m.ctl.tap.ir = 0x01 ∨ (s.m.ctl.tap.opened = true ∧ (s.m.ctl.tap.ir = 0x00 ∨ s.m.ctl.tap.ir = 0x05 ∨ s.m.ctl.tap.ir = 0x06)) →
    Completes (.boundaryUpdateDr b) s (fun t => t.m.ctl.tap.preload = b
      ∧ (∃ cells, cells.length = 495 ∧ t.m.ctl.out = s.m.ctl.out ++ .tdo cells
          :: (if s.m.ctl.tap.ir = 0x01 then [] else [.boundary (drives s.m.ctl.tap.ir b)]))
      ∧ t.m.ctl.regs = s.m.ctl.regs ∧ s.sameMem t)) ∧
  (∀ (bits : Nat) (s : State), s.m.ctl.tap.on = true → s.m.ctl.tap.opened = true → s.m.ctl.tap.ir = 0x20 →
    Completes (.debugAccessUpdate bits) s (fun t =>
      (∃ l, t.m.ctl.out = s.m.ctl.out ++ .tdo ((List.range 82).map (bit s.m.ctl.tap.dr)) :: l) ∧ bit t.m.ctl.tap.dr 80 = true
      ∧ bitsOf t.m.ctl.tap.dr 32 48 = bitsOf bits 32 48 ∧ (s.m.dbgTarget bits = none → bit t.m.ctl.tap.dr 81 = true)
      ∧ (bit bits 80 = false → t.m.ctl.dies = s.m.ctl.dies ∧ t.m.ctl.regs = s.m.ctl.regs) ∧ s.sameMem t)) ∧
  (∀ (a : Nat) (b : List Nat) (s : State), s.m.ctl.pow.flFree = true → a + b.length ≤ 0x10000000 → Flash.wf s.m.ctl.flash = true →
    Completes (.flashExternalWrite a b) s (fun t => t.m.ctl.flashRead a b.length = b.map (· % 256)
      ∧ (∀ x, x < a ∨ a + b.length ≤ x → t.m.ctl.flashRead x 1 = s.m.ctl.flashRead x 1)
      ∧ Flash.wf t.m.ctl.flash = true ∧ t.m.ctl.sec.keys = s.m.ctl.sec.keys ∧ s.sameMem t))

/-! ## Trace, breakpoints and Echo (section 17) -/

/-- R472 to R477: a record of its source's next number, or the first of a source, leaves its FIFO, in which the records that follow it
stay in order and what waits for an entry follows them, and enters the ARMED ring that accepts it at the next of its first S − P slots; a record
that fires the ring sets DB3, is written with `TRIG` to the first of the last P slots, and the ring is in POST. A record of
another module is marked `REMOTE`, and is never forwarded again.
Besides the rules, the model's choices and readings of log entries 13 and 188. -/
def Obligations.TraceRingTakesRecord : Prop :=
  (∀ (d r : Nat) (x : TraceRec) (l : List TraceRec) (s : State), s.m.ctl.hdUp = true → (s.m.ctl.fifo d).recs = x :: l → r < 4 →
    x.bytes.length = 64 → s.m.ctl.fwdFull x.cls = false →
    (Tab.has s.m.ctl.trace.expect (fieldAt x.bytes 14 2, x.bytes.getD 8 0) = false
      ∨ fieldAt x.bytes 16 4 ≤ Tab.get 0 s.m.ctl.trace.expect (fieldAt x.bytes 14 2, x.bytes.getD 8 0)) →
    s.m.ctl.filterOk r x.bytes = true → (∀ q < 4, q ≠ r → s.m.ctl.filterOk q x.bytes = false) → s.m.ctl.rd Fld.tr_TR_STATUS_STATE 0 r = 1 →
    Completes (.traceRecordAccept d) s (fun t => (t.m.ctl.fifo d).recs.take l.length = l ∧ s.sameMem t
      ∧ ((s.m.ctl.fifo d).waiting = [] → (s.m.ctl.fifo d).lossDue = false → (t.m.ctl.fifo d).recs = l)
      ∧ Tab.get 0 t.m.ctl.trace.expect (fieldAt x.bytes 14 2, x.bytes.getD 8 0) = fieldAt x.bytes 16 4 + 1
      ∧ (s.m.ctl.fires r x.bytes = false →
          Tab.get [] t.m.ctl.trace.buf (s.m.ctl.ringBase r + (s.m.ctl.tring r).pre % (s.m.ctl.ringS r - s.m.ctl.ringP r))
            = stampRing x.bytes r false ∧ t.m.ctl.rd Fld.tr_TR_STATUS_STATE 0 r = 1)
      ∧ (s.m.ctl.fires r x.bytes = true → bit (t.m.ctl.rd Fld.db_DB_PEND) 3 = true
          ∧ ((s.m.ctl.tring r).post + 1 < s.m.ctl.ringP r → t.m.ctl.rd Fld.tr_TR_STATUS_STATE 0 r = 2
              ∧ Tab.get [] t.m.ctl.trace.buf
                  (s.m.ctl.ringBase r + (s.m.ctl.ringS r - s.m.ctl.ringP r + (s.m.ctl.tring r).post)) = stampRing x.bytes r true)
          ∧ (s.m.ctl.ringP r = 0 → t.m.ctl.rd Fld.tr_TR_STATUS_STATE 0 r = 3 ∧ t.m.ctl.trace.buf = s.m.ctl.trace.buf)))) ∧
  (∀ (d : Nat) (x : TraceRec) (l : List TraceRec) (s : State), (s.m.ctl.fifo d).recs = x :: l → s.m.ctl.fwdFull x.cls = true →
    exec (.traceRecordAccept d) s = .next s) ∧
  (∀ (src : Nat) (b : List Nat) (s : State), s.m.ctl.hdUp = true → b.length = 64 →
    Completes (.traceFrameReceive src b) s (fun t => t.m.ctl.trace.fwd = s.m.ctl.trace.fwd ∧ t.m.ctl.trace.fifos = s.m.ctl.trace.fifos
      ∧ Tab.get 0 t.m.ctl.trace.expect (fieldAt b 14 2, b.getD 8 0) = fieldAt b 16 4 + 1
      ∧ (∀ p ∈ t.m.ctl.trace.buf, p ∈ s.m.ctl.trace.buf ∨ bit (p.2.getD 12 0) 3 = true ∨ fieldAt p.2 10 2 = 1)
      ∧ t.m.ctl.dies = s.m.ctl.dies ∧ s.sameMem t))

/-- R475, R480: a stopped ring is copied to the snapshot slot in turn, armed again, and TRACE_STOPPED is posted. R485: `RESUME`
releases the cores that this core's breakpoints alone had halted. R486: one fabric exchange yields a record for each of 15 dies. -/
def Obligations.SnapshotResumeAndEcho : Prop :=
  (∀ (r : Nat) (s : State), s.wf = true → r < 4 → s.m.ctl.rd Fld.tr_TR_STATUS_STATE 0 r = 3 → s.m.ctl.rd Fld.tr_SNAP_SNAP_NEXT < 8 →
    s.m.ctl.hasRoom 2 →
    Completes (.ringSnapshot r) s (fun t => t.m.ctl.rd Fld.tr_TR_STATUS_STATE 0 r = 1
      ∧ t.m.ctl.rd Fld.tr_SNAP_SNAP_NEXT = (s.m.ctl.rd Fld.tr_SNAP_SNAP_NEXT + 1) % 8
      ∧ memRead t.m.mem (snapAddr (s.m.ctl.rd Fld.tr_SNAP_SNAP_NEXT)) 5 = [0x53, 0x4E, 0x50, 0x30, r]
      ∧ (∀ a, a < snapAddr (s.m.ctl.rd Fld.tr_SNAP_SNAP_NEXT)
            ∨ snapAddr (s.m.ctl.rd Fld.tr_SNAP_SNAP_NEXT) + 64 + 64 * (s.m.ctl.ringOrder r).length ≤ a →
          memByte t.m.mem a = memByte s.m.mem a)
      ∧ s.m.ctl.Posted t.m.ctl 0x0901 2 0x58 0xFF ([r, s.m.ctl.rd Fld.tr_SNAP_SNAP_NEXT, 0, 0]
          ++ le 4 (s.m.ctl.rd Fld.tr_TR_COUNTS_MISSED 0 r)))) ∧
  (∀ (d k : Nat) (s : State), d < 8 → k < 4 →
    Completes (.breakpointResume d k) s (fun t =>
      (∀ y, (y, 4 * d + k) ∈ s.m.ctl.trace.halts → (∀ x, (y, x) ∈ s.m.ctl.trace.halts → x = 4 * d + k) →
        t.m.ctl.on Fld.bp_BP_STATE_HALTED y = false)
      ∧ (∀ h ∈ t.m.ctl.trace.halts, h.2 ≠ 4 * d + k) ∧ (∀ q, t.m.ctl.rd Fld.que_Q_CTRL_STOPPED d q = s.m.ctl.rd Fld.que_Q_CTRL_STOPPED d q)
      ∧ t.m.ctl.dies = s.m.ctl.dies ∧ s.sameMem t)) ∧
  (∀ s : State, s.m.ctl.hdUp = true → bit (s.m.ctl.rd Fld.tr_TR_SRC_CLASS_EN) 1 = true → (s.m.ctl.fifo dieHB).lossDue = false →
    sharedUsed (s.m.ctl.fifo dieHB).recs ≤ 224 →
    Completes .echoFabricExchange s (fun t => (t.m.ctl.fifo dieHB).recs.length = (s.m.ctl.fifo dieHB).recs.length + 15
      ∧ (t.m.ctl.fifo dieHB).seq = (s.m.ctl.fifo dieHB).seq + 15 ∧ t.m.ctl.regs = s.m.ctl.regs ∧ s.sameMem t))

/-! ## The host interface and the sideband (section 14) -/

/-- R409: a host clear of `PEND`, and a mask that clears sends the message of a pending bit, or leaves it pending at a masked
vector. R411: `HEAD` never passes `TAIL`, and waiting alarms enter as room comes, oldest first. R412: the delay sets DB0. In D3hot the
function takes no memory request.
Besides the rules, the model's choices and readings of log entries 183 and 185. -/
def Obligations.DoorbellsAndEventRing : Prop :=
  (∀ (v : Nat) (s : State), s.m.ctl.hdUp = true → s.m.ctl.host.d3 = false →
    Completes (.dbPendClear v) s (fun t =>
      (∀ n < 32, bit (t.m.ctl.rd Fld.db_DB_PEND) n = (bit (s.m.ctl.rd Fld.db_DB_PEND) n && !bit v n))
      ∧ t.m.ctl.rd Fld.db_DB_MASK = s.m.ctl.rd Fld.db_DB_MASK ∧ t.m.ctl.out = s.m.ctl.out ∧ s.m.ctl.Quiet t.m.ctl ∧ s.sameMem t)) ∧
  (∀ (v : Nat) (s : State), s.m.ctl.hdUp = true → s.m.ctl.host.d3 = false →
    Completes (.dbMaskWrite v) s (fun t => t.m.ctl.rd Fld.db_DB_MASK = v % 2 ^ 32
      ∧ t.m.ctl.rd Fld.db_DB_PEND = s.m.ctl.rd Fld.db_DB_PEND
      ∧ (∀ n < 32, bit (s.m.ctl.rd Fld.db_DB_MASK) n = true → bit v n = false → bit (s.m.ctl.rd Fld.db_DB_PEND) n = true →
          if s.m.ctl.msixHeld n then t.m.ctl.host.msixPend.contains n = true else .msix n ∈ t.m.ctl.out)
      ∧ s.m.ctl.Quiet t.m.ctl ∧ s.sameMem t)) ∧
  (∀ (v : Nat) (s : State), s.m.ctl.hdUp = true → s.m.ctl.host.d3 = false → s.m.ctl.rd Fld.ev_EV_TAIL < 16384 → s.m.ctl.host.shedFirst = none →
    Completes (.evHeadWrite v) s (fun t =>
      t.m.ctl.rd Fld.ev_EV_HEAD
        = (if s.m.ctl.unread < (v % 16384 + 16384 - s.m.ctl.rd Fld.ev_EV_HEAD) % 16384 then s.m.ctl.rd Fld.ev_EV_TAIL else v % 16384)
      ∧ t.m.ctl.host.alarms
        = s.m.ctl.host.alarms.drop (16383 - (s.m.ctl.rd Fld.ev_EV_TAIL + 16384 - t.m.ctl.rd Fld.ev_EV_HEAD) % 16384)
      ∧ (s.m.ctl.host.alarms = [] → t.m.ctl.rd Fld.ev_EV_TAIL = s.m.ctl.rd Fld.ev_EV_TAIL ∧ t.m.ctl.host.ring = s.m.ctl.host.ring)
      ∧ s.m.ctl.Quiet t.m.ctl ∧ s.sameMem t)) ∧
  (∀ s : State, s.m.ctl.hdUp = true → s.m.ctl.rd Fld.ev_EV_DELAY ≠ 0 → s.m.ctl.unread ≠ 0 →
    Completes .eventDelayExpiry s (fun t => bit (t.m.ctl.rd Fld.db_DB_PEND) 0 = true
      ∧ (∀ n < 32, n ≠ 0 → bit (t.m.ctl.rd Fld.db_DB_PEND) n = bit (s.m.ctl.rd Fld.db_DB_PEND) n)
      ∧ s.m.ctl.Quiet t.m.ctl ∧ s.sameMem t)) ∧
  (∀ s : State, s.m.ctl.rd Fld.ev_EV_DELAY = 0 → exec .eventDelayExpiry s = .next s) ∧
  (∀ (i : Instr) (v : Nat) (s : State), s.m.ctl.host.d3 = true →
    i ∈ ([.dbPendClear v, .dbMaskWrite v, .evHeadWrite v] : List Instr) → exec i s = .next s)

/-- R414, Table 14-14a: the resets of the CXL function leave the job, the engines and the links running. R515: PERST# acts as link
down and never resets the module.
Besides the rules, the model's choices and readings of log entries 38, 42 and 185. -/
def Obligations.FunctionResetsLeaveTheJobRunning : Prop :=
  (∀ s : State, s.m.ctl.hdUp = true → s.m.ctl.host.alarms = [] → s.m.ctl.host.shedFirst = none →
    Completes .flr s (fun t => s.FunctionReset t ∧ t.m.ctl.host.decoder = s.m.ctl.host.decoder ∧ t.m.ctl.sec = s.m.ctl.sec
      ∧ t.m.ctl.host.linkTrained = s.m.ctl.host.linkTrained)) ∧
  (∀ s : State, s.m.ctl.hdUp = true → s.m.ctl.host.alarms = [] → s.m.ctl.host.shedFirst = none →
    Completes .cxlReset s (fun t => s.FunctionReset t ∧ t.m.ctl.host.decoder = none ∧ t.m.ctl.host.devCache = []
      ∧ t.m.ctl.sec = { s.m.ctl.sec with ide := [] } ∧ t.m.ctl.host.linkTrained = s.m.ctl.host.linkTrained)) ∧
  (∀ s : State, s.m.ctl.hdUp = true → s.m.ctl.host.alarms = [] → s.m.ctl.host.shedFirst = none →
    Completes .hotReset s (fun t => s.FunctionReset t ∧ t.m.ctl.host.decoder = none ∧ t.m.ctl.host.devCache = []
      ∧ t.m.ctl.sec = { s.m.ctl.sec with ide := [] } ∧ t.m.ctl.host.linkTrained = false ∧ t.m.ctl.host.cxlOn = false)) ∧
  (∀ s : State, s.m.ctl.hdUp = true → s.m.ctl.host.alarms = [] → s.m.ctl.host.shedFirst = none →
    Completes .cxPerstAssert s (fun t => s.FunctionReset t ∧ t.m.ctl.host.perst = true ∧ t.m.ctl.host.decoder = none
      ∧ t.m.ctl.sec = { s.m.ctl.sec with ide := [] } ∧ t.m.ctl.host.linkTrained = false)) ∧
  (∀ s : State, Completes .cxPerstDeassert s (fun t =>
      t.m = { s.m with ctl := { s.m.ctl with host := { s.m.ctl.host with perst := false } } }))

/-- R394: CXL.mem works at 32 and 64 GT/s only. R399: only a commit of exactly `BAR2_SIZE` with one way takes. R400, R305, R309:
the window's bytes stand at `BAR2_BASE`; a read tells the poisoned lines, a write of a whole line heals it. R394, R395: identity, the
vendor in the DVSECs, no BAR2, D0 and D3hot, and retry status while `STAGE` is ROM. R396: the CDAT table. Table 14-5: the beat.
Besides the rules, the model's choices and readings of log entries 39, 40, 43, 183, 184 and 185. -/
def Obligations.HostWindowAndConfiguration : Prop :=
  (∀ (w r : Nat) (s : State), s.m.ctl.hdUp = true → s.m.ctl.host.perst = false → s.m.ctl.tap.pinsTaken = false →
    Completes (.cxlLinkTrained w r) s (fun t => t.m.ctl.host.linkTrained = true ∧ (t.m.ctl.host.cxlOn = true ↔ r = 32 ∨ r = 64)
      ∧ t.m.ctl.regs = s.m.ctl.regs ∧ t.m.ctl.dies = s.m.ctl.dies ∧ s.sameMem t)) ∧
  (∀ (base size ways : Nat) (s : State), s.m.ctl.hdUp = true → s.m.ctl.host.d3 = false → s.m.ctl.host.linkTrained = true →
    Completes (.hdmDecoderCommit base size ways) s (fun t =>
      (if size ≠ 0 ∧ size = s.m.ctl.rd Fld.fl_FL_BAR2_SIZE_GIB * gib ∧ ways = 1
        then t.m.ctl.host.decoder = some (base, size) ∧ t.m.ctl.host.decoderErr = false
        else t.m.ctl.host.decoder = none ∧ t.m.ctl.host.decoderErr = true)
      ∧ t.m.ctl.regs = s.m.ctl.regs ∧ t.m.ctl.dies = s.m.ctl.dies ∧ s.sameMem t)) ∧
  (∀ (off len base size : Nat) (s : State), s.m.ctl.host.cxlOn = true → s.m.ctl.host.d3 = false → s.m.ctl.host.decoder = some (base, size) → off + len ≤ size →
    Completes (.cxlMemAccess off len none []) s (fun t =>
      (let a := farBase + s.m.ctl.rd Fld.fl_FL_BAR2_BASE_GIB * gib + off
       t.m.ctl.out = s.m.ctl.out ++ [.memData (memRead s.m.mem a len) ((spanLines a len).filter s.m.ctl.poison.contains)])
      ∧ t.m.ctl.poison = s.m.ctl.poison ∧ t.m.ctl.dies = s.m.ctl.dies ∧ s.sameMem t)) ∧
  (∀ (off len base size : Nat) (b : List Nat) (s : State), s.wf = true → s.m.ctl.host.cxlOn = true → s.m.ctl.host.d3 = false →
    s.m.ctl.host.decoder = some (base, size) → off + b.length ≤ size →
    Completes (.cxlMemAccess off len (some b) []) s (fun t =>
      (let a := farBase + s.m.ctl.rd Fld.fl_FL_BAR2_BASE_GIB * gib + off
       memRead t.m.mem a b.length = b.map (· % 256) ∧ (∀ x, x < a ∨ a + b.length ≤ x → memByte t.m.mem x = memByte s.m.mem x)
       ∧ (∀ l ∈ t.m.ctl.poison, l ∈ s.m.ctl.poison) ∧ (∀ l, a ≤ l * 64 → l * 64 + 64 ≤ a + b.length → s.m.ctl.pow.dead.contains l = false →
           t.m.ctl.poison.contains l = false)
       ∧ (∀ l ∈ s.m.ctl.poison, l * 64 < a ∨ a + b.length < l * 64 + 64 → l ∈ t.m.ctl.poison))
      ∧ t.m.ctl.regs = s.m.ctl.regs ∧ t.m.ctl.dies = s.m.ctl.dies)) ∧
  (∀ (off : Nat) (w : Option Nat) (s : State), s.m.ctl.hdUp = true → s.m.ctl.host.perst = false →
    Completes (.configurationRequest off w) s (fun t =>
      (s.m.ctl.stage = 0 → t.m.ctl.out = s.m.ctl.out ++ [.crs])
      ∧ (s.m.ctl.stage ≠ 0 → w = none → off = 0 → t.m.ctl.out = s.m.ctl.out ++ [.answer [0x4E, 0x1F, 0x36, 0x08]])
      ∧ (s.m.ctl.stage ≠ 0 → w = none → off = 8 → t.m.ctl.out = s.m.ctl.out ++ [.answer [0xB0, 0x00, 0x00, 0x12]])
      ∧ (s.m.ctl.stage ≠ 0 → w = none → off = 0x18 ∨ off = 0x1C → t.m.ctl.out = s.m.ctl.out ++ [.answer [0, 0, 0, 0]])
      ∧ (s.m.ctl.stage ≠ 0 → w = none → off = 0x104 ∨ off = 0x144 → ∃ b, b.take 2 = [0x4E, 0x1F] ∧ t.m.ctl.out = s.m.ctl.out ++ [.answer b])
      ∧ (∀ v, s.m.ctl.stage ≠ 0 → w = some v → off = 0x44 → v % 4 = 3 → t.m.ctl.host.d3 = true)
      ∧ (∀ v, s.m.ctl.stage ≠ 0 → w = some v → off = 0x44 → v % 4 = 0 → t.m.ctl.host.d3 = false)
      ∧ t.m.ctl.regs = s.m.ctl.regs ∧ t.m.ctl.dies = s.m.ctl.dies ∧ s.sameMem t)) ∧
  (∀ (c : Ctl) (h : Nat) (e : List Nat), (cdatTable c.windowSize)[h]? = some e → h < 2 ^ 16 →
    c.doeAnswer [vendorId + 2 ^ 16 * 3, 3, 2 ^ 16 * h]
      = doeObject 3 ((2 ^ 16 * (if h + 1 < 5 then h + 1 else 0xFFFF)) :: words (e.length / 4) e)
    ∧ (cdatTable c.windowSize).tail = [dsmas c.windowSize, dslbis 1 1000 600, dslbis 4 1000 110, dslbis 5 1000 110]
    ∧ (cdatTable c.windowSize).flatten.sum % 256 = 0) ∧
  (∀ s : State, s.m.ctl.hdUp = true → s.m.ctl.stage ≠ 0 → s.m.ctl.stage ≠ 5 → s.m.ctl.sec.updState ≠ 5 →
    Completes .stBeatTick s (fun t => t.m.ctl.rd Fld.st_ST_BEAT_COUNT = (s.m.ctl.rd Fld.st_ST_BEAT_COUNT + 1) % 2 ^ 32
      ∧ t.m.ctl.dies = s.m.ctl.dies ∧ s.sameMem t))

/-- R415, R416, R417: the sideband answers from BOOT on and in FAULT; what it may not reach is ignored, reads 0 and is counted in
`DENIED`. Its common commands give and take the dynamic address, enable interrupts and tell the fixed properties; in FAULT they are refused and counted.
Besides the rules, the model's choices and readings of log entries 37, 47 and 48. -/
def Obligations.SidebandAccess : Prop :=
  (∀ (off v : Nat) (s : State), s.m.ctl.hdUp = true → s.m.ctl.stage ≠ 0 → off < 2 ^ 32 → v < 2 ^ 32 →
    Completes (.privateWrite (le 4 off ++ le 4 v)) s (fun t => t.m.ctl.host.sbOffset = off ∧ t.m.ctl.dies = s.m.ctl.dies ∧ s.sameMem t
      ∧ (s.m.ctl.sbMayWrite off = false →
          t.m.ctl.rd Fld.sb_SB_DENIED = min (s.m.ctl.rd Fld.sb_SB_DENIED + 1) (2 ^ 32 - 1)
          ∧ ∀ f i j, f.blk ≠ .sb → t.m.ctl.rd f i j = s.m.ctl.rd f i j)
      ∧ (∀ ch w, ch < 32 → w < 16 → w ≠ 1 → off = 0x10000 + 0x100 * ch + 4 * w → s.m.ctl.stage ≠ 5 → s.m.ctl.permits ch 2 = true →
          s.m.ctl.owns .sideband ch = true → s.m.ctl.busy ch = false →
          t.m.ctl.rd Fld.mb_MB_DATAw_WORD ch w = v ∧ t.m.ctl.rd Fld.sb_SB_DENIED = s.m.ctl.rd Fld.sb_SB_DENIED))) ∧
  (∀ s : State, s.m.ctl.hdUp = true → s.m.ctl.stage ≠ 0 →
    Completes (.privateRead 1) s (fun t => t.m.ctl.dies = s.m.ctl.dies ∧ s.sameMem t
      ∧ (s.m.ctl.sbMayRead s.m.ctl.host.sbOffset = false → t.m.ctl.out = s.m.ctl.out ++ [.answer [0, 0, 0, 0]]
          ∧ t.m.ctl.rd Fld.sb_SB_DENIED = min (s.m.ctl.rd Fld.sb_SB_DENIED + 1) (2 ^ 32 - 1))
      ∧ (s.m.ctl.host.sbOffset = 8 → t.m.ctl.out = s.m.ctl.out ++ [.answer (le 4 (s.m.ctl.rdWord .st 0 8))]
          ∧ t.m.ctl.rd Fld.sb_SB_DENIED = s.m.ctl.rd Fld.sb_SB_DENIED))) ∧
  (∀ (off : Nat) (s : State), s.m.ctl.stage = 5 → 0x1000 ≤ off → s.m.ctl.sbMayRead off = false ∧ s.m.ctl.sbMayWrite off = false) ∧
  (∀ (i : Instr) (a x : Nat) (s : State), s.m.ctl.hdUp = true → s.m.ctl.stage = 5 →
    i ∈ ([.entdaa a, .setdasa x a, .rstdaa, .enec a, .disec a, .getpid, .getbcr, .getdcr, .getstatus, .getmwl, .getmrl] : List Instr) →
    Completes i s (fun t => t.m.ctl.rd Fld.sb_SB_DENIED = min (s.m.ctl.rd Fld.sb_SB_DENIED + 1) (2 ^ 32 - 1)
      ∧ (∀ f i j, f ≠ Fld.sb_SB_DENIED → f ∈ fieldsOf f.blk → j < f.count → t.m.ctl.rd f i j = s.m.ctl.rd f i j)
      ∧ t.m.ctl.out = s.m.ctl.out ∧ s.sameMem t)) ∧
  (∀ (i : Instr) (a : Nat) (s : State), s.m.ctl.hdUp = true → s.m.ctl.stage ≠ 0 → s.m.ctl.stage ≠ 5 → s.m.ctl.on Fld.sb_SB_STATE_DAVALID = false → a < 128 →
    i ∈ ([.entdaa a, .setdasa 0x4C a] : List Instr) →
    Completes i s (fun t => t.m.ctl.rd Fld.sb_SB_STATE_DADDR = a ∧ t.m.ctl.on Fld.sb_SB_STATE_DAVALID = true
      ∧ t.m.ctl.dies = s.m.ctl.dies ∧ s.sameMem t)) ∧
  (∀ s : State, s.m.ctl.hdUp = true → s.m.ctl.stage ≠ 0 → s.m.ctl.stage ≠ 5 →
    Completes .rstdaa s (fun t => t.m.ctl.rd Fld.sb_SB_STATE_DADDR = 0 ∧ t.m.ctl.on Fld.sb_SB_STATE_DAVALID = false
      ∧ t.m.ctl.on Fld.sb_SB_STATE_IBI_EN = s.m.ctl.on Fld.sb_SB_STATE_IBI_EN ∧ s.sameMem t)) ∧
  (∀ (i : Instr) (e : Nat) (v : Bool) (s : State), s.m.ctl.hdUp = true → s.m.ctl.stage ≠ 0 → s.m.ctl.stage ≠ 5 → bit e 0 = true →
    (i, v) ∈ ([(.enec e, true), (.disec e, false)] : List (Instr × Bool)) →
    Completes i s (fun t => t.m.ctl.on Fld.sb_SB_STATE_IBI_EN = v ∧ t.m.ctl.rd Fld.sb_SB_STATE_DADDR = s.m.ctl.rd Fld.sb_SB_STATE_DADDR
      ∧ s.sameMem t)) ∧
  (∀ (i : Instr) (b : List Nat) (s : State), s.m.ctl.hdUp = true → s.m.ctl.stage ≠ 0 → s.m.ctl.stage ≠ 5 →
    s.m.ctl.on Fld.sb_SB_STATE_DAVALID = true →
    (i, b) ∈ ([(.getpid, be 6 (s.m.ctl.rd Fld.sb_SB_PID)), (.getbcr, [0x06]), (.getdcr, [0x00]), (.getmwl, [0, 68]), (.getmrl, [0, 64])]
      : List (Instr × List Nat)) →
    Completes i s (fun t => t.m = { s.m with ctl := { s.m.ctl with out := s.m.ctl.out ++ [.answer b] } })) ∧
  (∀ s : State, s.m.ctl.hdUp = true → s.m.ctl.stage ≠ 0 → s.m.ctl.stage ≠ 5 → s.m.ctl.on Fld.sb_SB_STATE_DAVALID = true →
    Completes .getstatus s (fun t => t.m.ctl.regs = s.m.ctl.regs ∧ s.sameMem t
      ∧ ∃ b, b.length = 2 ∧ t.m.ctl.out = s.m.ctl.out ++ [.answer b]))

/-- R404 to R406, Table 14-8: a channel is claimed only while free and by a kind its mask permits; the owner releases it, at once
or at completion; `GO` writes the sender's stamp, the host's `SECURE` only where
an IDE stream is secure, and hardware ends at once the messages that the table gives it.
Besides the rules, the model's choices and readings of log entries 37 and 41. -/
def Obligations.MailboxClaimReleaseGo : Prop :=
  (∀ (sec : Bool) (c : Ctl), c.stampOf (.host sec) = (if sec = true ∧ c.sec.ide ≠ [] then 0x5811 else 0x5801)) ∧
  (∀ (p : Port) (ch : Nat) (s : State), s.m.ctl.portUp p = true → ch < 32 → s.m.ctl.rd Fld.mb_MB_OWN_OWNER ch = 0 →
    s.m.ctl.permits ch (portKind p) = true →
    Completes (.claim p ch) s (fun t => t.m.ctl.rd Fld.mb_MB_OWN_OWNER ch = s.m.ctl.stampOf p
      ∧ (∀ f i j, i ≠ ch ∨ f.blk ≠ .mb → t.m.ctl.rd f i j = s.m.ctl.rd f i j) ∧ t.m.ctl.host = s.m.ctl.host ∧ s.sameMem t)) ∧
  (∀ (p : Port) (ch : Nat) (s : State), s.m.ctl.rd Fld.mb_MB_OWN_OWNER ch ≠ 0 ∨ s.m.ctl.permits ch (portKind p) = false →
    exec (.claim p ch) s = .next s) ∧
  (∀ (p : Port) (ch : Nat) (s : State), s.m.ctl.portUp p = true → ch < 32 → s.m.ctl.owns p ch = true →
    Completes (.release p ch) s (fun t => s.sameMem t ∧ (∀ f i j, i ≠ ch ∨ f.blk ≠ .mb → t.m.ctl.rd f i j = s.m.ctl.rd f i j)
      ∧ (s.m.ctl.busy ch = false → t.m.ctl.rd Fld.mb_MB_OWN_OWNER ch = 0 ∧ ∀ w < 16, t.m.ctl.mbWord ch w = 0)
      ∧ (s.m.ctl.busy ch = true → t.m.ctl.rd Fld.mb_MB_OWN_OWNER ch = s.m.ctl.rd Fld.mb_MB_OWN_OWNER ch
          ∧ t.m.ctl.host.releasing.contains ch = true))) ∧
  (∀ (p : Port) (ch v : Nat) (i : Instr) (s : State), s.m.ctl.portUp p = true → ch < 32 → s.m.ctl.owns p ch = false →
    i ∈ ([.release p ch, .go p ch v] : List Instr) →
    Completes i s (fun t => t.m.ctl.rd Fld.mb_MB_STATS_IGNORED ch = min (s.m.ctl.rd Fld.mb_MB_STATS_IGNORED ch + 1) 65535
      ∧ (∀ f i j, f ≠ Fld.mb_MB_STATS_IGNORED → f ∈ fieldsOf f.blk → j < f.count → t.m.ctl.rd f i j = s.m.ctl.rd f i j)
      ∧ t.m.ctl.host = s.m.ctl.host ∧ s.sameMem t)) ∧
  (∀ (p : Port) (ch v : Nat) (s : State), s.m.ctl.portUp p = true → ch < 32 → s.m.ctl.owns p ch = true → s.m.ctl.busy ch = false →
    Completes (.go p ch v) s (fun t => s.sameMem t ∧ t.m.ctl.dies = s.m.ctl.dies
      ∧ (s.m.ctl.host.releasing.contains ch = false → t.m.ctl.mbWord ch 1 = s.m.ctl.stampOf p)
      ∧ t.m.ctl.rd Fld.mb_MB_CTRL_LEN ch = v % 32
      ∧ (let n := v % 32
         let stat := if s.m.ctl.stage = 0 ∨ s.m.ctl.stage = 5 then 4 else if n = 0 then 1 else if n < 8 then 2 else if 16 < n then 3 else 0
         t.m.ctl.rd Fld.mb_MB_CTRL_HWSTAT ch = stat
         ∧ (stat = 0 → t.m.ctl.busy ch = true ∧ t.m.ctl.on Fld.mb_MB_CTRL_DONE ch = false
             ∧ t.m.ctl.host.waiting = s.m.ctl.host.waiting ++ [ch])
         ∧ (stat ≠ 0 → t.m.ctl.busy ch = false ∧ t.m.ctl.on Fld.mb_MB_CTRL_DONE ch = true ∧ t.m.ctl.rd Fld.mb_MB_CTRL_RLEN ch = 0
             ∧ t.m.ctl.host.waiting = s.m.ctl.host.waiting
             ∧ (s.m.ctl.permits ch 1 = true → s.m.ctl.host.quiet.contains ch = false →
                 bit (t.m.ctl.rd Fld.db_DB_PEND) (16 + ch % 16) = true)))))

/-- R398: aligned accesses of 4 and 8 bytes are carried out, one of 8 as two words in ascending order; any other is ignored, reads 0
and counts in `BAD_ACCESS`. R8, Table 0-4: words are read and written as their fields allow. R296: a core reaches its own die's
blocks. R158: a core's write of `COMMIT` or `DISCARD` begins a fence, both bits acting as `DISCARD`.
Besides the rules, the model's choices and readings of log entries 37 and 49. -/
def Obligations.RegisterAccess : Prop :=
  (∀ off size, accessWords off size = [] ↔ ¬ (size = 4 ∧ off % 4 = 0) ∧ ¬ (size = 8 ∧ off % 8 = 0)) ∧
  (∀ (sec : Bool) (size b i off v : Nat) (s : State), s.m.ctl.hostUp = true → b ≠ 4 → accessWords off size = [] →
    Completes (.registerWrite (.host sec) b i ⟨size, off⟩ v) s (fun t =>
      t.m.ctl.rd Fld.st_ST_STATE_BAD_ACCESS = min (s.m.ctl.rd Fld.st_ST_STATE_BAD_ACCESS + 1) 65535
      ∧ (∀ f i j, f.blk ≠ .st → t.m.ctl.rd f i j = s.m.ctl.rd f i j) ∧ t.m.ctl.host = s.m.ctl.host ∧ s.sameMem t)) ∧
  (∀ (sec : Bool) (size b i off : Nat) (s : State), s.m.ctl.hostUp = true → b ≠ 4 → accessWords off size = [] →
    Completes (.registerRead (.host sec) b i ⟨size, off⟩) s (fun t =>
      t.m.ctl.rd Fld.st_ST_STATE_BAD_ACCESS = min (s.m.ctl.rd Fld.st_ST_STATE_BAD_ACCESS + 1) 65535
      ∧ t.m.ctl.out = s.m.ctl.out ++ [.answer (List.replicate size 0)] ∧ s.sameMem t)) ∧
  (∀ (sec : Bool) (b i v : Nat) (s : State), s.m.ctl.hostUp = true → b ≠ 4 →
    Completes (.registerWrite (.host sec) b i ⟨4, 0x30008⟩ v) s (fun t => t.m.ctl.rd Fld.ev_EV_THRESH = v % 16384
      ∧ (∀ f i j, f.blk ≠ .ev → t.m.ctl.rd f i j = s.m.ctl.rd f i j) ∧ t.m.ctl.host = s.m.ctl.host ∧ s.sameMem t)) ∧
  (∀ (sec : Bool) (b i v : Nat) (s : State), s.m.ctl.hostUp = true → b ≠ 4 →
    Completes (.registerWrite (.host sec) b i ⟨8, 0x30008⟩ v) s (fun t => t.m.ctl.rd Fld.ev_EV_THRESH = v % 16384
      ∧ t.m.ctl.rd Fld.ev_EV_DELAY = v / 2 ^ 32 % 65536
      ∧ (∀ f i j, f.blk ≠ .ev → t.m.ctl.rd f i j = s.m.ctl.rd f i j) ∧ t.m.ctl.host = s.m.ctl.host ∧ s.sameMem t)) ∧
  (∀ (sec : Bool) (b i off : Nat) (s : State), s.m.ctl.hostUp = true → b ≠ 4 → off ∈ [0, 4, 8, 12] →
    Completes (.registerRead (.host sec) b i ⟨4, off⟩) s (fun t => t.m.ctl.regs = s.m.ctl.regs
      ∧ t.m.ctl.out = s.m.ctl.out ++ [.answer (le 4 (s.m.ctl.rdWord .st 0 off))] ∧ s.sameMem t)) ∧
  (∀ (sec : Bool) (b i off : Nat) (s : State), s.m.ctl.hostUp = true → b ≠ 4 → off ∈ [0, 8] →
    Completes (.registerRead (.host sec) b i ⟨8, off⟩) s (fun t => t.m.ctl.regs = s.m.ctl.regs
      ∧ t.m.ctl.out = s.m.ctl.out ++ [.answer (le 4 (s.m.ctl.rdWord .st 0 off) ++ le 4 (s.m.ctl.rdWord .st 0 (off + 4)))] ∧ s.sameMem t)) ∧
  (∀ (d core i v : Nat) (s : State), s.m.ctl.dieUp d = true → core < 4 →
    Completes (.registerWrite (.core d core) 0x03 i ⟨4, 0⟩ v) s (fun t => t.m.ctl.rd Fld.ln_LN_CTRL_ENABLE d = v % 2
      ∧ (∀ e, e ≠ d → t.m.ctl.rd Fld.ln_LN_CTRL_ENABLE e = s.m.ctl.rd Fld.ln_LN_CTRL_ENABLE e)
      ∧ (bit v 1 = false → bit v 2 = false → t.m.ctl.dies = s.m.ctl.dies)
      ∧ (bit v 1 = true ∨ bit v 2 = true → (s.m.ctl.die d).fence = none → (t.m.ctl.die d).fence = some (!bit v 2))
      ∧ t.m.ctl.job = s.m.ctl.job ∧ s.sameMem t))

/-- Table 16-7: every request is answered by its own response or by SPDM's ERROR, and disturbs no register and no memory: by its own
where SPDM accepts it, at its point of the connection, in version 1.3, for slot 0, with the algorithms named; by ERROR before version,
capabilities and algorithms have been agreed, and to a request of another code or version. Versions, capabilities, algorithms, digest
and certificate are the module's own. R458, R459: the nine measurement digests; what needs an
attestation signature is refused while the module's identity is in doubt. The model's choice (PRESUMED, SPDM 1.3): the codes and
the places of fields.
Besides the rules, the model's choices and readings of log entries 30, 31, 32, 37 and 209. -/
def Obligations.SpdmRequestsAnswered : Prop :=
  (∀ (i : Instr) (code ss : Nat) (b : List Nat) (s : State), s.m.ctl.doeUp = true →
    (i, code) ∈ ([(.getVersion b, 0x04), (.getCapabilities b, 0x61), (.negotiateAlgorithms b, 0x63), (.getDigests b, 0x01),
      (.getCertificate b, 0x02), (.challenge b, 0x03), (.getMeasurements b, 0x60), (.keyExchange b, 0x64), (.finish ss b, 0x65),
      (.keyUpdate ss b, 0x69), (.heartbeat ss b, 0x68), (.endSession ss b, 0x6C)] : List (Instr × Nat)) →
    Completes i s (fun t => (∃ c body, t.m.ctl.out = s.m.ctl.out ++ [.spdm c body] ∧ (c = code ∨ c = 0x7F)
        ∧ (s.m.ctl.sec.spdm < 3 → code ∉ [0x04, 0x61, 0x63] → c = 0x7F ∧ t.m.ctl.sec = s.m.ctl.sec))
      ∧ t.m.ctl.regs = s.m.ctl.regs ∧ t.m.ctl.dies = s.m.ctl.dies ∧ t.m.ctl.flash = s.m.ctl.flash ∧ s.sameMem t)) ∧
  (∀ (i : Instr) (req rsp need ss : Nat) (b : List Nat) (s : State), s.m.ctl.doeUp = true →
    (i, req, rsp, need) ∈ ([(.getVersion b, 0x84, 0x04, 0), (.getCapabilities b, 0xE1, 0x61, 1), (.negotiateAlgorithms b, 0xE3, 0x63, 2),
      (.getDigests b, 0x81, 0x01, 3), (.getCertificate b, 0x82, 0x02, 3), (.challenge b, 0x83, 0x03, 3), (.getMeasurements b, 0xE0, 0x60, 3),
      (.keyExchange b, 0xE4, 0x64, 3), (.finish ss b, 0xE5, 0x65, 3), (.keyUpdate ss b, 0xE9, 0x69, 3), (.heartbeat ss b, 0xE8, 0x68, 3),
      (.endSession ss b, 0xEC, 0x6C, 3)] : List (Instr × Nat × Nat × Nat)) →
    b.getD 1 0 = req → b.getD 0 0 = (if req = 0x84 then 0x10 else 0x13) → need ≤ s.m.ctl.sec.spdm → Config.spdmAccepts req b = true →
    (req = 0xE3 → algsOffered b = true) → (req = 0x82 → b.getD 2 0 % 16 = 0 ∧ fieldAt b 4 2 < s.m.ctl.certChain.length) →
    (req = 0x83 → b.getD 2 0 = 0 ∧ s.m.ctl.noAttest = false) → (req = 0xE4 → b.getD 3 0 = 0 ∧ s.m.ctl.noAttest = false) →
    (req = 0xE0 → bit (b.getD 2 0) 0 = true → b.getD 36 0 % 16 = 0 ∧ s.m.ctl.noAttest = false) →
    (req = 0xE5 → (s.m.ctl.session ss).isSome = true ∧ s.m.ctl.secured ss = false) →
    (req = 0xE8 ∨ req = 0xE9 ∨ req = 0xEC → s.m.ctl.secured ss = true) →
    Completes i s (fun t => ∃ body, t.m.ctl.out = s.m.ctl.out ++ [.spdm rsp body]
      ∧ (rsp = 0x04 → t.m.ctl.sec.spdm = 1 ∧ body.take 4 = [0, 1, 0x00, 0x13])
      ∧ (rsp = 0x61 → t.m.ctl.sec.spdm = 2 ∧ body.take 8 = [0, 18, 0, 0] ++ le 4 spdmFlags)
      ∧ (rsp = 0x63 → t.m.ctl.sec.spdm = 3 ∧ body.take algsSelected.length = algsSelected)
      ∧ (rsp = 0x01 → ∃ tail, body = 1 :: Config.sha384 s.m.ctl.certChain ++ tail)
      ∧ (rsp = 0x02 → ∃ tail, let off := fieldAt b 4 2
          let part := (s.m.ctl.certChain.drop off).take (fieldAt b 6 2)
          body = 0 :: le 2 part.length ++ le 2 (s.m.ctl.certChain.length - off - part.length) ++ part ++ tail))) ∧
  (∀ (i : Instr) (req ss : Nat) (b : List Nat) (s : State), s.m.ctl.doeUp = true →
    (i, req) ∈ ([(.getVersion b, 0x84), (.getCapabilities b, 0xE1), (.negotiateAlgorithms b, 0xE3), (.getDigests b, 0x81),
      (.getCertificate b, 0x82), (.challenge b, 0x83), (.getMeasurements b, 0xE0), (.keyExchange b, 0xE4), (.finish ss b, 0xE5),
      (.keyUpdate ss b, 0xE9), (.heartbeat ss b, 0xE8), (.endSession ss b, 0xEC), (.vendorDefinedRequest b, 0xFE)] : List (Instr × Nat)) →
    b.getD 1 0 ≠ req ∨ b.getD 0 0 ≠ (if req = 0x84 then 0x10 else 0x13) →
    Completes i s (fun t => t.m = { s.m with ctl := { s.m.ctl with
      out := s.m.ctl.out ++ [.spdm 0x7F [if b.getD 1 0 ≠ req then 0x07 else 0x41]] } })) ∧
  (∀ (b : List Nat) (s : State), s.m.ctl.doeUp = true → 3 ≤ s.m.ctl.sec.spdm → b.getD 3 0 = 0xFF →
    s.m.ctl.noAttest = false → s.m.ctl.sec.images.length = 6 →
    Completes (.getMeasurements b) s (fun t => ∃ r tail, t.m.ctl.out = s.m.ctl.out ++ [r]
      ∧ (Config.spdmAccepts 0xE0 b = true → spdmForm 0xE0 b = true → (bit (b.getD 2 0) 0 = true → b.getD 36 0 % 16 = 0) →
          r = .spdm 0x60 (s.m.ctl.sec.images.flatten ++ Config.sha384 s.m.ctl.sec.manifest
          ++ Config.sha384 s.m.ctl.recordBytes ++ Config.sha384 [s.m.ctl.openedByte] ++ tail))
      ∧ (Config.spdmAccepts 0xE0 b = false → (∃ e, r = .spdm 0x7F [e]) ∧ t.m.ctl.sec = s.m.ctl.sec))) ∧
  (∀ (i : Instr) (code : Nat) (b : List Nat) (s : State), s.m.ctl.doeUp = true → s.m.ctl.noAttest = true → 3 ≤ s.m.ctl.sec.spdm →
    (i, code) ∈ ([(.challenge b, 0x83), (.keyExchange b, 0xE4), (.getMeasurements b, 0xE0), (.vendorDefinedRequest b, 0xFE)]
      : List (Instr × Nat)) →
    (code = 0xE0 → bit (b.getD 2 0) 0 = true) → (code = 0xFE → reportRequest b = true) →
    Completes i s (fun t => (∃ e, t.m.ctl.out = s.m.ctl.out ++ [.spdm 0x7F [e]] ∧ (Config.spdmAccepts code b = true →
        spdmForm code b = true → (code = 0x83 → b.getD 2 0 = 0) → (code = 0xE4 → b.getD 3 0 = 0) → (code = 0xE0 → b.getD 36 0 % 16 = 0) → e = 5))
      ∧ t.m.ctl.sec = s.m.ctl.sec ∧ t.m.ctl.regs = s.m.ctl.regs ∧ s.sameMem t))

/-- R459, R457: a session opens with the key exchange, is secured by FINISH and ends at its end, where SPDM accepts the message, and
not otherwise; a secured session sets the keys of an IDE stream. A report is signed with the next leaf, which is used up, and a second
one within a second is refused.
Besides the rules, the model's choices and readings of log entries 30, 31, 33 and 209. -/
def Obligations.SessionsKeysAndReport : Prop :=
  (∀ (b : List Nat) (s : State), s.m.ctl.doeUp = true → 3 ≤ s.m.ctl.sec.spdm → s.m.ctl.noAttest = false →
    Completes (.keyExchange b) s (fun t => (∀ id, id ≠ fieldAt b 4 2 → t.m.ctl.secured id = s.m.ctl.secured id) ∧ s.sameMem t
      ∧ (Config.spdmAccepts 0xE4 b = true → spdmForm 0xE4 b = true → b.getD 3 0 = 0 → (t.m.ctl.session (fieldAt b 4 2)).isSome = true ∧ t.m.ctl.secured (fieldAt b 4 2) = false)
      ∧ (Config.spdmAccepts 0xE4 b = false → t.m.ctl.sec = s.m.ctl.sec))) ∧
  (∀ (id : Nat) (b : List Nat) (s : State), s.m.ctl.doeUp = true → 3 ≤ s.m.ctl.sec.spdm →
    (s.m.ctl.session id).isSome = true → s.m.ctl.secured id = false →
    Completes (.finish id b) s (fun t => t.m.ctl.secured id = (spdmForm 0xE5 b && Config.spdmAccepts 0xE5 b)
      ∧ (∀ x, x ≠ id → t.m.ctl.secured x = s.m.ctl.secured x) ∧ s.sameMem t)) ∧
  (∀ (id : Nat) (b : List Nat) (s : State), s.m.ctl.doeUp = true → 3 ≤ s.m.ctl.sec.spdm → s.m.ctl.secured id = true →
    Completes (.keyUpdate id b) s (fun t => t.m.ctl.secured id = true ∧ (t.m.ctl.session id).map (·.keyGen)
        = (s.m.ctl.session id).map (fun x => if spdmForm 0xE9 b && Config.spdmAccepts 0xE9 b then x.keyGen + 1 else x.keyGen) ∧ s.sameMem t)) ∧
  (∀ (id : Nat) (b : List Nat) (s : State), s.m.ctl.doeUp = true → 3 ≤ s.m.ctl.sec.spdm → s.m.ctl.secured id = true →
    Completes (.endSession id b) s (fun t => (Config.spdmAccepts 0xEC b = true → spdmForm 0xEC b = true → t.m.ctl.session id = none)
      ∧ (Config.spdmAccepts 0xEC b = false → t.m.ctl.sec = s.m.ctl.sec)
      ∧ (∀ x, x ≠ id → t.m.ctl.secured x = s.m.ctl.secured x) ∧ s.sameMem t)) ∧
  (∀ (id stream : Nat) (s : State), s.m.ctl.doeUp = true →
    Completes (.ideKeySet id stream) s (fun t => t.m.ctl.sec.sessions = s.m.ctl.sec.sessions ∧ s.sameMem t
      ∧ (s.m.ctl.secured id = true → t.m.ctl.sec.ide.contains stream = true)
      ∧ (s.m.ctl.secured id = false → t.m.ctl.sec.ide = s.m.ctl.sec.ide))) ∧
  (∀ (b : List Nat) (s : State), s.m.ctl.doeUp = true → 3 ≤ s.m.ctl.sec.spdm → reportRequest b = true → s.m.ctl.noAttest = false →
    Completes (.vendorDefinedRequest b) s (fun t => t.m.ctl.dies = s.m.ctl.dies ∧ s.sameMem t
      ∧ (Config.spdmAccepts 0xFE b = false → t.m.ctl.sec = s.m.ctl.sec ∧ ∃ e, t.m.ctl.out = s.m.ctl.out ++ [.spdm 0x7F [e]])
      ∧ (Config.spdmAccepts 0xFE b = true → spdmForm 0xFE b = true → s.m.ctl.tooSoon (s.m.ctl.stamp dieHD).1 = true →
          t.m.ctl.sec = s.m.ctl.sec ∧ t.m.ctl.out = s.m.ctl.out ++ [.spdm 0x7F [3]])
      ∧ (Config.spdmAccepts 0xFE b = true → spdmForm 0xFE b = true → s.m.ctl.tooSoon (s.m.ctl.stamp dieHD).1 = false →
          (s.m.ctl.sec.leaf + 1 < s.m.ctl.sec.record.reservedEnd → t.m.ctl.sec.leaf = s.m.ctl.sec.leaf + 1)
          ∧ t.m.ctl.sec.lastReport = some (s.m.ctl.stamp dieHD).1
          ∧ ∃ body rest, .spdm 0x7E (body ++ rest) ∈ t.m.ctl.out ∧ body.length = 256 ∧ body.take 4 = [0x52, 0x50, 0x54, 0x30]
              ∧ bytesAt body 8 32 = bytesAt b 14 32)))

/-! ## Fjoam links (section 12) -/

/-- R349 to R351, Table 12-10: the events of bring-up; four failed attempts end in DOWN with TRAIN_FAIL or RETRAIN_FAIL; an IDENT
that names another partner than R323 gives ends in WIRING; a matching one makes the link ACTIVE at the width that works. -/
def Obligations.LinkBringUp : Prop :=
  (∀ (c : Ctl) (x e : Nat), (c.train x e).lkState x = 1 ∧ ((c.train x e).link x).event = e ∧ ((c.train x e).link x).fails = 0
    ∧ (c.train x e).rd Fld.lk_LK_TRAINS_TRAININGS x = min (c.rd Fld.lk_LK_TRAINS_TRAININGS x + 1) 65535
    ∧ (∀ y, y ≠ x → (c.train x e).link y = c.link y ∧ (c.train x e).lkState y = c.lkState y)) ∧
  (∀ (x e : Nat) (i : Instr) (s : State), s.m.ctl.linkAt x e = true →
    (i, e) ∈ ([(.linkPllLock x, 0), (.partnerSignalDetect x, 1), (.equalisationDone x, 2)] : List (Instr × Nat)) →
    Completes i s (fun t => (t.m.ctl.link x).event = e + 1 ∧ t.m.ctl.regs = s.m.ctl.regs
      ∧ (∀ y, y ≠ x → t.m.ctl.link y = s.m.ctl.link y) ∧ s.sameMem t)) ∧
  (∀ (x : Nat) (p q : Bool) (s : State), s.m.ctl.linkAt x 3 = true → p || q →
    Completes (.codewordLock x p q) s (fun t => (t.m.ctl.link x).event = 4 ∧ (t.m.ctl.link x).pairs = [p, q]
      ∧ (∃ b, t.m.ctl.out = s.m.ctl.out ++ [.flit x b]) ∧ (s.m.ctl.lkState x = 3 → t.m.ctl.regs = s.m.ctl.regs)
      ∧ (s.m.ctl.lkState x = 1 → (∀ tc < 4, (t.m.ctl.allot x).getD tc 0 = (s.m.ctl.link x).cred.getD tc 0 % 1024)
          ∧ ∀ f i j, i ≠ x ∨ f.blk ≠ .lk → t.m.ctl.rd f i j = s.m.ctl.rd f i j) ∧ s.sameMem t)) ∧
  (∀ (x : Nat) (s : State), s.m.ctl.lkState x = 1 ∨ s.m.ctl.lkState x = 3 → 2 ≤ (s.m.ctl.link x).event →
    Completes (.trainingAttemptFail x) s (fun t => s.sameMem t
      ∧ ((s.m.ctl.link x).fails < 3 → t.m.ctl.lkState x = s.m.ctl.lkState x ∧ (t.m.ctl.link x).event = 2
          ∧ (t.m.ctl.link x).fails = (s.m.ctl.link x).fails + 1 ∧ (t.m.ctl.link x).kept = (s.m.ctl.link x).kept)
      ∧ (3 ≤ (s.m.ctl.link x).fails → t.m.ctl.lkState x = 4
          ∧ t.m.ctl.rd Fld.lk_LK_STATE_CAUSE x = (if s.m.ctl.lkState x = 3 then 5 else 2) ∧ (t.m.ctl.link x).kept = []))) ∧
  (∀ (x w : Nat) (b : List Nat) (s : State), s.m.ctl.linkAt x 4 = true → s.m.ctl.lkState x = 1 → ctrlOk b 3 22 = true →
    b.getD 2 0 < 4 → b.getD 3 0 = 0 →
    fieldAt b 16 4 = 0x00040000 →
    widthOf ((s.m.ctl.link x).pairs.getD 0 false && bit (b.getD 2 0) 0) ((s.m.ctl.link x).pairs.getD 1 false && bit (b.getD 2 0) 1) = w →
    w ≠ 3 →
    Completes (.ident x b) s (fun t => s.sameMem t
      ∧ (s.m.ctl.partner x = some (fieldAt b 4 2, b.getD 1 0) → t.m.ctl.lkState x = 2 ∧ t.m.ctl.rd Fld.lk_LK_STATE_WIDTH x = w
          ∧ t.m.ctl.on Fld.lk_LK_PEER_VALID x = true ∧ (t.m.ctl.link x).txSeq = 0 ∧ (t.m.ctl.link x).rxExp = 0
          ∧ (t.m.ctl.link x).peerCred = [fieldAt b 8 2, fieldAt b 10 2, fieldAt b 12 2, fieldAt b 14 2]
          ∧ (∀ y, y ≠ x → t.m.ctl.link y = s.m.ctl.link y))
      ∧ (s.m.ctl.partner x ≠ some (fieldAt b 4 2, b.getD 1 0) → t.m.ctl.lkState x = 4 ∧ t.m.ctl.rd Fld.lk_LK_STATE_CAUSE x = 3)))

/-- R352: what makes an ACTIVE link retrain keeps its kept flits, its numbers and its credit counts; at the end it is ACTIVE and
resends from the partner's expected number. R353: DOWN_NOTICE. R354, R356: an IDENT while ACTIVE is a violation; windows end.
Besides the rules, the model's choices and readings of log entries 53 and 59. -/
def Obligations.LinkRetrainAndDown : Prop :=
  (∀ (i : Instr) (x lane : Nat) (b : List Nat) (s : State), s.m.ctl.active x = true →
    (i = .lossOfSignal x lane ∧ lane < 4 ∧ s.m.ctl.usesPair x (lane / 2) = true) ∨ (i = .retrainReq x b ∧ ctrlOk b 5 1 = true) →
    Completes i s (fun t => t.m.ctl.lkState x = 3 ∧ (t.m.ctl.link x).event = 2 ∧ (t.m.ctl.link x).fails = 0
      ∧ t.m.ctl.rd Fld.lk_LK_TRAINS_RETRAINS x = min (s.m.ctl.rd Fld.lk_LK_TRAINS_RETRAINS x + 1) 65535
      ∧ (t.m.ctl.link x).kept = (s.m.ctl.link x).kept ∧ (t.m.ctl.link x).txSeq = (s.m.ctl.link x).txSeq
      ∧ (t.m.ctl.link x).rxExp = (s.m.ctl.link x).rxExp ∧ (t.m.ctl.link x).sent = (s.m.ctl.link x).sent
      ∧ (t.m.ctl.link x).peerFreed = (s.m.ctl.link x).peerFreed ∧ (∀ y, y ≠ x → t.m.ctl.link y = s.m.ctl.link y) ∧ s.sameMem t)) ∧
  (∀ (x : Nat) (p q : Bool) (s : State), s.m.ctl.lkState x = 3 → (s.m.ctl.link x).event = 5 → p || q →
    Completes (.retrainDone x p q) s (fun t => t.m.ctl.lkState x = 2 ∧ (t.m.ctl.link x).kept = (s.m.ctl.link x).kept
      ∧ (t.m.ctl.link x).resend = (s.m.ctl.link x).kept.dropWhile (fun k => k.1 != (s.m.ctl.link x).peerSeq) ∧ s.sameMem t)) ∧
  (∀ (x : Nat) (b : List Nat) (s : State), s.m.ctl.lkState x = 1 ∨ s.m.ctl.lkState x = 2 ∨ s.m.ctl.lkState x = 3 → ctrlOk b 6 2 = true →
    1 ≤ b.getD 1 0 → b.getD 1 0 ≤ 6 →
    Completes (.downNotice x b) s (fun t => t.m.ctl.lkState x = 4 ∧ t.m.ctl.rd Fld.lk_LK_STATE_CAUSE x = 6
      ∧ t.m.ctl.rd Fld.lk_LK_STATE_WIDTH x = 3 ∧ (t.m.ctl.link x).kept = [] ∧ s.sameMem t
      ∧ ((s.m.ctl.link x).kept = [] → (s.m.ctl.link x).queues.flatten = [] → s.m.ctl.hasRoom 0 →
          s.m.ctl.Posted t.m.ctl 0x0503 0 (linkDie x) (x % 9) [6]))) ∧
  (∀ (x : Nat) (b : List Nat) (s : State), s.m.ctl.active x = true →
    s.m.ctl.rd Fld.lk_VIOL_WIN_COUNT x + 1 < (s.m.ctl.link x).violMax → s.m.ctl.rd Fld.lk_VIOL_WIN_COUNT x < 65535 →
    Completes (.ident x b) s (fun t => t.m.ctl.lkState x = 2
      ∧ t.m.ctl.rd Fld.lk_VIOL_CNT_COUNT x = min (s.m.ctl.rd Fld.lk_VIOL_CNT_COUNT x + 1) (2 ^ 32 - 1)
      ∧ t.m.ctl.rd Fld.lk_VIOL_WIN_COUNT x = s.m.ctl.rd Fld.lk_VIOL_WIN_COUNT x + 1 ∧ t.m.ctl.rd Fld.lk_VIOL_WIN_LAST_RULE x = 6
      ∧ s.sameMem t)) ∧
  (∀ (x : Nat) (s : State), Completes (.violationWindowEnd x) s (fun t => t.m.ctl.rd Fld.lk_VIOL_WIN_COUNT x = 0
      ∧ t.m.ctl.rd Fld.lk_VIOL_CNT_COUNT x = s.m.ctl.rd Fld.lk_VIOL_CNT_COUNT x ∧ t.m.ctl.links = s.m.ctl.links ∧ s.sameMem t)) ∧
  (∀ (x : Nat) (b : List Nat) (s : State), s.m.ctl.active x = true →
    Completes (.violation x b) s (fun t =>
      t.m.ctl.rd Fld.lk_VIOL_RX_CNT_COUNT x = min (s.m.ctl.rd Fld.lk_VIOL_RX_CNT_COUNT x + 1) (2 ^ 32 - 1)
      ∧ t.m.ctl.rd Fld.lk_VIOL_CNT_COUNT x = s.m.ctl.rd Fld.lk_VIOL_CNT_COUNT x ∧ t.m.ctl.links = s.m.ctl.links ∧ s.sameMem t))

/-- R326 to R328: a flit in order is accepted and takes a buffer, a flit that fails is counted and discarded, a duplicate is
discarded silently; `ACK` lets kept flits go. R327: NAK and the replay timeout. R334: TC0 goes first, then a control message, an idle
flit last; R329: an ECHO takes its stamps as it is sent.
Besides the rules, the model's choices and readings of log entries 51 and 59. -/
def Obligations.FlitsReceivedAndSent : Prop :=
  (∀ (x n tc : Nat) (b : List Nat) (s : State), s.m.ctl.active x = true → crc32c (padTo 252 b) = fieldAt b 252 4 → b.length = 256 →
    bitsOf (fieldAt b 0 4) 24 2 = 1 → bitsOf (fieldAt b 0 4) 26 2 = tc → bit (fieldAt b 0 4) 28 = true → bit (fieldAt b 0 4) 29 = true →
    bitsOf (fieldAt b 0 4) 0 12 = (s.m.ctl.link x).rxExp → fieldAt b 10 2 ≤ 212 →
    (s.m.ctl.link x).asm.getD tc none = none → (s.m.ctl.link x).ready.length = 4 →
    (s.m.ctl.link x).used.getD tc 0 < (s.m.ctl.allot x).getD tc 0 →
    ((s.m.ctl.link x).txSeq + 4096 - (bitsOf (fieldAt b 0 4) 12 12 + 1) % 4096) % 4096 ≤ (s.m.ctl.link x).kept.length →
    Completes (.flitReceive x b n false) s (fun t => (t.m.ctl.link x).rxExp = ((s.m.ctl.link x).rxExp + 1) % 4096
      ∧ (t.m.ctl.link x).ready.getD tc [] = (s.m.ctl.link x).ready.getD tc [] ++ [⟨bytesAt b 8 244, [(s.m.ctl.link x).rxExp]⟩]
      ∧ t.m.ctl.rd Fld.lk_RX_FLITS x = (s.m.ctl.rd Fld.lk_RX_FLITS x + 1) % 2 ^ 64
      ∧ (t.m.ctl.link x).kept.length = ((s.m.ctl.link x).txSeq + 4096 - (bitsOf (fieldAt b 0 4) 12 12 + 1) % 4096) % 4096
      ∧ (∀ y, y ≠ x → t.m.ctl.link y = s.m.ctl.link y) ∧ s.sameMem t)) ∧
  (∀ (x n : Nat) (b : List Nat) (s : State), s.m.ctl.active x = true →
    Completes (.flitReceive x b n true) s (fun t =>
      t.m.ctl.rd Fld.lk_FEC_UNCORR_COUNT x = min (s.m.ctl.rd Fld.lk_FEC_UNCORR_COUNT x + 1) (2 ^ 32 - 1)
      ∧ (t.m.ctl.link x).rxExp = (s.m.ctl.link x).rxExp ∧ (t.m.ctl.link x).ready = (s.m.ctl.link x).ready
      ∧ (t.m.ctl.link x).kept = (s.m.ctl.link x).kept ∧ s.sameMem t)) ∧
  (∀ (x n : Nat) (b : List Nat) (s : State), s.m.ctl.active x = true → crc32c (padTo 252 b) = fieldAt b 252 4 →
    bitsOf (fieldAt b 0 4) 24 2 = 1 → (s.m.ctl.link x).afterBad = false → (s.m.ctl.link x).redo = [] → (s.m.ctl.link x).rxExp < 4096 →
    3585 ≤ (bitsOf (fieldAt b 0 4) 0 12 + 4096 - (s.m.ctl.link x).rxExp) % 4096 →
    ((s.m.ctl.link x).txSeq + 4096 - (bitsOf (fieldAt b 0 4) 12 12 + 1) % 4096) % 4096 ≤ (s.m.ctl.link x).kept.length →
    Completes (.flitReceive x b n false) s (fun t => (t.m.ctl.link x).rxExp = (s.m.ctl.link x).rxExp
      ∧ (t.m.ctl.link x).ready = (s.m.ctl.link x).ready ∧ (t.m.ctl.link x).ctrl = (s.m.ctl.link x).ctrl
      ∧ t.m.ctl.rd Fld.lk_RX_FLITS x = s.m.ctl.rd Fld.lk_RX_FLITS x ∧ s.sameMem t)) ∧
  (∀ (x : Nat) (b : List Nat) (s : State), s.m.ctl.active x = true → ctrlOk b 1 3 = true → fieldAt b 1 2 < 4096 →
    Completes (.nak x b) s (fun t => t.m.ctl.regs = s.m.ctl.regs ∧ s.sameMem t
      ∧ t.m.ctl.link x = { s.m.ctl.link x with resend := (s.m.ctl.link x).kept.dropWhile (fun k => k.1 != fieldAt b 1 2) })) ∧
  (∀ (x : Nat) (s : State), s.m.ctl.active x = true →
    Completes (.replayTimeout x) s (fun t => t.m.ctl.regs = s.m.ctl.regs ∧ s.sameMem t
      ∧ t.m.ctl.link x = { s.m.ctl.link x with resend := (s.m.ctl.link x).kept })) ∧
  (∀ (x : Nat) (s : State), s.m.ctl.active x = true → s.m.ctl.host.relay = [] → s.m.ctl.on Fld.tr_TR_FWD_FWD_EN = false →
    (s.m.ctl.link x).resend = [] →
    Completes (.flitTransmit x) s (fun t => s.sameMem t
      ∧ (∀ f q, (s.m.ctl.link x).queues = (f :: q) :: (s.m.ctl.link x).queues.tail → (s.m.ctl.link x).ready? 0 = true →
          t.m.ctl.out = s.m.ctl.out ++ [.flit x (flitBytes (s.m.ctl.link x).txSeq (s.m.ctl.link x).ackSeq 1 0 f.first f.last
            (s.m.ctl.link x).freed f.bytes)]
          ∧ (t.m.ctl.link x).kept = (s.m.ctl.link x).kept ++ [((s.m.ctl.link x).txSeq, f)]
          ∧ (t.m.ctl.link x).txSeq = ((s.m.ctl.link x).txSeq + 1) % 4096)
      ∧ ((∀ tc < 4, (s.m.ctl.link x).ready? tc = false) → (s.m.ctl.link x).turn < 4 → (s.m.ctl.link x).ctrl = [] → t.m.ctl.links = s.m.ctl.links ∧
          t.m.ctl.out = s.m.ctl.out ++ [.flit x (flitBytes (s.m.ctl.link x).txSeq (s.m.ctl.link x).ackSeq 0 0 false false
            (s.m.ctl.link x).freed [])])
      ∧ (∀ msg l, (s.m.ctl.link x).ready? 0 = false → (s.m.ctl.link x).ctrl = msg :: l → t.m.ctl.regs = s.m.ctl.regs
          ∧ t.m.ctl.link x = { s.m.ctl.link x with ctrl := l }
          ∧ t.m.ctl.out = s.m.ctl.out ++ [.flit x ((s.m.ctl.link x).ctrlFlit (if msg = [4] then
              [4, 0, 0, 0] ++ le 8 (s.m.ctl.stamp (linkDie x)).1 ++ le 8 (s.m.ctl.link x).echoTx ++ le 8 (s.m.ctl.link x).echoAt
            else msg))])))

/-- R329, R486: ECHO messages. R337, R332: a frame for this module is delivered once its PCRC holds, one with 40 hops is discarded.
R354: a malformed header is a violation. R326, R332: TC0 frames wait for one that is sent again. R340: a held TC0 frame leaves when a link of its set is ACTIVE, and not before.
Besides the rules, the model's choices and readings of log entries 55, 58, 59 and 174. -/
def Obligations.EchoFramesAndHeldTc0 : Prop :=
  (∀ (x : Nat) (b : List Nat) (s : State), s.m.ctl.active x = true → ctrlOk b 4 28 = true → bytesAt b 1 3 = [0, 0, 0] →
    Completes (.echo x b) s (fun t => (t.m.ctl.link x).echoTx = fieldAt b 4 8
      ∧ (t.m.ctl.link x).echoAt = (s.m.ctl.stamp (linkDie x)).1 ∧ (t.m.ctl.link x).kept = (s.m.ctl.link x).kept
      ∧ (∀ y, y ≠ x → t.m.ctl.link y = s.m.ctl.link y) ∧ s.sameMem t)) ∧
  (∀ (x : Nat) (s : State), s.m.ctl.active x = true →
    Completes (.echoSendTick x) s (fun t => t.m.ctl.regs = s.m.ctl.regs ∧ (t.m.ctl.link x).answered = []
      ∧ (t.m.ctl.link x).ctrl = (s.m.ctl.link x).ctrl ++ [[4]] ∧ s.sameMem t)) ∧
  (∀ (x tc : Nat) (a : RxAsm) (l : List RxAsm) (s : State), (s.m.ctl.link x).ready.getD tc [] = a :: l → (s.m.ctl.link x).ready.length = 4 →
    tc < 4 → s.m.ctl.headerOk a.bytes tc = true → tc ≠ 0 → crc32c (parseFrame a.bytes).payload = (parseFrame a.bytes).pcrc →
    Completes (.frameReceive x tc) s (fun t => (t.m.ctl.link x).ready.getD tc [] = l ∧ s.sameMem t
      ∧ (40 ≤ (parseFrame a.bytes).hop + 1 → t.m.ctl.out = s.m.ctl.out
          ∧ t.m.ctl.rd Fld.ls_ROUTE_LOOP_CNT_COUNT = min (s.m.ctl.rd Fld.ls_ROUTE_LOOP_CNT_COUNT + 1) (2 ^ 32 - 1))
      ∧ ((parseFrame a.bytes).hop + 1 < 40 → (parseFrame a.bytes).dst = s.m.ctl.coord →
          t.m.ctl.out = s.m.ctl.out ++ [.peer x ({ parseFrame a.bytes with hop := (parseFrame a.bytes).hop + 1 } : Frame).bytes]
          ∧ t.m.ctl.regs = s.m.ctl.regs))) ∧
  (∀ (x tc : Nat) (a : RxAsm) (l : List RxAsm) (s : State), (s.m.ctl.link x).ready.getD tc [] = a :: l → s.m.ctl.headerOk a.bytes tc = false →
    (tc = 0 → (s.m.ctl.link x).again = false) →
    s.m.ctl.rd Fld.lk_VIOL_WIN_COUNT x + 1 < (s.m.ctl.link x).violMax → s.m.ctl.rd Fld.lk_VIOL_WIN_COUNT x < 65535 →
    Completes (.frameReceive x tc) s (fun t => t.m.ctl.rd Fld.lk_VIOL_WIN_LAST_RULE x = 2
      ∧ t.m.ctl.rd Fld.lk_VIOL_CNT_COUNT x = min (s.m.ctl.rd Fld.lk_VIOL_CNT_COUNT x + 1) (2 ^ 32 - 1)
      ∧ t.m.ctl.out = s.m.ctl.out ∧ s.sameMem t)) ∧
  (∀ (x : Nat) (s : State), (s.m.ctl.link x).again = true → exec (.frameReceive x 0) s = .next s) ∧
  (∀ (h : HeldFrame) (l : List HeldFrame) (s : State), s.m.ctl.held = h :: l →
    (s.m.ctl.pick (s.m.ctl.routeSet h.frame) h.frame.psel).isSome = true →
    Completes .tc0HeldRelease s (fun t => t.m.ctl.held = l ∧ t.m.ctl.regs = s.m.ctl.regs ∧ t.m.ctl.out = s.m.ctl.out ∧ s.sameMem t)) ∧
  (∀ s : State, (∀ h ∈ s.m.ctl.held, s.m.ctl.pick (s.m.ctl.routeSet h.frame) h.frame.psel = none) → exec .tc0HeldRelease s = .next s)

/-! ## Mersene's commands (sections 15 and 16) -/

/-- R406, R420, R422: Mersene takes the message that waited longest; one that fails a check is answered at once and changes neither
job nor dies; while the job is `SECURE_ONLY`, a host outside an IDE stream is refused.
Besides the rules, the model's choices and readings of log entries 68 and 69. -/
def Obligations.MessagesTakenInOrder : Prop :=
  (∀ (ch : Nat) (rest : List Nat) (s : State), s.m.ctl.mayTake = true → s.m.ctl.host.waiting = ch :: rest →
    s.m.ctl.refuses (s.m.ctl.messageOf ch) = none →
    Completes .messageTake s (fun t => t.m.ctl.host.waiting = rest ∧ t.m.ctl.host.taken = s.m.ctl.host.taken ++ [s.m.ctl.messageOf ch]
      ∧ ((s.m.ctl.messageOf ch).isLong = true → t.m.ctl.host.long = some (s.m.ctl.messageOf ch))
      ∧ t.m.ctl.regs = s.m.ctl.regs ∧ t.m.ctl.dies = s.m.ctl.dies ∧ t.m.ctl.job = s.m.ctl.job ∧ s.sameMem t)) ∧
  (∀ (ch st : Nat) (rest : List Nat) (s : State), s.m.ctl.mayTake = true → s.m.ctl.host.waiting = ch :: rest →
    s.m.ctl.refuses (s.m.ctl.messageOf ch) = some st → (s.m.ctl.messageOf ch).kind ≠ 4 →
    Completes .messageTake s (fun t => t.m.ctl.host.waiting = rest ∧ t.m.ctl.host.taken = s.m.ctl.host.taken
      ∧ t.m.ctl.on Fld.mb_MB_CTRL_DONE ch = true ∧ t.m.ctl.busy ch = false
      ∧ (s.m.ctl.host.releasing.contains ch = false → t.m.ctl.mbWord ch 0 % 65536 = st)
      ∧ t.m.ctl.dies = s.m.ctl.dies ∧ t.m.ctl.job = s.m.ctl.job ∧ t.m.ctl.gen = s.m.ctl.gen ∧ t.m.ctl.sec = s.m.ctl.sec
      ∧ t.m.ctl.links = s.m.ctl.links ∧ s.sameMem t)) ∧
  (∀ (m : Message) (c : Ctl), c.job.secureOnly = true → m.kind = 1 → bit m.stamp 4 = false → m.cmd ≠ 1 → m.cmd ≠ 0x70 →
    c.refuses m = some 0x10 ∨ c.refuses m = some 0x11) ∧
  (∀ s : State, s.m.ctl.host.waiting = [] ∨ s.m.ctl.stage = 1 → exec .messageTake s = .next s)

/-- R423 to R429: PING; JOB_SETUP makes the job, with the seed in every die, and is refused while memory is not ready; JOB_END unloads
all Lessons; STEP_RUN asks for a CHECK group and a Timetable; JOB_STOP on a held module changes nothing.
Besides the rules, the model's choices and readings of log entries 73, 74 and 75. -/
def Obligations.JobLifeCommands : Prop :=
  (∀ (ch : Nat) (x : Message) (s : State), s.m.ctl.takenCmd ch 0x0001 = some x →
    Completes (.ping ch) s (fun t => s.m.ctl.Answered t.m.ctl x 0 ∧ t.m.ctl.dies = s.m.ctl.dies ∧ s.sameMem t
      ∧ (s.m.ctl.host.releasing.contains x.chan = false → t.m.ctl.mbWord x.chan 2 = s.m.ctl.rd Fld.st_ST_FW_VERSION % 2 ^ 32
          ∧ t.m.ctl.mbWord x.chan 4 = s.m.ctl.sec.moduleId % 2 ^ 32 ∧ t.m.ctl.mbWord x.chan 6 = s.m.ctl.coord % 2 ^ 32))) ∧
  (∀ (ch : Nat) (x : Message) (s : State), s.m.ctl.takenCmd ch 0x0010 = some x → x.amend = false → s.m.ctl.setupCheck x = 0 →
    Completes (.jobSetup ch) s (fun t => s.m.ctl.Answered t.m.ctl x 0 ∧ t.m.ctl.stage = 3 ∧ t.m.ctl.job.inJob = true
      ∧ t.m.ctl.job.id = x.w64 2 ∧ t.m.ctl.job.seed = x.w64 4 ∧ t.m.ctl.job.dpSize = x.dpSize ∧ t.m.ctl.job.step = 0
      ∧ t.m.ctl.job.attempt = 0 ∧ t.m.ctl.job.held = true ∧ t.m.ctl.job.policy = applyPairs 1 policyDefaults x.pairs.1
      ∧ t.m.ctl.rd Fld.fl_FL_GEN_GIB = x.genGib % 2 ^ Fld.fl_FL_GEN_GIB.width
      ∧ (∀ d < 8, t.m.ctl.rd Fld.gen_GEN_SEED_SEED_LO d = x.w64 4 % 2 ^ 64 ∧ t.m.ctl.on Fld.gen_GEN_STATUS_SEEDED d = true
          ∧ (t.m.ctl.die d).streams = [] ∧ (t.m.ctl.die d).plan = [] ∧ t.m.ctl.rd Fld.chk_CHK_STEP d = 0
          ∧ t.m.ctl.rd Fld.chk_CHK_RUN_NONFINITE_RUN d = 0 ∧ (t.m.ctl.die d).lesson = (s.m.ctl.die d).lesson))) ∧
  (∀ (ch : Nat) (x : Message) (s : State), s.m.ctl.takenCmd ch 0x0010 = some x → x.amend = false → x.kind ≠ 4 →
    s.m.ctl.memReady = false →
    Completes (.jobSetup ch) s (fun t => s.m.ctl.Answered t.m.ctl x 0x19 ∧ t.m.ctl.job = s.m.ctl.job ∧ t.m.ctl.dies = s.m.ctl.dies
      ∧ t.m.ctl.gen = s.m.ctl.gen ∧ s.sameMem t)) ∧
  (∀ (ch : Nat) (x : Message) (s : State), s.m.ctl.takenCmd ch 0x0011 = some x →
    Completes (.jobEnd ch) s (fun t => s.m.ctl.Answered t.m.ctl x 0 ∧ t.m.ctl.stage = 2 ∧ t.m.ctl.job.inJob = false
      ∧ t.m.ctl.job.roll.groups = [] ∧ t.m.ctl.job.timetable = none ∧ t.m.ctl.job.secureOnly = false ∧ t.m.ctl.job.seed = 0
      ∧ t.m.ctl.gen.slots = s.m.ctl.gen.slots ∧ t.m.ctl.coord = s.m.ctl.coord
      ∧ (∀ d < 8, (t.m.ctl.die d).lesson = none ∧ t.m.ctl.rd Fld.ln_LN_CTRL_ENABLE d = 0
          ∧ t.m.ctl.on Fld.gen_GEN_STATUS_SEEDED d = false ∧ ∀ q < 64, t.m.ctl.on Fld.que_Q_CTRL_ENABLE d q = false) ∧ s.sameMem t)) ∧
  (∀ (ch : Nat) (x : Message) (s : State), s.m.ctl.takenCmd ch 0x0012 = some x → x.kind ≠ 4 →
    Completes (.stepRun ch) s (fun t => t.m.ctl.dies = s.m.ctl.dies ∧ s.sameMem t
      ∧ (let check := s.m.ctl.job.roll.groups.any (fun g => g.kind == 4)
         let table := s.m.ctl.job.timetable.isSome || s.m.ctl.job.timetableNext.isSome
         (check = false → s.m.ctl.Answered t.m.ctl x 0x1E ∧ t.m.ctl.job = s.m.ctl.job)
         ∧ (check = true → table = false → s.m.ctl.Answered t.m.ctl x 0x41 ∧ t.m.ctl.job = s.m.ctl.job)
         ∧ (check = true → table = true → x.w 2 = 0 → s.m.ctl.Answered t.m.ctl x 0 ∧ t.m.ctl.job = s.m.ctl.job)
         ∧ (check = true → table = true → x.w 2 ≠ 0 → s.m.ctl.Answered t.m.ctl x 0 ∧ t.m.ctl.stage = 3
             ∧ t.m.ctl.job = { s.m.ctl.job with held := false, runLeft := x.w 2 })))) ∧
  (∀ (ch : Nat) (x : Message) (s : State), s.m.ctl.takenCmd ch 0x0013 = some x → x.kind ≠ 4 →
    Completes (.jobStop ch) s (fun t => s.m.ctl.Answered t.m.ctl x 0 ∧ t.m.ctl.dies = s.m.ctl.dies ∧ s.sameMem t
      ∧ t.m.ctl.job = (if s.m.ctl.job.held then s.m.ctl.job else { s.m.ctl.job with stopReq := true })))

/-- R431, R239: a Lesson that passes its checks stands on its die, one that fails leaves the die as it was. R286: a Timetable that
passes the checks of Table 10-12 waits for its step, one that fails changes nothing. R187, R425: policy settings wait for the plan update, and all fail with one.
Besides the rules, the model's choices and readings of log entry 76. -/
def Obligations.LoadAndPolicyCommands : Prop :=
  (∀ (ch : Nat) (x : Message) (buf : BufData) (img : List Nat) (s : State), s.m.ctl.takenCmd ch 0x0020 = some x → x.kind ≠ 4 →
    x.w 5 ≤ 1536 * 1048576 → s.m.bufRead (x.buf 3) buf = some img →
    Completes (.lessonLoad ch buf) s (fun t =>
      let st := (s.m.ctl.countBuf (x.buf 3)).lessonCheck (x.w 2) (x.w 5) img
      s.m.ctl.Answered t.m.ctl x st
      ∧ (st = 0 → (t.m.ctl.die (x.w 2)).lesson.map (·.id) = some (imgId img) ∧ t.m.ctl.on Fld.ln_LN_CTRL_ENABLE (x.w 2) = true
          ∧ ∀ d, d ≠ x.w 2 → t.m.ctl.die d = s.m.ctl.die d)
      ∧ (st ≠ 0 → t.m.ctl.dies = s.m.ctl.dies ∧ s.sameMem t))) ∧
  (∀ (ch : Nat) (x : Message) (buf : BufData) (s : State), s.m.ctl.takenCmd ch 0x0020 = some x → 1536 * 1048576 < x.w 5 →
    Completes (.lessonLoad ch buf) s (fun t => s.m.ctl.Answered t.m.ctl x 0x18 ∧ t.m.ctl.dies = s.m.ctl.dies ∧ s.sameMem t)) ∧
  (∀ (ch : Nat) (x : Message) (buf : BufData) (img : List Nat) (s : State), s.m.ctl.takenCmd ch 0x0021 = some x → x.kind ≠ 4 →
    s.m.bufRead (x.buf 3) buf = some img →
    Completes (.timetableLoad ch buf) s (fun t => t.m.ctl.dies = s.m.ctl.dies ∧ s.sameMem t
      ∧ (let m := s.m.onCtl (·.countBuf (x.buf 3))
         let st := m.ttCheck img (x.w 5)
         s.m.ctl.Answered t.m.ctl x st
        ∧ (st = 0 ↔ ttFormatOk img (x.w 5) = true ∧ ttCrcOk img = true ∧ (∀ d < 8, m.ttLessonOk (timetableOf img) d = true)
            ∧ (timetableOf img).slotsFit = true ∧ (timetableOf img).buffersFit = true)
        ∧ (st = 0 → t.m.ctl.job = { s.m.ctl.job with timetableNext := some (timetableOf img) })
        ∧ (st ≠ 0 → t.m.ctl.job = s.m.ctl.job)))) ∧
  (∀ (ch : Nat) (x : Message) (s : State), s.m.ctl.takenCmd ch 0x0030 = some x → x.kind ≠ 4 →
    Completes (.policy ch) s (fun t => s.m.ctl.Answered t.m.ctl x (s.m.ctl.policyCheck x) ∧ t.m.ctl.dies = s.m.ctl.dies ∧ s.sameMem t
      ∧ (s.m.ctl.policyCheck x = 0 → t.m.ctl.job.policyNext = applyPairs 1 s.m.ctl.job.policyNext x.pairs.1
          ∧ x.pairs.1.all Pair.inRange = true ∧ t.m.ctl.job.policy = s.m.ctl.job.policy)
      ∧ (s.m.ctl.policyCheck x ≠ 0 → t.m.ctl.job = s.m.ctl.job)))

/-- Table 15-5, R384, R391, R432: GEN_CONTROL. Settings wait for the boundary; SEAL_NOW is asked for in the next token; HOLD in a
hold changes nothing; RESTORE needs a held job with no step attempted and begins a survivor's or a replacement's restore, REJOIN the generation
that is `JOB_DURABLE`, whose restore it begins in place; where a source is lost neither begins, and GEN_UNRECOVERABLE is raised.
Besides the rules, the model's choices and readings of log entries 75 and 137. -/
def Obligations.GenerationControlCommands : Prop :=
  (∀ (ch : Nat) (x : Message) (s : State), s.m.ctl.takenSub ch 0x0040 0 = some x →
    Completes (.genSet ch) s (fun t => t.m.ctl.dies = s.m.ctl.dies ∧ s.sameMem t
      ∧ (let next := applyPairs 4 s.m.ctl.gen.setNext x.pairs.1
         if x.pairs.1.all Pair.inRange = true ∧ genSetOk next = true
         then s.m.ctl.Answered t.m.ctl x 0 ∧ t.m.ctl.gen = { s.m.ctl.gen with setNext := next }
         else s.m.ctl.Answered t.m.ctl x 0x14 ∧ t.m.ctl.gen = s.m.ctl.gen))) ∧
  (∀ (ch : Nat) (x : Message) (s : State), s.m.ctl.takenSub ch 0x0040 1 = some x →
    Completes (.sealNow ch) s (fun t => s.m.ctl.Answered t.m.ctl x 0 ∧ t.m.ctl.gen = { s.m.ctl.gen with sealNow := true }
      ∧ t.m.ctl.dies = s.m.ctl.dies ∧ s.sameMem t)) ∧
  (∀ (ch : Nat) (x : Message) (s : State), s.m.ctl.takenSub ch 0x0040 2 = some x →
    Completes (.hold ch) s (fun t => t.m.ctl.stage = 4
      ∧ (s.m.ctl.stage = 4 → s.m.ctl.Answered t.m.ctl x 0 ∧ t.m.ctl.gen = s.m.ctl.gen ∧ t.m.ctl.dies = s.m.ctl.dies ∧ s.sameMem t)
      ∧ (s.m.ctl.stage ≠ 4 → s.m.ctl.Answered t.m.ctl x 1 ∧ t.m.ctl.gen.holdDue = true ∧ t.m.ctl.job.held = true
          ∧ t.m.ctl.job.runLeft = 0 ∧ t.m.ctl.gen.restore = none))) ∧
  (∀ (ch : Nat) (x : Message) (s : State), s.m.ctl.takenSub ch 0x0040 3 = some x →
    Completes (.restore ch) s (fun t =>
      (s.m.ctl.stage ≠ 3 ∨ s.m.ctl.job.held = false ∨ s.m.ctl.job.attempt ≠ 0 →
        s.m.ctl.Answered t.m.ctl x 0x15 ∧ t.m.ctl.gen = s.m.ctl.gen ∧ t.m.ctl.dies = s.m.ctl.dies ∧ s.sameMem t)
      ∧ (s.m.ctl.stage = 3 → s.m.ctl.job.held = true → s.m.ctl.job.attempt = 0 → s.m.ctl.gen.restore = none →
          (∃ p ∈ x.triples, p.2 = s.m.ctl.coord) → s.m.ctl.Answered t.m.ctl x 1
          ∧ (∀ r, s.m.survives (x.w 3) = some r → t.m.ctl.gen.restore = some (.survivor (x.w 3) x.triples false))
          ∧ (s.m.survives (x.w 3) = none → s.m.ctl.unrecoverable x.triples = false →
              ∃ r, t.m.ctl.gen.restore = some r ∧ r.gen = x.w 3 ∧ r.replacement = true ∧ r.isLocal = false)))) ∧
  (∀ (ch : Nat) (x : Message) (s : State), s.m.ctl.takenSub ch 0x0040 4 = some x →
    Completes (.rejoin ch) s (fun t =>
      (s.m.ctl.stage ≠ 4 → s.m.ctl.Answered t.m.ctl x 0x15 ∧ t.m.ctl.gen = s.m.ctl.gen ∧ s.sameMem t)
      ∧ (s.m.ctl.stage = 4 → s.m.ctl.gen.holdDue = false → s.m.ctl.durable ≠ x.w 3 →
          s.m.ctl.Answered t.m.ctl x 0x40 ∧ t.m.ctl.gen = s.m.ctl.gen ∧ s.sameMem t)
      ∧ (s.m.ctl.stage = 4 → s.m.ctl.gen.holdDue = false → s.m.ctl.durable = x.w 3 → s.m.ctl.Answered t.m.ctl x 1
          ∧ (s.m.ctl.unrecoverable x.triples = false →
              t.m.ctl.gen.restore = some (.survivor (x.w 3) x.triples true) ∧ t.m.ctl.rd Fld.sg_SG_STATE = 5)
          ∧ (s.m.ctl.unrecoverable x.triples = true → t.m.ctl.gen.restore = s.m.ctl.gen.restore ∧ t.m.ctl.gen.slots = s.m.ctl.gen.slots
              ∧ (s.m.ctl.hasRoom 0 → ∃ pl, s.m.ctl.Posted t.m.ctl 0x060A 0 dieHB 0xFF (le 4 (x.w 3) ++ pl))))))

/-- Table 15-6, R336, R357, R433: coordinates change only while no Lesson is loaded, and links train again; a link setting outside its
range changes nothing; link actions; group definitions derive the tree, raise `EPOCH` and `RC_SEQ`, and are
refused where the record that R383 lays out would not hold them.
Besides the rules, the model's choices and readings of log entries 60, 61, 62 and 181. -/
def Obligations.LinkAndGroupCommands : Prop :=
  (∀ (ch : Nat) (x : Message) (s : State), s.m.ctl.takenSub ch 0x0050 0 = some x →
    Completes (.setCoord ch) s (fun t => t.m.ctl.dies = s.m.ctl.dies ∧ s.sameMem t
      ∧ (s.m.ctl.anyLesson = true → s.m.ctl.Answered t.m.ctl x 0x1A ∧ t.m.ctl.coord = s.m.ctl.coord)
      ∧ (s.m.ctl.anyLesson = false → coordX (x.w 3 % 2 ^ 13) ≤ bitsOf (x.w 3) 13 5 → coordY (x.w 3 % 2 ^ 13) ≤ bitsOf (x.w 3) 18 5 →
          s.m.ctl.Answered t.m.ctl x 0 ∧ t.m.ctl.coord = x.w 3 % 2 ^ 13
          ∧ t.m.ctl.torus = (bitsOf (x.w 3) 13 5 + 1, bitsOf (x.w 3) 18 5 + 1)
          ∧ ∀ y < 36, t.m.ctl.lkState y = (if s.m.ctl.lkState y = 2 then 3 else s.m.ctl.lkState y)))) ∧
  (∀ (ch : Nat) (x : Message) (s : State), s.m.ctl.takenSub ch 0x0050 1 = some x → x.kind ≠ 4 →
    Completes (.linkSet ch) s (fun t => t.m.ctl.dies = s.m.ctl.dies ∧ s.sameMem t
      ∧ (if x.pairs.1.all Pair.inRange = true ∧ ∀ y < 36, ((s.m.ctl.link y).settings y x.pairs.1).cred.foldl (· + ·) 0 ≤ 1024
         then s.m.ctl.Answered t.m.ctl x 0 ∧ ∀ y < 36, (t.m.ctl.link y).cred = ((s.m.ctl.link y).settings y x.pairs.1).cred
            ∧ (t.m.ctl.link y).weight = ((s.m.ctl.link y).settings y x.pairs.1).weight
            ∧ (t.m.ctl.link y).violMax = ((s.m.ctl.link y).settings y x.pairs.1).violMax
            ∧ (t.m.ctl.link y).enable = ((s.m.ctl.link y).settings y x.pairs.1).enable
            ∧ ((t.m.ctl.link y).enable = false → t.m.ctl.lkState y = 0)
         else s.m.ctl.Answered t.m.ctl x 0x14 ∧ t.m.ctl.links = s.m.ctl.links))) ∧
  (∀ (ch : Nat) (x : Message) (s : State), s.m.ctl.takenSub ch 0x0050 2 = some x → x.w 5 < 3 →
    Completes (.linkState ch) s (fun t => s.m.ctl.Answered t.m.ctl x 0 ∧ t.m.ctl.dies = s.m.ctl.dies ∧ s.sameMem t
      ∧ ∀ y < 36, t.m.ctl.lkState y =
          (if bit (x.w64 3) y = false then s.m.ctl.lkState y
           else if x.w 5 = 0 then (if s.m.ctl.lkUp y then 4 else s.m.ctl.lkState y)
           else if x.w 5 = 1 then (if s.m.ctl.lkState y = 0 ∨ s.m.ctl.lkState y = 4 then 1 else s.m.ctl.lkState y)
           else if s.m.ctl.lkState y = 2 then 3 else s.m.ctl.lkState y))) ∧
  (∀ (ch : Nat) (x : Message) (buf : BufData) (b : List Nat) (s : State), s.m.ctl.takenSub ch 0x0050 3 = some x → x.kind ≠ 4 →
    x.w 7 = 16 * x.w 4 → s.m.bufRead (x.buf 5) buf = some b → memberTableOk b (x.w 4) = true →
    Completes (.groupDefine ch buf) s (fun t => t.m.ctl.dies = s.m.ctl.dies ∧ s.sameMem t
      ∧ (let fits := ({ s.m.ctl.job.roll with
            groups := putGroup s.m.ctl.job.roll.groups (s.m.ctl.groupFrom x (membersOf b (x.w 4))) } : RollCall).fits
         (s.m.ctl.groupRefused x (membersOf b (x.w 4)) = true ∨ fits = false → s.m.ctl.Answered t.m.ctl x 0x1F ∧ t.m.ctl.job = s.m.ctl.job)
      ∧ (s.m.ctl.groupRefused x (membersOf b (x.w 4)) = false → fits = true → s.m.ctl.Answered t.m.ctl x 0
          ∧ t.m.ctl.job.roll.seq = (s.m.ctl.job.roll.seq + 1) % 2 ^ 32
          ∧ (∃ g ∈ t.m.ctl.job.roll.groups, g.id = x.groupId ∧ g.members = membersOf b (x.w 4)
              ∧ (∀ o, s.m.ctl.job.roll.groups.find? (fun o => o.id == x.groupId) = some o → g.epoch = (o.epoch + 1) % 2 ^ 32)
              ∧ (g.member = true ↔ ∃ p ∈ g.members, p.1 = s.m.ctl.coord))
          ∧ ∀ g ∈ s.m.ctl.job.roll.groups, g.id ≠ x.groupId → g ∈ t.m.ctl.job.roll.groups)))) ∧
  (∀ (ch : Nat) (x : Message) (s : State), s.m.ctl.takenSub ch 0x0050 4 = some x → x.kind ≠ 4 →
    Completes (.groupDelete ch) s (fun t => t.m.ctl.dies = s.m.ctl.dies ∧ s.sameMem t
      ∧ (s.m.ctl.job.roll.groups.any (fun g => g.id == x.groupId) = true → s.m.ctl.Answered t.m.ctl x 0
          ∧ t.m.ctl.job.roll.groups = s.m.ctl.job.roll.groups.filter (fun g => g.id != x.groupId)
          ∧ t.m.ctl.job.roll.seq = (s.m.ctl.job.roll.seq + 1) % 2 ^ 32)
      ∧ (s.m.ctl.job.roll.groups.any (fun g => g.id == x.groupId) = false → s.m.ctl.Answered t.m.ctl x 0x1E ∧ t.m.ctl.job = s.m.ctl.job)))

/-- R434: the window changes only while no Lesson is loaded, inside its span, and while decoder 0 is not committed. R435: telemetry
returns the words of a block in ascending order, writes them to a host buffer, and changes no unit.
Besides the rules, the model's choices and readings of log entries 71 and 78. -/
def Obligations.LayoutAndTelemetryCommands : Prop :=
  (∀ (ch : Nat) (x : Message) (s : State), s.m.ctl.takenCmd ch 0x0060 = some x → x.w 2 < 2 ^ 11 → x.w 3 < 2 ^ 12 →
    Completes (.farLayout ch) s (fun t => t.m.ctl.dies = s.m.ctl.dies ∧ s.sameMem t
      ∧ (let kept := t.m.ctl.rd Fld.fl_FL_BAR2_BASE_GIB = s.m.ctl.rd Fld.fl_FL_BAR2_BASE_GIB
            ∧ t.m.ctl.rd Fld.fl_FL_BAR2_SIZE_GIB = s.m.ctl.rd Fld.fl_FL_BAR2_SIZE_GIB
         (s.m.ctl.anyLesson = true → s.m.ctl.Answered t.m.ctl x 0x1A ∧ kept)
         ∧ (s.m.ctl.anyLesson = false → s.m.ctl.windowFits (x.w 2) (x.w 3) = false → s.m.ctl.Answered t.m.ctl x 0x1C ∧ kept)
         ∧ (s.m.ctl.anyLesson = false → s.m.ctl.windowFits (x.w 2) (x.w 3) = true → s.m.ctl.host.decoder.isSome = true →
             x.w 3 ≠ s.m.ctl.rd Fld.fl_FL_BAR2_SIZE_GIB → s.m.ctl.Answered t.m.ctl x 0x1B ∧ kept)
         ∧ (s.m.ctl.anyLesson = false → s.m.ctl.windowFits (x.w 2) (x.w 3) = true → s.m.ctl.host.decoder = none →
             s.m.ctl.Answered t.m.ctl x 0 ∧ t.m.ctl.rd Fld.fl_FL_BAR2_BASE_GIB = x.w 2 ∧ t.m.ctl.rd Fld.fl_FL_BAR2_SIZE_GIB = x.w 3)))) ∧
  (∀ (ch : Nat) (x : Message) (b : TBlock) (s : State), s.m.ctl.takenSub ch 0x0070 0 = some x → x.block = some b →
    x.w 3 + 4 * x.w 4 ≤ b.size s.m → x.w 4 ≤ 14 →
    Completes (.telemetry ch) s (fun t => s.m.ctl.Answered t.m.ctl x 0 ∧ t.m.ctl.dies = s.m.ctl.dies ∧ s.sameMem t
      ∧ (s.m.ctl.host.releasing.contains x.chan = false → ∀ i < x.w 4,
          t.m.ctl.mbWord x.chan (2 + i) = (b.readMany (x.w 4) s.m (x.w 3)).1.getD i 0 % 2 ^ 32)
      ∧ (x.kind ≠ 4 → ∀ f i j, f.blk ≠ .mb → f.blk ≠ .db → f.blk ≠ .st → t.m.ctl.rd f i j = s.m.ctl.rd f i j))) ∧
  (∀ (ch : Nat) (x : Message) (b : TBlock) (fail : Bool) (s : State), s.m.ctl.takenSub ch 0x0070 1 = some x → x.block = some b →
    x.w 3 + x.w 4 ≤ b.size s.m → x.w 4 ≤ x.w 7 → x.w 4 / 4 ≠ 0 → s.m.ctl.bufOk (x.buf 5) = true → (x.buf 5).far = false →
    Completes (.telemetryBuffer ch fail) s (fun t => t.m.ctl.dies = s.m.ctl.dies ∧ s.sameMem t
      ∧ (if fail then s.m.ctl.Answered t.m.ctl x 0x17
         else s.m.ctl.Answered t.m.ctl x 0
           ∧ .hostWrite (x.buf 5).addr (unwords (b.readMany (x.w 4 / 4) s.m (x.w 3)).1) ∈ t.m.ctl.out)))

/-- R461 to R465, Tables 16-10 to 16-12: staging erases the bank that is not in force, and marks it staged only if every check passes;
activation; the handover's events: the new firmware's boot, and the commit, which raises `MIN_SVN` and takes the bank.
Besides the rules, the model's choices and readings of log entries 26, 27, 28 and 78. -/
def Obligations.UpdateCommands : Prop :=
  (∀ (ch : Nat) (x : Message) (buf : BufData) (b : List Nat) (s : State), s.m.ctl.takenCmd ch 0x0080 = some x → x.w 5 ≤ 96 * 1048576 →
    s.m.ctl.updPending = false → s.m.bufRead (x.buf 3) buf = some b →
    Completes (.updateStage ch buf) s (fun t => s.m.ctl.Answered t.m.ctl x 1 ∧ t.m.ctl.sec.updState = 1 ∧ t.m.ctl.sec.package = b
      ∧ t.m.ctl.sec.bank = s.m.ctl.sec.bank ∧ t.m.ctl.dies = s.m.ctl.dies ∧ s.sameMem t)) ∧
  (∀ (ch : Nat) (x : Message) (buf : BufData) (s : State), s.m.ctl.takenCmd ch 0x0080 = some x → x.w 5 ≤ 96 * 1048576 →
    s.m.ctl.updPending = true →
    Completes (.updateStage ch buf) s (fun t => s.m.ctl.Answered t.m.ctl x 0x0809 ∧ t.m.ctl.sec = s.m.ctl.sec
      ∧ t.m.ctl.flash = s.m.ctl.flash ∧ s.sameMem t)) ∧
  (∀ (ok : Bool) (s : State), s.m.ctl.sec.updState = 1 →
    Completes (.updateStaged ok) s (fun t => t.m.ctl.sec.updState = 0 ∧ t.m.ctl.sec.package = [] ∧ t.m.ctl.dies = s.m.ctl.dies ∧ s.sameMem t
      ∧ (s.m.ctl.stageOutcome ok = 0 → t.m.ctl.inForce.staged = 1 ∧ ok = true
          ∧ (s.m.ctl.hasRoom 2 → s.m.ctl.Posted t.m.ctl 0x0801 2 0x58 0xFF
              (le 4 (fwVersion s.m.ctl.sec.package) ++ le 4 (pkgSvn s.m.ctl.sec.package))))
      ∧ (s.m.ctl.stageOutcome ok ≠ 0 → t.m.ctl.flash = s.m.ctl.flash ∧ t.m.ctl.inForce = s.m.ctl.inForce
          ∧ (s.m.ctl.hasRoom 1 → s.m.ctl.Posted t.m.ctl 0x0803 1 0x58 0xFF (le 2 (s.m.ctl.stageOutcome ok)))))) ∧
  (∀ (ch : Nat) (x : Message) (s : State), s.m.ctl.takenCmd ch 0x0081 = some x →
    Completes (.updateActivate ch) s (fun t => t.m.ctl.dies = s.m.ctl.dies ∧ s.sameMem t
      ∧ (s.m.ctl.locked = true → s.m.ctl.Answered t.m.ctl x 0x080A ∧ t.m.ctl.sec = s.m.ctl.sec)
      ∧ (s.m.ctl.locked = false → s.m.ctl.updPending = true → s.m.ctl.Answered t.m.ctl x 0x0809 ∧ t.m.ctl.sec = s.m.ctl.sec)
      ∧ (s.m.ctl.locked = false → s.m.ctl.updShown = 2 → s.m.ctl.Answered t.m.ctl x 1
          ∧ (x.w 2 = 1 → t.m.ctl.sec.record = { s.m.ctl.sec.record with staged := 2 })
          ∧ (x.w 2 ≠ 1 → t.m.ctl.sec.updState = 3 ∧ t.m.ctl.sec.hoReady = false)))) ∧
  (∀ (ch : Nat) (x : Message) (s : State), s.m.ctl.takenCmd ch 0x0082 = some x →
    Completes (.updateStatus ch) s (fun t => s.m.ctl.Answered t.m.ctl x 0 ∧ t.m.ctl.sec = s.m.ctl.sec ∧ t.m.ctl.dies = s.m.ctl.dies
      ∧ (s.m.ctl.host.releasing.contains x.chan = false → t.m.ctl.mbWord x.chan 2 = s.m.ctl.updShown % 2 ^ 32
          ∧ t.m.ctl.mbWord x.chan 3 = s.m.ctl.rd Fld.st_ST_FW_VERSION % 2 ^ 32 ∧ t.m.ctl.mbWord x.chan 6 = s.m.ctl.inForce.epoch % 2 ^ 32)
      ∧ s.sameMem t)) ∧
  (∀ (ok : Bool) (s : State), s.m.ctl.sec.updState = 3 → s.m.ctl.sec.hoReady = false →
    Completes (.newFirmwareBoot ok) s (fun t => t.m.ctl.sec.bank = s.m.ctl.sec.bank ∧ t.m.ctl.dies = s.m.ctl.dies ∧ s.sameMem t
      ∧ (ok = false → t.m.ctl.sec.updState = 2 ∧ (s.m.ctl.hasRoom 1 → s.m.ctl.Posted t.m.ctl 0x0803 1 0x58 0xFF (le 2 0x080B)))
      ∧ (ok = true → s.m.ctl.stagedSound = true → t.m.ctl.sec.hoReady = true
          ∧ t.m.ctl.sec.updState = (if s.m.ctl.atBoundary then 5 else 3)))) ∧
  (∀ (ok : Bool) (s : State), s.m.ctl.sec.updState = 5 →
    Completes (.handoverCommit ok) s (fun t => s.sameMem t
      ∧ (ok = true → t.m.ctl.sec.updState = 0 ∧ t.m.ctl.sec.bank = s.m.ctl.stagingBank
          ∧ t.m.ctl.rd Fld.st_ST_FW_VERSION = fwVersion (s.m.ctl.bankManifest s.m.ctl.stagingBank) % 2 ^ 32
          ∧ t.m.ctl.inForce.active = s.m.ctl.stagingBank ∧ t.m.ctl.inForce.staged = 0
          ∧ s.m.ctl.inForce.minSvn ≤ t.m.ctl.inForce.minSvn
          ∧ pkgSvn (s.m.ctl.bankManifest s.m.ctl.stagingBank) ≤ t.m.ctl.inForce.minSvn)
      ∧ (ok = false → t.m.ctl.sec.updState = 2 ∧ t.m.ctl.sec.bank = s.m.ctl.sec.bank ∧ t.m.ctl.flash = s.m.ctl.flash)))

/-! ## Queues (section 09) -/

/-- R246: ISSUE copies the descriptors that fit the ring, from `DESC` and the run's offset on, each with that offset; DRAIN waits for
every record; END ends the program. R483: where a PC breakpoint hits, the word is not acted on.
Besides the rules, the model's choices and readings of log entry 66. -/
def Obligations.QueueProgramWords : Prop :=
  (∀ (d q o w : Nat) (r : ProgRun) (s : State), s.m.ctl.dieUp d = true → s.m.progWop d q = some (r, o, 1) →
    s.m.ctl.bad (lessonStore d + o) = false → w = unle (memRead s.m.mem (lessonStore d + o) 8) →
    s.m.ctl.bpMatch (4 * d + s.m.ctl.coreOf d q) 1 (fun _ => true) = [] →
    Completes (.issue d q) s (fun t =>
      let due := if r.left = 0 then bitsOf w 8 16 else min r.left (bitsOf w 8 16)
      let from0 := bitsOf w 8 16 - due
      let k := min due (s.m.ctl.rd Fld.que_Q_SLOTS d q - (s.m.ctl.queue d q).ring.length)
      (t.m.ctl.queue d q).ring = (s.m.ctl.queue d q).ring
          ++ (List.range k).map (fun i => ⟨bitsOf w 24 32 + from0 + r.off + i, (s.m.ctl.die d).epoch, false, false, none, 0, (s.m.ctl.die d).issued + i, r.off⟩)
      ∧ (t.m.ctl.queue d q).prog = some { r with left := due - k, pc := if due - k = 0 then r.pc + 1 else r.pc }
      ∧ (t.m.ctl.die d).issued = (s.m.ctl.die d).issued + k
      ∧ (t.m.ctl.queue d q).live = (s.m.ctl.queue d q).live ∧ (∀ e, e ≠ d → t.m.ctl.die e = s.m.ctl.die e) ∧ s.sameMem t)) ∧
  (∀ (d q o : Nat) (r : ProgRun) (s : State), s.m.ctl.dieUp d = true → s.m.progWop d q = some (r, o, 2) →
    s.m.ctl.bad (lessonStore d + o) = false → (s.m.ctl.queue d q).live = [] → (s.m.ctl.queue d q).ring = [] →
    s.m.ctl.bpMatch (4 * d + s.m.ctl.coreOf d q) 1 (fun _ => true) = [] →
    Completes (.drainWord d q) s (fun t => (t.m.ctl.queue d q).prog = some { r with pc := r.pc + 1 } ∧ t.m.ctl.regs = s.m.ctl.regs
      ∧ s.sameMem t)) ∧
  (∀ (d q : Nat) (s : State), (s.m.ctl.queue d q).live ≠ [] ∨ (s.m.ctl.queue d q).ring ≠ [] → exec (.drainWord d q) s = .next s) ∧
  (∀ (d q o : Nat) (r : ProgRun) (s : State), s.m.ctl.dieUp d = true → s.m.progWop d q = some (r, o, 3) →
    s.m.ctl.bad (lessonStore d + o) = false → s.m.ctl.bpMatch (4 * d + s.m.ctl.coreOf d q) 1 (fun _ => true) = [] →
    Completes (.endWord d q) s (fun t => (t.m.ctl.queue d q).prog = some { r with ended := true } ∧ t.m.ctl.regs = s.m.ctl.regs
      ∧ s.sameMem t)) ∧
  (∀ (i : Instr) (k d q o : Nat) (r : ProgRun) (s : State), s.m.ctl.dieUp d = true → s.m.progWop d q = some (r, o, k) →
    (i, k) ∈ ([(.issue d q, 1), (.endWord d q, 3)] : List (Instr × Nat)) → (s.m.ctl.pcHits (4 * d + s.m.ctl.coreOf d q)).1 ≠ [] →
    Completes i s (fun t => t.m.ctl.dies = s.m.ctl.dies ∧ s.sameMem t))

/-- R247, R250: a fetch takes the ring's head with its sequence number, and it waits or is decoded; the first waiter whose count
suffices takes the count and goes on, and no other. -/
def Obligations.DescriptorFetchAndWait : Prop :=
  (∀ (d q : Nat) (x : Slot) (s : State), s.m.ctl.dieUp d = true → s.m.ctl.toFetch d q = some x →
    s.m.ctl.bpFetch (4 * d + s.m.ctl.coreOf d q) q x.desc = [] → s.m.ctl.bad (descAddr s.m.ctl d x.desc) = false →
    (hdrOf (slotBytes (memRead s.m.mem (descAddr s.m.ctl d x.desc) 64) x)).fence = false ∨ (s.m.ctl.queue d q).live = [] →
    Completes (.descriptorFetch d q) s (fun t =>
      let raw := slotBytes (memRead s.m.mem (descAddr s.m.ctl d x.desc) 64) x
      (t.m.ctl.queue d q).ring = (s.m.ctl.queue d q).ring.drop 1
      ∧ t.m.ctl.rd Fld.que_Q_SEQ d q = (s.m.ctl.rd Fld.que_Q_SEQ d q + 1) % 2 ^ 32
      ∧ (∃ e ∈ (t.m.ctl.queue d q).live, e.seq = s.m.ctl.rd Fld.que_Q_SEQ d q ∧ e.slot = x ∧ e.raw = raw
          ∧ ((hdrOf raw).waitCnt = 0 → e.stage ≠ .wait)
          ∧ ((hdrOf raw).waitCnt ≠ 0 → e.stage = .wait ∧ ((hdrOf raw).waitSem, q) ∈ (t.m.ctl.die d).waiters))
      ∧ s.sameMem t)) ∧
  (∀ (d q : Nat) (s : State), s.m.ctl.on Fld.que_Q_CTRL_STOPPED d q = true ∨ s.m.ctl.halted d q = true ∨ s.m.ctl.stage = 4 →
    exec (.descriptorFetch d q) s = .next s) ∧
  (∀ (d q : Nat) (e : Desc) (s : State), s.m.ctl.dieUp d = true → s.m.ctl.waitMet d q = some e →
    Completes (.semaphoreWaitMet d q) s (fun t =>
      let h := hdrOf e.raw
      t.m.ctl.rd Fld.que_SEMs_COUNT d h.waitSem = (s.m.ctl.rd Fld.que_SEMs_COUNT d h.waitSem - h.waitCnt) % 2 ^ 32
      ∧ (∀ j < 256, j ≠ h.waitSem → t.m.ctl.rd Fld.que_SEMs_COUNT d j = s.m.ctl.rd Fld.que_SEMs_COUNT d j)
      ∧ (t.m.ctl.die d).waiters = (s.m.ctl.die d).waiters.erase (h.waitSem, q)
      ∧ (∃ x ∈ (t.m.ctl.queue d q).live, x.seq = e.seq ∧ x.stage ≠ .wait) ∧ s.sameMem t)) ∧
  (∀ (d q : Nat) (s : State), s.m.ctl.waitMet d q = none → exec (.semaphoreWaitMet d q) s = .next s)

/-- R259 to R261, R248: the head of the highest priority that waits is granted once the free units cover it; a completed descriptor's
units come back; an engine accepts the first that arrived for it. `nop` does nothing. -/
def Obligations.GrantsStartsAndReleases : Prop :=
  (∀ (r : HpReq) (s : State), s.m.ctl.hp.head = some r → r.units ≤ s.m.ctl.freeUnits →
    (∀ o ∈ s.m.ctl.hp.fifo, o.prio ≤ r.prio) ∧
    Completes .hallPassGrant s (fun t => (r.who ≠ .protect → s.sameMem t
        ∧ t.m.ctl.hp = { s.m.ctl.hp with fifo := s.m.ctl.hp.fifo.erase r, held := s.m.ctl.hp.held ++ [(r.who, r.units)] })
      ∧ (∀ d q n e, r.who = .desc d q n → s.m.ctl.desc d q n = some e → e.stage = .grant →
          (t.m.ctl.desc d q n).map (·.stage) = some .start ∧ (q, n) ∈ (t.m.ctl.die d).arrivals))) ∧
  (∀ (r : HpReq) (s : State), s.m.ctl.hp.head = some r → s.m.ctl.freeUnits < r.units → exec .hallPassGrant s = .next s) ∧
  (∀ (d q n : Nat) (s : State), s.m.ctl.mayRelease d q n = true →
    Completes (.hallPassRelease d q n) s (fun t =>
      t.m.ctl.hp = { s.m.ctl.hp with held := s.m.ctl.hp.held.filter (fun p => p.1 != .desc d q n) }
      ∧ t.m.ctl.dies = s.m.ctl.dies ∧ s.sameMem t)) ∧
  (∀ (d q n : Nat) (e : Desc) (s : State), s.m.ctl.dieUp d = true → s.m.ctl.desc d q n = some e → e.stage = .start →
    s.m.ctl.firstFor d q e = true → s.m.ctl.engineFree d (s.m.ctl.engineOf d q e) = true →
    Completes (.engineStart d q n) s (fun t => (t.m.ctl.desc d q n).map (·.stage) = some .running
      ∧ (t.m.ctl.die d).arrivals = (s.m.ctl.die d).arrivals.erase (q, e.seq) ∧ t.m.ctl.regs = s.m.ctl.regs ∧ s.sameMem t)) ∧
  (∀ (d q n : Nat) (e : Desc) (s : State), s.m.ctl.dieUp d = true → s.m.ctl.desc d q n = some e → e.stage = .running →
    e.raw.getD 0 0 = 0x01 →
    Completes (.nop d q n) s (fun t => (t.m.ctl.desc d q n).map (·.work) = some .over ∧ t.m.ctl.regs = s.m.ctl.regs ∧ s.sameMem t)) ∧
  (∀ (d q n l : Nat) (e : Desc) (s : State), s.m.ctl.desc d q n = some e → e.cowWait = some l → s.m.ctl.marked l = false →
    Completes (.cowWriteResume d q n) s (fun t => (t.m.ctl.desc d q n).map (·.cowWait) = some none ∧ t.m.ctl.regs = s.m.ctl.regs
      ∧ s.sameMem t))

/-- R262: one row of a `dm.copy` between tensors in memory: the destination row holds the source row's elements, and no other byte
of memory changes. -/
def Obligations.DmCopyMovesOneRow : Prop :=
  ∀ (d q n rows a0 b0 : Nat) (a b : Tensor) (r : CopyRun) (e : Desc) (s : State), s.wf = true → s.m.ctl.dieUp d = true →
    s.m.ctl.desc d q n = some e → e.stage = .running → e.work = .copy a b false rows a0 b0 r → e.cowWait = none → r.row < rows →
    a.inTb = false → b.inTb = false → a.fmt = b.fmt → a.cols = b.cols → (∀ l, s.m.ctl.marked l = false) →
    Completes (.dmCopy d q n []) s (fun t =>
      (∀ k < b.cols, t.m.elemCode d b (b0 + r.row) k = s.m.elemCode d a (a0 + r.row) k)
      ∧ (∀ x, x < b.addr (b0 + r.row) 0 ∨ b.addr (b0 + r.row) 0 + (b.width * b.cols + 7) / 8 ≤ x → memByte t.m.mem x = memByte s.m.mem x)
      ∧ (t.m.ctl.desc d q n).map (·.work) = some (.copy a b false rows a0 b0 ⟨r.row + 1⟩))

/-- R247, R249, R250, R258: completion, in the order of the queue; the record enters its ring, the signal is applied, and an error counts and stops a queue that is to
stop. The control cores' writes: `SEM_ADD`, `RESUME`, `FLUSH`, `Q_CHEAD`.
Besides the rules, the model's choices and readings of log entry 83. -/
def Obligations.CompletionRecordsAndQueueWrites : Prop :=
  (∀ (d q n : Nat) (e : Desc) (s : State), s.m.ctl.dieUp d = true → s.m.ctl.desc d q n = some e → e.stage = .running →
    (e.work = .over ∨ ∃ a b sc rows a0 b0 r, e.work = .copy a b sc rows a0 b0 r ∧ rows ≤ r.row) →
    (s.m.ctl.firstLeft d q n = true →
      Completes (.descriptorComplete d q n) s (fun t => (t.m.ctl.desc d q n).map (fun x => (x.stage, x.err)) = some (.done, 0)
        ∧ t.m.ctl.regs = s.m.ctl.regs ∧ s.sameMem t)) ∧
    (s.m.ctl.firstLeft d q n = false → exec (.descriptorComplete d q n) s = .next s)) ∧
  (∀ (d q n : Nat) (e : Desc) (s : State), s.m.ctl.dieUp d = true → s.m.ctl.desc d q n = some e → e.stage = .finish → e.err ≠ 7 →
    s.m.ctl.firstLeft d q n = true →
    Completes (.descriptorComplete d q n) s (fun t => (t.m.ctl.desc d q n).map (fun x => (x.stage, x.err, x.noop)) = some (.done, e.err, e.noop)
      ∧ t.m.ctl.regs = s.m.ctl.regs ∧ s.sameMem t)) ∧
  (∀ (d q : Nat) (e : Desc) (s : State), s.m.ctl.dieUp d = true → q < 64 → s.m.ctl.toRecord d q = some e → e.slot.rerun = false →
    (s.m.ctl.die d).falls = [] → e.err ≠ 7 → s.m.ctl.rd Fld.que_SEMs_COUNT d (hdrOf e.raw).sigSem < 2 ^ 32 →
    Completes (.completionRecord d q) s (fun t =>
      let stop := e.err ≠ 0 ∧ s.m.ctl.on Fld.que_Q_CTRL_STOP_ON_ERROR d q = true
      (t.m.ctl.queue d q).live = (s.m.ctl.queue d q).live.drop 1
      ∧ (∃ b, (t.m.ctl.queue d q).records = (s.m.ctl.queue d q).records ++ [b] ∧ b.length = 32 ∧ fieldAt b 0 4 = e.seq % 2 ^ 32
          ∧ (b.getD 9 0 = e.err) ∧ (bit (b.getD 10 0) 1 = true ↔ stop))
      ∧ t.m.ctl.rd Fld.que_SEMs_COUNT d (hdrOf e.raw).sigSem
          = min (s.m.ctl.rd Fld.que_SEMs_COUNT d (hdrOf e.raw).sigSem + (hdrOf e.raw).sigCnt) (2 ^ 32 - 1)
      ∧ t.m.ctl.rd Fld.que_Q_ERR_CNT_COUNT d q
          = (if e.err = 0 then s.m.ctl.rd Fld.que_Q_ERR_CNT_COUNT d q else min (s.m.ctl.rd Fld.que_Q_ERR_CNT_COUNT d q + 1) (2 ^ 32 - 1))
      ∧ (stop → t.m.ctl.on Fld.que_Q_CTRL_STOPPED d q = true)
      ∧ (¬ stop → t.m.ctl.rd Fld.que_Q_CTRL_STOPPED d q = s.m.ctl.rd Fld.que_Q_CTRL_STOPPED d q) ∧ s.sameMem t)) ∧
  (∀ (d sem v : Nat) (s : State), s.m.ctl.dieUp d = true → sem < 256 → s.m.ctl.rd Fld.que_SEMs_COUNT d sem < 2 ^ 32 →
    Completes (.semAdd d sem v) s (fun t =>
      t.m.ctl.rd Fld.que_SEMs_COUNT d sem = min (s.m.ctl.rd Fld.que_SEMs_COUNT d sem + v % 2 ^ 32) (2 ^ 32 - 1)
      ∧ (∀ j < 256, j ≠ sem → t.m.ctl.rd Fld.que_SEMs_COUNT d j = s.m.ctl.rd Fld.que_SEMs_COUNT d j)
      ∧ t.m.ctl.dies = s.m.ctl.dies ∧ s.sameMem t)) ∧
  (∀ (d q : Nat) (s : State), s.m.ctl.dieUp d = true → q < 64 →
    Completes (.resume d q) s (fun t => t.m.ctl.on Fld.que_Q_CTRL_STOPPED d q = false ∧ t.m.ctl.dies = s.m.ctl.dies ∧ s.sameMem t)) ∧
  (∀ (d q : Nat) (s : State), s.m.ctl.dieUp d = true → s.m.ctl.on Fld.que_Q_CTRL_STOPPED d q = true → q < 64 →
    Completes (.flush d q) s (fun t => (t.m.ctl.queue d q).ring = [] ∧ t.m.ctl.on Fld.que_Q_CTRL_STOPPED d q = false
      ∧ (∃ l, (t.m.ctl.queue d q).live = (s.m.ctl.queue d q).live ++ l ∧ l.map (·.slot) = (s.m.ctl.queue d q).ring
          ∧ ∀ e ∈ l, e.stage = .done ∧ e.err = 7)
      ∧ t.m.ctl.rd Fld.que_Q_SEQ d q = s.m.ctl.rd Fld.que_Q_SEQ d q
      ∧ (∀ j < 256, t.m.ctl.rd Fld.que_SEMs_COUNT d j = s.m.ctl.rd Fld.que_SEMs_COUNT d j) ∧ s.sameMem t)) ∧
  (∀ (d q v : Nat) (s : State), s.m.ctl.dieUp d = true → q < 64 →
    Completes (.qCheadWrite d q v) s (fun t => t.m.ctl.rd Fld.que_Q_CHEAD d q = v % 1024
      ∧ (let n := max (s.m.ctl.rd Fld.que_Q_SLOTS d q) 1
         (t.m.ctl.queue d q).records = (s.m.ctl.queue d q).records.drop
           (min ((v % 1024 + n - s.m.ctl.rd Fld.que_Q_CHEAD d q % n) % n) (s.m.ctl.queue d q).records.length))
      ∧ s.sameMem t))

/-! ## Arrays -/

/-- R121, R144: the passes of a group, n-tile by n-tile and k-chunk by k-chunk; a pass is issued, skipped and counted, or stops its
group with ACC_FRAME where it would keep sums of another frame (R99). The last skipped pass of an n-tile of which none is issued
closes it: with `ACC_INIT` 0 held sums are discarded and the tile reads as zero, with `ACC_INIT` 1 it reads the held sums. While the
running group's recompute attempts are due, no pass of the next group is issued (R248).
Besides the rules, the model's choices and readings of log entries 90 and 91. -/
def Obligations.PassGroupsExpandAndIssue : Prop :=
  (∀ (d : PassDesc) (m : Module), d.bskip = false → 0 < d.problems →
    (m.expand d).length = d.tiles * d.chunks ∧
    ∀ j i, j < d.tiles → i < d.chunks →
      (m.expand d)[j * d.chunks + i]? = some ⟨j, i, false, decide (i = 0), decide (i + 1 = d.chunks)⟩) ∧
  (∀ (die array : Nat) (r : Bool) (g : GroupRun) (s : State), s.m.ctl.dieUp die = true →
    (s.m.ctl.arr die array).unexpanded = some (r, g) →
    Completes (.arrayPassGroup die array) s (fun t =>
      ((t.m.ctl.arr die array).grp r).map (fun g => (g.expanded, g.todo, g.pend)) = some (true, s.m.expand g.d, g.pend)
      ∧ (t.m.ctl.arr die array).bank = (s.m.ctl.arr die array).bank
      ∧ (∀ p, p ≠ array → t.m.ctl.arr die p = s.m.ctl.arr die p) ∧ s.sameMem t)) ∧
  (∀ (die array : Nat) (r : Bool) (g : GroupRun) (p : Pass) (rest : List Pass) (s : State), s.m.ctl.dieUp die = true →
    (s.m.ctl.arr die array).toIssue = some (r, g) → g.todo = p :: rest →
    (r = false → s.m.ctl.attemptsDue die array = true → exec (.passIssue die array) s = .next s) ∧
    (r = true ∨ s.m.ctl.attemptsDue die array = false →
    Completes (.passIssue die array) s (fun t => s.sameMem t ∧ (∀ q, q ≠ array → t.m.ctl.arr die q = s.m.ctl.arr die q)
      ∧ (p.skip = false → p.first = true → g.d.accInit = true → s.m.ctl.sameFrame g.d = false →
          ((t.m.ctl.arr die array).grp r).map (fun g => (g.todo, g.pend, g.accFrame)) = some ([], none, true)
          ∧ (t.m.ctl.arr die array).bank = (s.m.ctl.arr die array).bank
          ∧ t.m.ctl.rd Fld.ma_ACC_FRAME_CNT_COUNT (maInst g.d.die g.d.phys)
              = min (s.m.ctl.rd Fld.ma_ACC_FRAME_CNT_COUNT (maInst g.d.die g.d.phys) + 1) (2 ^ 32 - 1))
      ∧ (p.skip = false → ¬ (p.first = true ∧ g.d.accInit = true ∧ s.m.ctl.sameFrame g.d = false) →
          ((t.m.ctl.arr die array).grp r).map (fun g => (g.todo, g.pend, g.issued)) = some (rest, some ⟨p, [], 0⟩, g.issued + 1)
          ∧ (t.m.ctl.arr die array).bank = (s.m.ctl.arr die array).bank ∧ t.m.ctl.regs = s.m.ctl.regs)
      ∧ (p.skip = true → t.m.ctl.rd Fld.ma_SKIP_PASSES (maInst die array) = (s.m.ctl.rd Fld.ma_SKIP_PASSES (maInst die array) + 1)
              % 2 ^ Fld.ma_SKIP_PASSES.width)
      ∧ (p.skip = true → p.last = false →
          ((t.m.ctl.arr die array).grp r).map (fun g => (g.todo, g.pend, g.stat.skipped)) = some (rest, g.pend, g.stat.skipped + 1)
          ∧ (t.m.ctl.arr die array).bank = (s.m.ctl.arr die array).bank)
      ∧ (p.skip = true → p.last = true → g.d.accInit = false →
          (t.m.ctl.arr die array).bank = discard (s.m.ctl.arr die array).reads (s.m.ctl.arr die array).bank
          ∧ t.m.ctl.rd Fld.ma_MA_STATE_ACC_KIND (maInst die array) = 0
          ∧ ∃ x, (t.m.ctl.arr die array).grp r = some x ∧ x.todo = rest
            ∧ (g.d.accOut = true → x.readouts.getLast? = some ⟨p.tile, 0, 0, false, true, false, false⟩))
      ∧ (p.skip = true → p.last = true → g.d.accInit = true →
          (t.m.ctl.arr die array).bank = (s.m.ctl.arr die array).bank
          ∧ (s.m.ctl.rd Fld.ma_MA_STATE_ACC_KIND (maInst die array) = 0 ∨ s.m.ctl.sameFrame g.d = true →
            ((t.m.ctl.arr die array).grp r).map (fun x => (x.todo, x.readouts)) = some (rest,
              if g.d.accOut then g.readouts ++ [⟨p.tile, 0, 0, false, false, false, false⟩] else g.readouts))
          ∧ (s.m.ctl.rd Fld.ma_MA_STATE_ACC_KIND (maInst die array) ≠ 0 → s.m.ctl.sameFrame g.d = false →
            ((t.m.ctl.arr die array).grp r).map (fun x => (x.todo, x.pend, x.accFrame)) = some ([], none, true))))))

/-- R114, R122, R131: a load beat writes one line of the pending tile and nothing else: with no packing and no sparsity, the elements of
one stored inner position, none at or beyond K or N. R132, R99: the front switches a tile in whose last line is written, and the bank
then holds sums, of the group's frame where its first pass opens the bank. R88, R91: a beat outside bit-serial mode merges one output
row into its entries and no other. R110, R111: a readout row that its destination admits is converted and written, and writes no
other byte; one that must wait for a slot or for the drain writes none.
Besides the rules, the model's choices and readings of log entries 87, 92 and 161. -/
def Obligations.LoadsBeatsAndReadouts : Prop :=
  (∀ (die array : Nat) (errs : Errs) (r : Bool) (g : GroupRun) (x : Tile) (s : State), s.m.ctl.dieUp die = true →
    (s.m.ctl.arr die array).toLoad = some (r, g, x) → s.m.lineReady g.d x = true →
    r = true ∨ s.m.ctl.attemptsDue die array = false →
    Completes (.loadBeat die array errs) s (fun t =>
      (∃ g', (t.m.ctl.arr die array).grp r = some g' ∧ g'.act = g.act ∧ g'.todo = g.todo ∧ g'.readouts = g.readouts
        ∧ g'.pend = some ⟨x.pass, x.elems ++ ((s.m.onCtl (·.memErrs errs)).loadLine g.d x.pass x.lines).1, x.lines + 1⟩)
      ∧ (t.m.ctl.arr die array).bank = (s.m.ctl.arr die array).bank
      ∧ (∀ p, p ≠ array → t.m.ctl.arr die p = s.m.ctl.arr die p) ∧ s.sameMem t)) ∧
  (∀ (m : Module) (d : PassDesc) (p : Pass) (x : Nat), d.h = 128 → d.w = 128 → d.sparse = 0 → d.bskip = false → d.loadT = false →
    x < d.shape.l →
    (m.loadLine d p x).1.length = d.gridCols ∧
    ∀ i < d.gridCols,
      let n := d.n0 + p.tile * d.shape.nc + i
      let k := d.k0 + p.chunk * d.shape.kc + x
      ∃ e, (m.loadLine d p x).1[i]? = some e
        ∧ (e.live = true ↔ n < d.n0 + d.n ∧ k < d.k0 + d.k)
        ∧ (e.live = true → e.k = k ∧ e.code = m.elemCode d.die d.tb (d.tb.at n k).1 (d.tb.at n k).2)) ∧
  (∀ (die array : Nat) (errs : Errs) (r : Bool) (g : GroupRun) (s : State), s.m.ctl.dieUp die = true →
    (s.m.ctl.arr die array).toBeat = some (r, g) →
    Completes (.arrayBeat die array errs) s (fun t =>
      let m := (s.m.onCtl (·.memErrs errs)).onCtl (·.frontSwitch die array r g)
      s.sameMem t ∧ (∀ p, p ≠ array → t.m.ctl.arr die p = s.m.ctl.arr die p)
      ∧ (g.act = none → t.m.ctl.on Fld.ma_MA_STATE_ACC_HELD (maInst die array) = true
        ∧ ∀ x, g.ready = some x → x.pass.first = true → g.d.accInit = false →
          t.m.ctl.rd Fld.ma_MA_STATE_ACC_KIND (maInst g.d.die g.d.phys) = g.d.kind)
      ∧ ∃ g' x, (m.ctl.arr die array).grp r = some g' ∧ g'.act = some x ∧ (g.act = none → g.ready = some x)
        ∧ (m.feederReady g' x = false → t.m.ctl.arr die array = m.ctl.arr die array)
        ∧ (m.feederReady g' x = true →
          let b := m.beat (m.ctl.logTab die) (m.ctl.stopAt (m.ctl.arr die array) g' x) ⟨g', (m.ctl.arr die array).bank, [], Seen.none, 0, 0⟩
          (t.m.ctl.arr die array).bank = b.bank
          ∧ ((t.m.ctl.arr die array).grp r).map (fun y => (y.act, y.row, y.beat, y.lanes, y.readouts))
              = some (b.g.act, b.g.row, b.g.beat, b.g.lanes, b.g.readouts)
          ∧ t.m.ctl.rd Fld.ma_BEAT_BEATS (maInst die array) = (s.m.ctl.rd Fld.ma_BEAT_BEATS (maInst die array) + b.beats) % 2 ^ 64))) ∧
  (∀ (die array : Nat) (g : GroupRun) (x : Tile) (s : State), s.m.ctl.dieUp die = true →
    (s.m.ctl.arr die array).run = some g → g.act = some x → g.d.mode ≠ .serial → g.d.rowBeats = 1 → g.d.problems = 1 →
    g.d.ta.inTb = false → g.row < (s.m.ctl.arr die array).stopRow →
    Completes (.arrayBeat die array []) s (fun t =>
      (∀ nn < g.d.tileCols x.pass.tile,
        Tab.get (accClear g.d.op) (t.m.ctl.arr die array).bank (bankKey 0 g.row nn)
          = (g.d.merge (s.m.ctl.logTab die) (entryFor g.d x.pass (s.m.ctl.arr die array).bank (bankKey 0 g.row nn))
              (s.m.aRow g.d 0 g.row x.pass.chunk).1 (x.col g.d 0 nn)).1)
      ∧ (∀ key z, (∀ nn < g.d.tileCols x.pass.tile, key ≠ bankKey 0 g.row nn) →
          Tab.get z (t.m.ctl.arr die array).bank key = Tab.get z (s.m.ctl.arr die array).bank key)
      ∧ t.m.ctl.rd Fld.ma_BEAT_BEATS (maInst die array) = (s.m.ctl.rd Fld.ma_BEAT_BEATS (maInst die array) + 1) % 2 ^ 64)) ∧
  (∀ (die array : Nat) (r : Bool) (g : GroupRun) (rd : Readout) (s : State), s.wf = true → s.m.ctl.dieUp die = true →
    (s.m.ctl.arr die array).toRead = some (r, g, rd) → s.m.ctl.cowWaits die g.queue g.seq = false → s.m.readTurn die g rd = true →
    Completes (.readoutRow die array) s (fun t =>
      let b := s.m.ctl.beginRead g.d rd
      let m := ({ s.m with ctl := b.2 } : Module).onCtl (·.setGrp die array r { g with readouts := b.1 :: g.readouts.drop 1 })
      let o := m.readRow g.d b.1 (m.ctl.arr die array).bank g.side false
      let goes := m.ctl.rowFree g.d o = true ∧ m.ctl.rowStall g.d o = none
      (goes → (∀ a, memByte t.m.mem a = memByte (m.writeRow g.d o).mem a)
        ∧ ((t.m.ctl.arr die array).grp r).map (fun y => (y.readouts, y.side)) = some
            (if g.d.m ≤ rd.row + 1 then g.readouts.drop 1 else { b.1 with row := rd.row + 1 } :: g.readouts.drop 1, o.keep))
      ∧ (¬ goes → s.sameMem t ∧ ((t.m.ctl.arr die array).grp r).map (·.readouts) = some (b.1 :: g.readouts.drop 1))
      ∧ (rd.stale = false → (t.m.ctl.arr die array).bank = (s.m.ctl.arr die array).bank)
      ∧ (∀ a, (∀ p ∈ putSpans g.d.tc o.writes o.res.scales ++ putSpans g.d.tsout o.side [], a < p.1 ∨ p.1 + p.2 ≤ a) →
          memByte t.m.mem a = memByte s.m.mem a)))

/-- R95 to R98: blocks in the window are added exactly, whatever their order; one above it sets a sticky flag and raises XOVF once
for the entry; one below it adds nothing and raises XUNF; a sum that leaves 96 bits clamps and is held. -/
def Obligations.FixedSumsAreExact : Prop :=
  (∀ (fr : FrameQ) (xb : Int) (e : AccEntry) (l : List Term), e.clamped = false →
    (∀ t ∈ l, 0 ≤ t.xs - xb ∧ t.xs - xb ≤ fr.h) →
    let v := e.fixed + (l.map (fun t : Term => t.p * t.gs * (2 : Int) ^ (t.xs - xb).toNat)).sum
    (-(2 ^ 95 : Int) ≤ v → v < 2 ^ 95 → mergeFixed fr xb e l = ({ e.mark l with fixed := v }, []))
    ∧ (2 ^ 95 ≤ v → mergeFixed fr xb e l = ({ e.mark l with fixed := 2 ^ 95 - 1, clamped := true }, [8]))
    ∧ (v < -(2 ^ 95 : Int) → mergeFixed fr xb e l = ({ e.mark l with fixed := -(2 ^ 95 : Int), clamped := true }, [8]))) ∧
  (∀ (fr : FrameQ) (xb : Int) (e : AccEntry) (l l' : List Term), l.Perm l' → (mergeFixed fr xb e l).1 = (mergeFixed fr xb e l').1) ∧
  (∀ (fr : FrameQ) (xb : Int) (e : AccEntry) (l : List Term), e.clamped = true → (mergeFixed fr xb e l).1.fixed = e.fixed) ∧
  (∀ (fr : FrameQ) (xb : Int) (e : AccEntry) (t : Term), -(2 ^ 95 : Int) ≤ e.fixed → e.fixed < 2 ^ 95 → t.p * t.gs ≠ 0 →
    (fr.h < t.xs - xb → 0 < t.p * t.gs →
      mergeFixed fr xb e [t] = ({ e.mark [t] with xp := true }, if e.xp = true ∨ e.xn = true then [] else [6]))
    ∧ (fr.h < t.xs - xb → t.p * t.gs < 0 →
      mergeFixed fr xb e [t] = ({ e.mark [t] with xn := true }, if e.xp = true ∨ e.xn = true then [] else [6]))
    ∧ (0 ≤ fr.h → t.xs - xb < 0 → mergeFixed fr xb e [t] = (e.mark [t], [7])))

/-! ## Vector units -/

/-- R190, R192, R202, R210: a chain begins once, in its turn (R75), and takes its window; a step that waits on a tile buffer slot is
counted and does nothing else; a step within a row advances the chain; the step that ends a row holds it back until its blocks are
whole (R64), or converts and writes what is held and the row, and no other byte, unless the drain holds the write back.
Besides the rules, the model's choices and readings of log entries 85, 99 and 161. -/
def Obligations.ChainsStepByStep : Prop :=
  (∀ (die vu : Nat) (r : ChainRun) (s : State), s.m.ctl.dieUp die = true → (s.m.ctl.vu die vu).run = some r →
    (r.started = true ∨ s.m.chainTurn r = false → exec (.vchain die vu) s = .next s) ∧
    (r.started = false → s.m.chainTurn r = true → r.d.die = die → r.d.vu = vu → Completes (.vchain die vu) s (fun t =>
      (t.m.ctl.vu die vu).run = some { r with
        started := true
        base := ((s.m.ctl.amaxFirst die r.d.cvt).window die (vuUnit vu) r.d.cvt (if r.d.dstVreg then none else some r.d.td.idx)
          (if r.d.reduces then r.d.rows else r.d.rows * cdiv r.d.cols 256)).1 }
      ∧ t.m.ctl.on Fld.vu_VU_STATE_BUSY (vuInst die vu) = true ∧ s.sameMem t))) ∧
  (∀ (die vu : Nat) (r : ChainRun) (s : State), s.m.ctl.dieUp die = true → (s.m.ctl.vu die vu).run = some r → r.started = true →
    r.done = false → s.m.ctl.cowWaits die r.queue r.seq = false → r.d.die = die → r.d.vu = vu →
    (r.waits s.m.ctl = true → Completes (.vectorStep die vu) s (fun t => t.m.ctl.dies = s.m.ctl.dies ∧ s.sameMem t
      ∧ t.m.ctl.on Fld.vu_VU_STATE_TB_WAIT (vuInst die vu) = true
      ∧ t.m.ctl.rd Fld.vu_TBWAIT_STEPS (vuInst die vu) = (s.m.ctl.rd Fld.vu_TBWAIT_STEPS (vuInst die vu) + 1) % 2 ^ 64)) ∧
    (r.waits s.m.ctl = false → r.endsRow = false → Completes (.vectorStep die vu) s (fun t =>
      (t.m.ctl.vu die vu).run = some (if r.unit + 1 < r.d.cost then { r with unit := r.unit + 1 } else { r with unit := 0, grp := r.grp + 1 })
      ∧ t.m.ctl.on Fld.vu_VU_STATE_TB_WAIT (vuInst die vu) = false
      ∧ t.m.ctl.rd Fld.vu_STEPS (vuInst die vu) = (s.m.ctl.rd Fld.vu_STEPS (vuInst die vu) + 1) % 2 ^ 64 ∧ s.sameMem t)) ∧
    (r.waits s.m.ctl = false → r.endsRow = true → Completes (.vectorStep die vu) s (fun t =>
      let m := s.m.onCtl (·.wr Fld.vu_VU_STATE_TB_WAIT 0 (vuInst die vu))
      let rows := r.held ++ [(m.chainRow r.d r.row).outs]
      let q := m.convertRows r rows
      let outs := allOuts q (r.d.zeros (r.row - r.held.length) rows)
      let stalls := r.d.dstVreg = false ∧ m.ctl.putBlock r.d.td outs q.scales ≠ none
      let counted := (∀ x ∈ [r.d.ta, r.d.tb, r.d.tmask, r.d.td], x.tb < 4) →
        t.m.ctl.rd Fld.vu_STEPS (vuInst die vu) = (s.m.ctl.rd Fld.vu_STEPS (vuInst die vu) + 1) % 2 ^ 64
      t.m.ctl.on Fld.vu_VU_STATE_TB_WAIT (vuInst die vu) = false
      ∧ (r.d.holds r.row = true → s.sameMem t
          ∧ (t.m.ctl.vu die vu).run.map (fun x => (x.row, x.unit, x.grp, x.held, x.done)) = some (r.row + 1, 0, 0, rows, false) ∧ counted)
      ∧ (r.d.holds r.row = false → stalls → s.sameMem t ∧ (t.m.ctl.vu die vu).run = some r
          ∧ t.m.ctl.rd Fld.vu_STEPS (vuInst die vu) = s.m.ctl.rd Fld.vu_STEPS (vuInst die vu))
      ∧ (r.d.holds r.row = false → ¬ stalls →
          (∀ a, memByte t.m.mem a = memByte (if r.d.dstVreg then m else (m.put die r.d.td outs).putScales die (vuUnit vu) q.scales).mem a)
          ∧ (t.m.ctl.vu die vu).run.map (fun x => (x.row, x.unit, x.grp, x.held, x.vout, x.done)) = some (r.row + 1, 0, 0, [],
              if r.d.dstVreg then r.vout ++ r.d.vwords outs else r.vout, decide (r.d.rows ≤ r.row + 1)) ∧ counted)
      ∧ (s.wf = true → ∀ a, (∀ p ∈ putSpans r.d.td outs q.scales, a < p.1 ∨ p.1 + p.2 ≤ a) → memByte t.m.mem a = memByte s.m.mem a)))) ∧
  (∀ (die vu buf : Nat) (r : ChainRun) (s : State), s.m.ctl.dieUp die = true → (s.m.ctl.vu die vu).run = some r →
    (r.d.usesTb buf = true → r.waits s.m.ctl = false → Completes (.tileBufferSlotReady die vu buf) s (fun t =>
      t.m.ctl.on Fld.vu_VU_STATE_TB_WAIT (vuInst die vu) = false ∧ t.m.ctl.dies = s.m.ctl.dies ∧ s.sameMem t)) ∧
    (r.d.usesTb buf = false ∨ r.waits s.m.ctl = true → exec (.tileBufferSlotReady die vu buf) s = .next s))

/-- R193: a core's write of a vector register takes effect at once, or is held while a running or queued chain of the unit names the
register, or while it stands behind a held write of the same word; a held write takes effect once the chains it waits for are done. -/
def Obligations.VectorRegisterWrites : Prop :=
  (∀ (die vu n i w : Nat) (s : State), s.m.ctl.dieUp die = true → vu < 16 → n < 32 → i < 256 →
    let behind := (((s.m.ctl.vu die vu).held.filter (fun p => p.word == 256 * n + i)).map (·.chains)).flatten
    (s.m.vregUsers die vu n = [] → behind = [] → Completes (.vregWrite die vu n i w) s (fun t => t.m.ctl.vreg die vu n i = w % 2 ^ 32
      ∧ (∀ n' i', n' < 32 → i' < 256 → (n', i') ≠ (n, i) → t.m.ctl.vreg die vu n' i' = s.m.ctl.vreg die vu n' i')
      ∧ t.m.ctl.dies = s.m.ctl.dies ∧ s.sameMem t)) ∧
    (s.m.vregUsers die vu n ≠ [] ∨ behind ≠ [] → Completes (.vregWrite die vu n i w) s (fun t =>
      (t.m.ctl.vu die vu).held = (s.m.ctl.vu die vu).held ++ [⟨256 * n + i, w, s.m.vregUsers die vu n ++ behind⟩]
      ∧ (∀ n' i', n' < 32 → i' < 256 → t.m.ctl.vreg die vu n' i' = s.m.ctl.vreg die vu n' i')
      ∧ t.m.ctl.on Fld.vu_VU_STATE_VR_HOLD (vuInst die vu) = true ∧ s.sameMem t))) ∧
  (∀ (die vu : Nat) (s : State), s.m.ctl.dieUp die = true → (s.m.ctl.vu die vu).held ≠ [] →
    Completes (.vregWriteEffect die vu) s (fun t =>
      (t.m.ctl.vu die vu).held = (s.m.ctl.vu die vu).held.filter (s.m.ctl.die die).holdsWrite
      ∧ (t.m.ctl.on Fld.vu_VU_STATE_VR_HOLD (vuInst die vu) = true ↔ (t.m.ctl.vu die vu).held ≠ [])
      ∧ (∀ a p b, (s.m.ctl.vu die vu).held = a ++ p :: b → (s.m.ctl.die die).holdsWrite p = false → p.word < 8192 →
          (∀ q ∈ b, q.word = p.word → (s.m.ctl.die die).holdsWrite q = true) →
          t.m.ctl.vreg die vu (p.word / 256) (p.word % 256) = p.value % 2 ^ 32)
      ∧ (∀ n i, n < 32 → i < 256 →
          (∀ p ∈ (s.m.ctl.vu die vu).held, p.word = 256 * n + i → (s.m.ctl.die die).holdsWrite p = true) →
          t.m.ctl.vreg die vu n i = s.m.ctl.vreg die vu n i)
      ∧ s.sameMem t)) ∧
  (∀ (die vu : Nat) (s : State), (s.m.ctl.vu die vu).held = [] → exec (.vregWriteEffect die vu) s = .next s)

/-- R204: row sums do not depend on the order of their terms. R207: a row in which nothing participates gives its identity and is
flagged EMPTY (event 15). R209: the edge cases of softmax, in their order. -/
def Obligations.RowStagesAndTheirEdges : Prop :=
  (∀ (st : Stage) (ints : Bool) (l l' : List (Nat × LWord)), st.sop = 0x30 ∨ st.sop = 0x36 ∨ st.sop = 0x37 → l.Perm l' →
    reduceRow st ints l = reduceRow st ints l') ∧
  (∀ (m : Module) (d : ChainDesc) (st : Stage) (r : Nat), d.rowStage = some st → st.sop ≠ 0x38 →
    (∀ c < d.cols, m.maskOk d r c = false) →
    15 ∈ (m.chainRow d r).ev ∧ ∃ w, (m.chainRow d r).outs = [⟨w, true⟩]
      ∧ (st.sop = 0x31 → w = .f 0x3F800000) ∧ (st.sop = 0x34 ∨ st.sop = 0x35 → w = .i (-1))
      ∧ (st.sop = 0x36 ∨ st.sop = 0x37 → w = .f 0)) ∧
  (∀ (b : Bool) (l : List Val),
    (l = [] → smxRow b l = ([], some 16)) ∧
    (Val.nan ∈ l → smxRow b l = (l.map (fun _ => 0x7FC00000), some 18)) ∧
    (Val.nan ∉ l → Val.inf false ∈ l → (smxRow b l).2 = some 17 ∧ (smxRow b l).1.length = l.length
      ∧ ∀ (i : Nat) (v : Val), l[i]? = some v → (smxRow b l).1[i]? =
          some (if v = Val.inf false then fp32Round (.fin false ⟨1, l.count (Val.inf false)⟩) else 0)) ∧
    (l ≠ [] → (∀ v ∈ l, v = Val.inf true) → smxRow b l = (l.map (fun _ => 0), some 16)))

/-! ## Steering and the Lantern -/

/-- Table 6-5, R167, R174: the order of recompute attempts. R168: an attempt asks for its grant, then runs. R172: a fallback writes the
wider format and `FELL_BACK` and holds the layer's signals. R175: a comparison counts its tile once.
Besides the rules, the model's choices and readings of log entries 112 and 113. -/
def Obligations.RecomputeFallbackAndCompare : Prop :=
  (∀ (c : Ctl) (g : GroupRun) (tile a : Nat), c.serialRole g.d = false → 0 < a → a < 255 →
    (a ≤ c.policy 3 → g.fails tile = (true, false) → g.d.xbase + 2 * a ≤ 127 →
      c.attemptOf g tile a = .retry { g.d with xbase := g.d.xbase + 2 * a }) ∧
    (a ≤ c.policy 3 → g.fails tile = (false, true) → g.d.cvt.scaleSrc = 1 → g.d.cvt.oscale / 8 + 2 * a ≤ 30 →
      c.attemptOf g tile a = .retry { g.d with cvt := { g.d.cvt with oscale := g.d.cvt.oscale + 16 * a } }) ∧
    (a ≤ c.policy 3 → g.fails tile = (false, true) → g.d.cvt.scaleSrc ≠ 1 →
      c.attemptOf g tile a = (match c.fallFmt g.d with | some f => .fall f | none => .exhausted)) ∧
    (c.policy 3 < a → c.attemptOf g tile a = (match c.fallFmt g.d with | some f => .fall f | none => .exhausted)) ∧
    (c.policy 0 ≠ 0 ∨ ((c.die g.d.die).planOf g.d.layer).fixedP = true → c.fallFmt g.d = none)) ∧
  (∀ (die q n p tile : Nat) (x : Desc) (g : GroupRun) (rest : List Nat) (s : State), s.m.ctl.dieUp die = true →
    s.m.ctl.desc die q n = some x → s.m.ctl.groupOf die q n = some (p, g) → g.done = true → (x.recompOf g).tiles = tile :: rest →
    (s.m.ctl.attemptOf g tile (x.recompOf g).attempt = .exhausted →
      Completes (.recomputeAttempt die q n) s (fun t =>
        (t.m.ctl.desc die q n).map (·.recomp) = some (some (x.recompOf g).nextTile)
        ∧ t.m.ctl.job.exhausted = s.m.ctl.job.exhausted + 1 ∧ s.sameMem t)) ∧
    (∀ d, s.m.ctl.attemptOf g tile (x.recompOf g).attempt = .retry d → (x.recompOf g).granted = false →
      Completes (.recomputeAttempt die q n) s (fun t => t.m.ctl.hp.knows (.attempt die q n) = true
        ∧ (t.m.ctl.arr die p).bank = (s.m.ctl.arr die p).bank ∧ s.sameMem t)) ∧
    (∀ d, s.m.ctl.attemptOf g tile (x.recompOf g).attempt = .retry d → (x.recompOf g).granted = true →
      Completes (.recomputeAttempt die q n) s (fun t => ∃ r, (t.m.ctl.desc die q n).map (·.recomp) = some (some r)
        ∧ r.granted = false ∧ (r.tiles = rest ∨ (r.tiles = tile :: rest ∧ r.attempt = (x.recompOf g).attempt + 1)))) ∧
    (∀ f, s.m.ctl.attemptOf g tile (x.recompOf g).attempt = .fall f →
      Completes (.fallback die q n) s (fun t =>
        (∀ old, ((s.m.ctl.die die).planOf g.d.layer).fmt[g.d.role - 1]? = some old →
          ((t.m.ctl.die die).planOf g.d.layer).fmt[g.d.role - 1]? = some f)
        ∧ (∀ old, ((s.m.ctl.die die).planOf g.d.layer).fellBack[g.d.role - 1]? = some old →
          ((t.m.ctl.die die).planOf g.d.layer).fellBack[g.d.role - 1]? = some true)
        ∧ (∀ l, l ≠ g.d.layer → (t.m.ctl.die die).planOf l = (s.m.ctl.die die).planOf l)
        ∧ ((t.m.ctl.die die).fall g.d.layer g.d.role).isSome = true
        ∧ (t.m.ctl.desc die q n).map (fun y => y.recomp.map (fun r => (r.attempt, r.tiles))) = some (some (255, tile :: rest))
        ∧ t.m.ctl.job.fallbacks = s.m.ctl.job.fallbacks + 1 ∧ t.m.ctl.regs = s.m.ctl.regs ∧ s.sameMem t))) ∧
  (∀ (die q n p tile : Nat) (x : Desc) (g : GroupRun) (s : State), s.m.ctl.dieUp die = true →
    s.m.ctl.desc die q n = some x → s.m.ctl.groupOf die q n = some (p, g) → g.done = true → (x.recompOf g).tiles = [] →
    tile ∈ s.m.ctl.toCompare g →
    ((x.recompOf g).granted = false → Completes (.sampledAgreeCompare die q n tile) s (fun t =>
      t.m.ctl.hp.knows (.attempt die q n) = true ∧ s.sameMem t)) ∧
    ((x.recompOf g).granted = true → Completes (.sampledAgreeCompare die q n tile) s (fun t =>
      (t.m.ctl.arr die p).run.map (·.compared) = some (g.compared ++ [tile]) ∧ s.sameMem t)))

/-- R154, R156, R158, R159: merges are counted where the Lantern is enabled and the layer exists, and do not depend on their order; a
write of `COMMIT` or `DISCARD` waits for the merges before it, and its effect is on every layer of the die. R65: a capture slot is
cleared.
Besides the rules, the model's choices and readings of log entries 97 and 124. -/
def Obligations.LanternMergesCommitsDiscards : Prop :=
  (∀ (r a b : RoleStat), (r.merge a).merge b = (r.merge b).merge a) ∧
  (∀ (r a b : WideStat), (r.merge a).merge b = (r.merge b).merge a) ∧
  (∀ (c : Ctl) (die epoch layer role : Nat) (d : RoleStat),
    (role = 0 ∨ c.on Fld.ln_LN_CTRL_ENABLE die = false → c.roleMerge die epoch layer role d = c) ∧
    (role ≠ 0 → c.on Fld.ln_LN_CTRL_ENABLE die = true → c.rd Fld.ln_LN_LAYERS_COUNT die ≤ layer →
      (c.roleMerge die epoch layer role d).dies = c.dies
      ∧ (c.roleMerge die epoch layer role d).rd Fld.ln_LN_BADLAYER_COUNT die = min (c.rd Fld.ln_LN_BADLAYER_COUNT die + 1) (2 ^ 32 - 1)) ∧
    (role ≠ 0 → c.on Fld.ln_LN_CTRL_ENABLE die = true → layer < c.rd Fld.ln_LN_LAYERS_COUNT die → (c.die die).fence = none →
      let old := Tab.get LayerRec.reset (c.die die).layers layer
      let new := Tab.get LayerRec.reset ((c.roleMerge die epoch layer role d).die die).layers layer
      new.comm = old.comm ∧ new.runmax = old.runmax ∧ new.cWide = old.cWide
      ∧ (∀ r, new.prov[r]? = if r = role - 1 then old.prov[r]?.map (·.merge d) else old.prov[r]?)
      ∧ ∀ l, l ≠ layer → Tab.get LayerRec.reset ((c.roleMerge die epoch layer role d).die die).layers l
          = Tab.get LayerRec.reset (c.die die).layers l)) ∧
  (∀ (die : Nat) (commit : Bool) (s : State), s.m.ctl.dieUp die = true →
    let i : Instr := if commit then .commit die else .discard die
    ((s.m.ctl.die die).fence ≠ none → Completes i s (fun t => t.m.ctl.die die = s.m.ctl.die die ∧ s.sameMem t)) ∧
    ((s.m.ctl.die die).fence ≠ none → s.m.ctl.Unwatched die → exec i s = .next s) ∧
    ((s.m.ctl.die die).fence = none → Completes i s (fun t => (t.m.ctl.die die).fence = some commit
      ∧ (t.m.ctl.die die).epoch = (s.m.ctl.die die).epoch + 1 ∧ (t.m.ctl.die die).layers = (s.m.ctl.die die).layers
      ∧ t.m.ctl.on Fld.ln_LN_STATUS_FENCE die = true ∧ s.sameMem t))) ∧
  (∀ (die : Nat) (commit : Bool) (s : State), s.m.ctl.dieUp die = true → (s.m.ctl.die die).fence = some commit →
    ((s.m.ctl.die die).before = true → exec (.lanternFenceEffect die) s = .next s) ∧
    ((s.m.ctl.die die).before = false → (s.m.ctl.die die).late = [] →
      Completes (.lanternFenceEffect die) s (fun t => (t.m.ctl.die die).fence = none
        ∧ t.m.ctl.on Fld.ln_LN_STATUS_FENCE die = false ∧ t.m.ctl.on Fld.ln_LN_STATUS_CNT_SAT die = false
        ∧ (∀ l,
            let old := Tab.get LayerRec.reset (s.m.ctl.die die).layers l
            let new := Tab.get LayerRec.reset (t.m.ctl.die die).layers l
            new.prov = List.replicate 3 RoleStat.reset ∧ new.pWide = WideStat.reset
            ∧ new.comm = (if commit then old.prov else old.comm) ∧ new.cWide = (if commit then old.pWide else old.cWide)
            ∧ (commit = false → new.runmax = old.runmax)
            ∧ (commit = true → ∀ (r : Nat) (p : RoleStat) (v : Nat), old.prov[r]? = some p → old.runmax[r]? = some v →
                new.runmax[r]? = some (max p.amax (decayed (s.m.ctl.rd Fld.ln_LN_DECAY_SHIFT die) v))))
        ∧ s.sameMem t))) ∧
  (∀ (die slot : Nat) (s : State), s.m.ctl.dieUp die = true → slot < 64 →
    Completes (.amaxClr die slot) s (fun t => t.m.ctl.rd Fld.gen_AMAXnn_VALUE die slot = 0
      ∧ (∀ j < 64, j ≠ slot → t.m.ctl.rd Fld.gen_AMAXnn_VALUE die j = s.m.ctl.rd Fld.gen_AMAXnn_VALUE die j)
      ∧ t.m.ctl.dies = s.m.ctl.dies ∧ s.sameMem t))

/-! ## Routed work -/

/-- R220: choices in descending key, the lower expert first among equals. R223: slots in ascending key without gaps, never more than the
capacity under GLOBAL. R229: the copies of a pass group cover R rows, none with more than Mmax. `rt.topk` writes the choice records of
the tokens whose rows may be read (R192), all of them where no source is in a tile buffer, and ends with the last token; `rt.exloop` puts
its copies in order at the tails of their queues' rings, stops before the first whose ring is full, and ends with the last.
Besides the rules, the model's choices and readings of log entries 85, 100 and 106. -/
def Obligations.ChoicesAdmissionAndCopies : Prop :=
  (∀ (k : Nat) (l : List (Nat × Nat)), (∀ p ∈ l, (fp32Val p.2).isNan = false) → l.Pairwise (fun a b => a.1 < b.1) →
    let ch := topChoices k l
    ch.length = min k l.length ∧
    (∀ (i j : Nat) (p q : Nat × Nat), p ∈ l → q ∈ l → ch[i]? = some p.1 → (i < j ∧ ch[j]? = some q.1) ∨ q.1 ∉ ch →
      (fp32Val q.2).lt (fp32Val p.2) = true ∨ ((fp32Val p.2).lt (fp32Val q.2) = false ∧ p.1 < q.1))) ∧
  (∀ (cap : Nat) (l : List (Nat × Nat × Nat × Nat × Nat)),
    let sp := admitList cap true 0 l
    sp.length = l.length ∧ (sp.map (·.n)).sum ≤ cap ∧
    (∀ (i : Nat) (x : Span), sp[i]? = some x → x.base = ((sp.take i).map (·.n)).sum) ∧
    (∀ (i : Nat) (x : Span) (y : Nat × Nat × Nat × Nat × Nat), sp[i]? = some x → l[i]? = some y →
      x.n ≤ y.2.2.2.2 ∧ (x.n < y.2.2.2.2 → ∀ (j : Nat) (z : Span), i < j → sp[j]? = some z → z.n = 0))) ∧
  (∀ (mmax r : Nat), 0 < mmax →
    ((copyParts 0x10 mmax r).map (fun p => p.1.getD 0)).sum = r ∧
    (∀ p ∈ copyParts 0x10 mmax r, p.1.getD 0 ≤ mmax) ∧
    (∀ (i : Nat) (p : Option Nat × Nat), (copyParts 0x10 mmax r)[i]? = some p → p.2 = mmax * i)) ∧
  (∀ (die q n : Nat) (b : List Nat) (r : RouteRun) (s : State), s.m.ctl.dieUp die = true →
    s.m.ctl.routeRun die q n 0x30 = some (b, r) → r.event ≠ 7 →
    let d := r.topk (s.m.ctl.die die) die b
    let ts := s.m.ctl.topkReady d r.next
    ((∀ p ∈ d.common, p.1.inTb = false) → d.logit.inTb = false → ts = (List.range (d.t - r.next)).map (r.next + ·)) ∧
    (ts = [] → exec (.rtTopk die q n) s = .next s) ∧
    (ts ≠ [] → Completes (.rtTopk die q n) s (fun t =>
      (∃ r', t.m.ctl.routeRun die q n 0x30 = some (b, r') ∧ r'.next = r.next + ts.length
        ∧ r'.event = (if r.next + ts.length = d.t then 7 else 1)
        ∧ (bit r'.stat 2 = true ↔ bit r.stat 2 = true ∨ ∃ k ∈ ts, (s.m.topkToken d k).2.1 = true))
      ∧ ∀ a, memByte t.m.mem a = memByte (s.m.putThrough die (0x60 + d.vu) (some (q, n)) d.choice
          (choiceOuts d.choice d.k ((ts.map (s.m.topkToken d)).map (·.1)).flatten) []).mem a))) ∧
  (∀ (die q n : Nat) (b : List Nat) (r : RouteRun) (s : State), s.m.ctl.dieUp die = true →
    s.m.ctl.routeRun die q n 0x32 = some (b, r) → r.event ≠ 7 →
    let copies := s.m.exloopCopies die (s.m.ctl.offOf die q n) b
    let noTick := fun (x : Slot) => { x with tick := 0 }
    Completes (.rtExloop die q n) s (fun t => s.sameMem t ∧ ∃ r', t.m.ctl.routeRun die q n 0x32 = some (b, r')
      ∧ r.next ≤ r'.next ∧ r'.skipped = copies.2 ∧ r'.event = (if copies.1.length ≤ r'.next then 7 else 1)
      ∧ (∀ k, (t.m.ctl.queue die k).ring.map noTick = (s.m.ctl.queue die k).ring.map noTick
          ++ (((copies.1.drop r.next).take (r'.next - r.next)).filter (fun p => p.1 == k)).map (·.2))
      ∧ ∀ x, copies.1[r'.next]? = some x → t.m.ctl.ringFull die x.1 = true))

/-- R226, R228, R232, R237, Table 8-6: a dispatch that has sent its counts; count blocks, answers and rows are taken once, damaged ones and
rows no slot waits for not at all; an expired wait is counted once and ends; a combine begins, sends its rows once the last of them may be
read (R192) and it need not wait for power (R230), takes each return once, and a wait that expires is counted and, where no earlier
descriptor keeps it from its window (R75), ends it.
Besides the rules, the model's choices and readings of log entries 104, 105, 161 and 192. -/
def Obligations.DispatchAndCombine : Prop :=
  (∀ (die q n : Nat) (b : List Nat) (r : RouteRun) (s : State), s.m.ctl.dieUp die = true →
    s.m.ctl.routeRun die q n 0x31 = some (b, r) → (r.move (s.m.ctl.die die) die b).die = die →
    let d := r.move (s.m.ctl.die die) die b
    Completes (.rtDisp die q n) s (fun t => ∃ r', t.m.ctl.routeRun die q n 0x31 = some (b, r') ∧ 2 ≤ r'.event) ∧
    (∀ rank src bytes, (rank, src) ∈ r.heard ∨ r.decided = true → exec (.countBlockReceive die q n rank src bytes) s = .next s) ∧
    (∀ rank src bytes, (rank, src) ∉ r.heard → r.decided = false →
      Completes (.countBlockReceive die q n rank src bytes) s (fun t =>
        ∃ r', t.m.ctl.routeRun die q n 0x31 = some (b, r') ∧ (rank, src) ∈ r'.heard)) ∧
    (∀ rank src, r.event < 2 → exec (.dispatchCountTimeout die q n rank src) s = .next s) ∧
    (∀ rank src, (rank, src) ∉ r.heard → r.decided = false → 2 ≤ r.event → s.m.ctl.unheard die b r dispKinds = false →
      Completes (.dispatchCountTimeout die q n rank src) s (fun t =>
        (∃ r', t.m.ctl.routeRun die q n 0x31 = some (b, r') ∧ (rank, src) ∈ r'.heard ∧ bit r'.stat 4 = true)
        ∧ t.m.ctl.rd Fld.rt_RT_TIMEOUT_CNT_COUNT die = (if r.countsLate then s.m.ctl.rd Fld.rt_RT_TIMEOUT_CNT_COUNT die
            else min (s.m.ctl.rd Fld.rt_RT_TIMEOUT_CNT_COUNT die + 1) (2 ^ 32 - 1)))) ∧
    (∀ rank own bytes, (rank, own) ∈ r.owners → exec (.admittedCountReturn die q n rank own bytes) s = .next s) ∧
    (∀ rank own bytes, (rank, own) ∉ r.owners →
      Completes (.admittedCountReturn die q n rank own bytes) s (fun t =>
        ∃ r', t.m.ctl.routeRun die q n 0x31 = some (b, r') ∧ (rank, own) ∈ r'.owners)) ∧
    (∀ (rank src : Nat) (bytes : List Nat),
      let due := s.m.ctl.rowDue d (s.m.ctl.owned d (s.m.experts d)) r (fieldAt bytes 0 2) (fieldAt bytes 4 4) rank src
      (blockOk bytes = false ∨ due = false → exec (.routeRowReceive die q n rank src bytes) s = .next s) ∧
      (blockOk bytes = true → due = true → Completes (.routeRowReceive die q n rank src bytes) s (fun t =>
        ∃ r', t.m.ctl.routeRun die q n 0x31 = some (b, r') ∧ (fieldAt bytes 0 2, fieldAt bytes 4 4) ∈ r'.rowsIn))) ∧
    (r.decided = true → r.expired = false → r.missing ≠ [] → s.m.ctl.unheard die b r dispKinds = false →
      Completes (.dispatchRowTimeout die q n) s (fun t =>
        (∃ r', t.m.ctl.routeRun die q n 0x31 = some (b, r') ∧ r'.expired = true ∧ bit r'.stat 4 = true)
        ∧ t.m.ctl.rd Fld.rt_RT_TIMEOUT_CNT_COUNT die = min (s.m.ctl.rd Fld.rt_RT_TIMEOUT_CNT_COUNT die + 1) (2 ^ 32 - 1)))) ∧
  (∀ (die q n : Nat) (b : List Nat) (r : RouteRun) (s : State), s.m.ctl.dieUp die = true →
    s.m.ctl.routeRun die q n 0x33 = some (b, r) → (r.move (s.m.ctl.die die) die b).die = die →
    let d := r.move (s.m.ctl.die die) die b
    let moves := s.m.ctl.rowMoves d (s.m.experts d) (dropAbsent (s.m.experts d) (s.m.choices d))
    (r.event = 7 → exec (.rtComb die q n) s = .next s) ∧
    (r.event ≠ 7 → Completes (.rtComb die q n) s (fun t => ∃ r', t.m.ctl.routeRun die q n 0x33 = some (b, r') ∧ 4 ≤ r'.event)) ∧
    (r.event < 5 → r.asked = false ∨ r.granted = true → (r.event < 4 → s.m.movedBytes d moves ≤ 0x100000 ∨ r.granted = true) →
      moves.length ≤ r.next + (s.m.movesReady d moves r.next).length →
      Completes (.rtComb die q n) s (fun t =>
        ∃ r', t.m.ctl.routeRun die q n 0x33 = some (b, r') ∧ r'.sent = true ∧ (r'.event = 5 ∨ r'.event = 7))) ∧
    (∀ rank own bytes, blockOk bytes = false ∨ r.event = 7 → exec (.combineReturnReceive die q n rank own bytes) s = .next s) ∧
    (∀ (rank own : Nat) (bytes : List Nat) (x : Expert), blockOk bytes = true → r.event ≠ 7 →
      (s.m.experts d).getD (fieldAt bytes 0 2) none = some x → x.rank = rank → x.die = own →
      (∀ p ∈ r.returns, (p.1, p.2.1) ≠ (fieldAt bytes 0 2, fieldAt bytes 4 4)) →
      Completes (.combineReturnReceive die q n rank own bytes) s (fun t => ∃ r', t.m.ctl.routeRun die q n 0x33 = some (b, r')
        ∧ (fieldAt bytes 0 2, fieldAt bytes 4 4, if bytes.getD 2 0 = 0x0F then none else some (RowImg.ofBlock d.rows.cols bytes)) ∈ r'.returns)) ∧
    (r.event ≠ 5 → exec (.combineReturnTimeout die q n) s = .next s) ∧
    (r.event = 5 → s.m.ctl.unheard die b r [.back] = false → Completes (.combineReturnTimeout die q n) s (fun t =>
      (∃ r', t.m.ctl.routeRun die q n 0x33 = some (b, r') ∧ r'.expired = true ∧ bit r'.stat 4 = true
        ∧ (s.m.combTurn die q n d = true → r'.event = 7))
      ∧ t.m.ctl.rd Fld.rt_RT_TIMEOUT_CNT_COUNT die = min (s.m.ctl.rd Fld.rt_RT_TIMEOUT_CNT_COUNT die + 1) (2 ^ 32 - 1))))

/-! ## Collectives -/

/-- R341, R344, R192: a die's descriptor takes the rows of a source in a tile buffer as they stand ready and joins its collective with the
last of them, and the collective starts once every die of `DIEMASK` has issued; a die that has not issued in time is left out, of a barrier too, and counted.
Besides the rules, the model's choices and readings of log entries 85 and 108. -/
def Obligations.CollectivesJoinAndStart : Prop :=
  (∀ (opc : Nat) (i : Nat → Nat → Nat → Instr), (opc, i) ∈ [(0x40, Instr.clAllreduce), (0x41, Instr.clReducescatter),
      (0x42, Instr.clAllgather), (0x43, Instr.clBcast), (0x44, Instr.clReduce), (0x45, Instr.clSend), (0x46, Instr.clRecv),
      (0x47, Instr.clBarrier)] →
    ∀ (die q n : Nat) (s : State),
      (∀ x, s.m.ctl.dieUp die = true → s.m.ctl.collReady die q n opc = some x →
        let left := s.m.ctl.collLeft x
        let k := s.m.ctl.readyRun die [] (x.d.src.rowsOf left)
        let held := x.held ++ (left.take k).map (fun row => (row, (List.range x.d.src.cols).map (s.m.elemCode die x.d.src row)))
        (x.d.src.inTb = false → left = []) ∧
        (k < left.length → Completes (i die q n) s (fun t => t.m.ctl.colls = s.m.ctl.colls ∧ s.sameMem t
          ∧ (t.m.ctl.desc die q n).map (·.work) = some (.coll x.d held))) ∧
        (k = left.length → Completes (i die q n) s (fun t => ∃ r, t.m.ctl.collRun x.d.group x.d.id = some r ∧ { x with held := held } ∈ r.issued
          ∧ ((s.m.ctl.group x.d.group).isSome = true → s.m.ctl.collRun x.d.group x.d.id = none → x.d.dies = [die] → r.started = true)
          ∧ (s.m.ctl.collRun x.d.group x.d.id = none → (∃ o ∈ x.d.dies, o ≠ die) → r.started = false ∧ s.sameMem t)))) ∧
      (s.m.ctl.collReady die q n opc = none → exec (i die q n) s = .next s)) ∧
  (∀ (group coll : Nat) (r : CollRun) (d : CollDesc) (s : State), s.m.ctl.collRun group coll = some r → r.head = some d →
    r.started = false → (s.m.ctl.group group).isSome = true →
    Completes (.dieIssueTimeout group coll) s (fun t =>
      (∃ r', t.m.ctl.collRun group coll = some r' ∧ r'.started = true ∧ r'.issued = r.issued
        ∧ ∀ o, o ∈ r'.leftOut ↔ o ∈ d.dies ∧ ∀ x ∈ r.issued, x.die ≠ o)
      ∧ (let out := (d.dies.filter (fun o => r.issued.all (fun x => x.die != o))).length
         t.m.ctl.rd Fld.ls_COLL_EXCL_CNT_COUNT = min (s.m.ctl.rd Fld.ls_COLL_EXCL_CNT_COUNT + out) (2 ^ 32 - 1))))

/-- R346, R348: an input is taken once; one that comes after its exclusion is counted late; a wait that expires excludes and counts what is
missing and combines the rest; a distributed chunk is taken once, and one that is lost is counted and posted (0x0505). R341: a barrier's
tokens.
Besides the rules, the model's choices and readings of log entries 108 and 111. -/
def Obligations.ChunksLossesAndBarriers : Prop :=
  (∀ (group coll k rank nc : Nat) (bytes : List Nat) (g : GroupEnt) (s : State), s.m.ctl.group group = some g → rank < g.members.length →
    (∀ r, s.m.ctl.wasExcluded group coll k rank = some r → Completes (.chunkReceive group coll k rank nc bytes) s (fun t =>
      t.m.ctl.rd Fld.ls_COLL_LATE_CNT_COUNT = min (s.m.ctl.rd Fld.ls_COLL_LATE_CNT_COUNT + 1) (2 ^ 32 - 1) ∧ s.sameMem t)) ∧
    (s.m.ctl.wasExcluded group coll k rank = none →
      (((s.m.ctl.collFor group coll).chunk k).inputs.any (fun i => i.1 == rank) = true →
        exec (.chunkReceive group coll k rank nc bytes) s = .next s) ∧
      (((s.m.ctl.collFor group coll).chunk k).inputs.any (fun i => i.1 == rank) = false →
        ((s.m.ctl.collFor group coll).chunk k).combined = false →
        Completes (.chunkReceive group coll k rank nc bytes) s (fun t => ∃ r, t.m.ctl.collRun group coll = some r
          ∧ ((r.chunk k).combined = true ∨ (rank, nc, bytes) ∈ (r.chunk k).inputs))))) ∧
  (∀ (group coll k : Nat) (r : CollRun) (x : CollCtx) (s : State), s.m.ctl.collRun group coll = some r → s.m.ctl.collCtx r = some x →
    r.started = true → x.d.reduces = true →
    ((r.chunk k).own.isSome = true → (r.chunk k).combined = false → (r.chunk k).missing (x.expected k) ≠ [] →
      Completes (.combineWaitTimeout group coll k) s (fun t =>
        let out := ((r.chunk k).missing (x.expected k)).length
        (∃ r', t.m.ctl.collRun group coll = some r' ∧ (r'.chunk k).combined = true
          ∧ ∀ o ∈ (r.chunk k).missing (x.expected k), o ∈ (r'.chunk k).excluded)
        ∧ t.m.ctl.rd Fld.ls_COLL_EXCL_CNT_COUNT = min (s.m.ctl.rd Fld.ls_COLL_EXCL_CNT_COUNT + out) (2 ^ 32 - 1)
        ∧ t.m.ctl.job.dropped = s.m.ctl.job.dropped + out))) ∧
  (∀ (group coll k : Nat) (bytes : List Nat) (s : State), (s.m.ctl.group group).isSome = true →
    (((s.m.ctl.collFor group coll).chunk k).dist = true → exec (.distributeReceive group coll k bytes) s = .next s) ∧
    (((s.m.ctl.collFor group coll).chunk k).dist = false →
      ((s.m.ctl.collFor group coll).chunk k).inputs.any (fun i => i.1 == 65535) = false →
      Completes (.distributeReceive group coll k bytes) s (fun t => ∃ r, t.m.ctl.collRun group coll = some r
        ∧ ((r.chunk k).dist = true ∨ (65535, 0, bytes) ∈ (r.chunk k).inputs)))) ∧
  (∀ (group coll k : Nat) (r : CollRun) (x : CollCtx) (s : State), s.m.ctl.collRun group coll = some r → s.m.ctl.collCtx r = some x →
    r.started = true → k < x.total → x.waits k = true → (r.chunk k).dist = false → (x.d.reduces = true → (r.chunk k).combined = true) →
    Completes (.distLost group coll k) s (fun t => (t.m.ctl.collRun group coll).map (fun r => (r.chunk k).dist) = some true
      ∧ t.m.ctl.rd Fld.ls_DIST_LOST_CNT_COUNT = min (s.m.ctl.rd Fld.ls_DIST_LOST_CNT_COUNT + 1) (2 ^ 32 - 1)
      ∧ (s.m.ctl.hasRoom 1 → r.held = [] → (∀ l, s.m.ctl.marked l = false) → s.m.ctl.Posted t.m.ctl 0x0505 1 dieHB 0xFF (le 2 group ++ [0, 0] ++ le 4 coll ++ le 4 k)))) ∧
  (∀ (group rank seq : Nat) (g : GroupEnt) (s : State), s.m.ctl.group group = some g → rank < g.members.length → rank ≠ g.rank →
    Completes (.barrierTokenReceive group rank seq) s (fun t => s.sameMem t
      ∧ (s.m.ctl.barriersOf group = [] → (⟨group, rank, seq⟩ : BarrierTok) ∈ t.m.ctl.barriers ∧ t.m.ctl.job = s.m.ctl.job)
      ∧ (∀ b, s.m.ctl.barriersOf group = [b] → seq = g.barrierSeq →
          (∀ o < g.members.length, o ≠ g.rank → o = rank ∨ (⟨group, o, seq⟩ : BarrierTok) ∈ s.m.ctl.barriers) →
          t.m.ctl.barriersOf group = [] ∧ ∃ g', t.m.ctl.group group = some g' ∧ g'.barrierSeq = (g.barrierSeq + 1) % 2 ^ 32)))

/-! ## Training steps (section 10) -/

/-- R285, R266, R267 to R272: a step begins on a die, its slots start their runs, a die folds its tensors, the module's token goes
out once, a child's token waits or is combined, and the verdict passes exactly where no flag of Table 10-3 speaks against it.
Besides the rules, the model's choices and readings of log entries 122 and 123. -/
def Obligations.StepsRunAndCheck : Prop :=
  (∀ (die : Nat) (r : DieRec) (tt : Timetable) (s : State), s.m.ctl.dieUp die = true → s.m.ctl.job.timetable = some tt →
    s.m.ctl.job.timetableNext = none → tt.dies[die]? = some r → r.active = true → (s.m.ctl.die die).step.active = false →
    (s.m.ctl.mayBegin = true → Completes (.stepStart die) s (fun t =>
      t.m.ctl.job.phase = .running ∧ t.m.ctl.job.attempt = s.m.ctl.job.attempt + 1 ∧ t.m.ctl.job.step = s.m.ctl.job.step
      ∧ (t.m.ctl.die die).step.active = true ∧ (t.m.ctl.die die).step.slots = (tt.slots.drop r.slotFirst).take r.slotCount
      ∧ t.m.ctl.rd Fld.chk_CHK_STATE_PHASE die = 0
      ∧ (∀ q ∈ maskQueues r.pre, (t.m.ctl.queue die q).prog = some ⟨0, 0, 0, false⟩) ∧ s.sameMem t)) ∧
    (s.m.ctl.mayBegin = false → s.m.ctl.job.phase ≠ .running → exec (.stepStart die) s = .next s)) ∧
  (∀ (die w : Nat) (rest : List Nat) (tt : Timetable) (s : State), s.m.ctl.dieUp die = true → s.m.ctl.job.phase = .running →
    (s.m.ctl.die die).step.active = true → (s.m.ctl.die die).step.slots = w :: rest → (s.m.ctl.die die).step.slot = none →
    s.m.ctl.job.timetable = some tt →
    ((∀ q ∈ (tt.slotRuns die w).1, s.m.ctl.runOver die q = true) → Completes (.slotStart die) s (fun t =>
      (t.m.ctl.die die).step.slots = rest ∧ (t.m.ctl.die die).step.slot = none
      ∧ (∀ q ∈ (tt.slotRuns die w).1, (t.m.ctl.queue die q).prog = some ⟨0, (tt.slotRuns die w).2, 0, false⟩)
      ∧ (∀ q, q ∉ (tt.slotRuns die w).1 → t.m.ctl.queue die q = s.m.ctl.queue die q)
      ∧ t.m.ctl.job = s.m.ctl.job ∧ t.m.ctl.regs = s.m.ctl.regs ∧ s.sameMem t)) ∧
    ((tt.slotRuns die w).1 ≠ [] → (∀ q ∈ (tt.slotRuns die w).1, s.m.ctl.runOver die q = false) →
      exec (.slotStart die) s = .next s)) ∧
  (∀ (die : Nat) (r : DieRec) (s : State), s.m.ctl.dieUp die = true → s.m.ctl.dieRec die = some r →
    (s.m.ctl.mayCheck die = true → Completes (.enterCheck die) s (fun t =>
      (t.m.ctl.die die).step.folded = true ∧ t.m.ctl.rd Fld.chk_CHK_STATE_PHASE die = 1 ∧ s.sameMem t
      ∧ (t.m.ctl.die die).lossCount = (s.m.column die r.lossTens).1.length
      ∧ (r.normTens = 0xFFFF → (t.m.ctl.die die).normSq = 0) ∧ (r.lossTens = 0xFFFF → (t.m.ctl.die die).lossSum = 0)
      ∧ (Val.nan ∈ (s.m.column die r.normTens).1 → bit (t.m.ctl.rd Fld.chk_CHK_LOCAL_FLAGS die) 0 = true)
      ∧ (Val.nan ∈ (s.m.column die r.lossTens).1 → bit (t.m.ctl.rd Fld.chk_CHK_LOCAL_FLAGS die) 2 = true))) ∧
    (s.m.ctl.mayCheck die = false → exec (.enterCheck die) s = .next s)) ∧
  (∀ s : State,
    (s.m.ctl.tokenDue = true → Completes .moduleTokenSend s (fun t => t.m.ctl.job.tokenSent = true ∧ t.m.ctl.job.stopReq = false
      ∧ t.m.ctl.gen.sealNow = false ∧ t.m.ctl.job.step = s.m.ctl.job.step ∧ s.sameMem t
      ∧ ∃ own, t.m.ctl.job.own = some own ∧ own.step = s.m.ctl.job.step ∧ own.planSeq = s.m.ctl.job.planSeq ∧ own.modules = 1
        ∧ own.dropped = s.m.ctl.job.dropped ∧ (s.m.ctl.job.stopReq = true → bit own.flags 6 = true)
        ∧ (s.m.ctl.sealDue = true → bit own.flags 7 = true))) ∧
    (s.m.ctl.tokenDue = false → exec .moduleTokenSend s = .next s)) ∧
  (∀ (rank : Nat) (bytes : List Nat) (g : GroupEnt) (s : State), s.m.ctl.checkGroup = some g →
    (fieldAt bytes 120 4 ≠ crc32c (bytesAt bytes 0 120) → exec (.checkTokenReceive rank bytes) s = .next s) ∧
    (∀ k, tokenOf bytes = some k → g.children.contains rank = true → s.m.ctl.job.own = none →
      Completes (.checkTokenReceive rank bytes) s (fun t => (rank, k) ∈ t.m.ctl.job.children ∧ s.sameMem t)) ∧
    (∀ k own, tokenOf bytes = some k → g.children.contains rank = true → s.m.ctl.job.own = some own → s.m.ctl.job.up = false →
      (∀ o ∈ g.children, o = rank ∨ Tab.has s.m.ctl.job.children o = true) →
      Completes (.checkTokenReceive rank bytes) s (fun t => t.m.ctl.job.up = true ∧ t.m.ctl.job.children = [] ∧ s.sameMem t
        ∧ (g.root = true → t.m.ctl.job.verdict.isSome = true)))) ∧
  (∀ a b : Token, (a.digest = b.digest → a.combine b = b.combine a) ∧
    (a.combine b).step = min a.step b.step ∧ (a.combine b).modules = min (2 ^ 32 - 1) (a.modules + b.modules) ∧
    (∀ k < 8, k ≠ 5 → bit (a.combine b).flags k = (bit a.flags k || bit b.flags k)) ∧
    (bit (a.combine b).flags 9 = (bit a.flags 9 || bit b.flags 9 || (a.step != b.step) || (a.planSeq != b.planSeq))) ∧
    (bit (a.combine b).flags 8 = (bit a.flags 8 || bit b.flags 8 || (a.digest != b.digest)))) ∧
  (∀ k : Token, bit k.flags 10 = false →
    (k.verdict.pass = true ↔ (∀ b ∈ [0, 1, 2, 3, 4, 5, 9], bit k.flags b = false) ∧ (fp32Val k.norm32).isFin = true))

/-- R273 to R282, R180, R181: a verdict with PASS puts every die in apply; without PASS the step is discarded and the same step number is
tried again; the last die's report commits the step; no verdict in time discards it; a proposal is formed, and taken once.
Besides the rules, the model's choices and readings of log entries 115, 116, 118, 122 and 124. -/
def Obligations.CommitAndDiscard : Prop :=
  (∀ (bytes : List Nat) (k : Token) (c : Ctl) (s : State), s.m.ctl.job.phase = .running → s.m.ctl.job.up = true →
    s.m.ctl.verdictIn bytes = some (k, c) →
    (k.pass = true → s.m.ctl.activeDies ≠ [] → Completes (.verdictReceive bytes) s (fun t =>
      t.m.ctl.job.phase = .applying ∧ t.m.ctl.job.step = s.m.ctl.job.step ∧ t.m.ctl.job.verdict = some k
      ∧ (∀ d < 8, t.m.ctl.rd Fld.chk_CHK_GNORM d = k.gnorm % 2 ^ 32 ∧ t.m.ctl.rd Fld.chk_CHK_VERDICT_FLAGS d = k.flags % 2 ^ 16
        ∧ t.m.ctl.rd Fld.chk_CHK_CLIP d = s.m.ctl.clip k.gnorm % 2 ^ 32)
      ∧ (∀ d ∈ s.m.ctl.activeDies, t.m.ctl.rd Fld.chk_CHK_STATE_PHASE d = 2 ∧ t.m.ctl.on Fld.chk_CHK_STATE_PASS d = true
        ∧ ∀ r, s.m.ctl.dieRec d = some r → ∀ q ∈ maskQueues r.apply, (t.m.ctl.queue d q).prog = some ⟨0, 0, 0, false⟩))) ∧
    (k.pass = false → Completes (.verdictReceive bytes) s (fun t =>
      t.m.ctl.job.phase = .idle ∧ t.m.ctl.job.step = s.m.ctl.job.step ∧ s.sameMem t
      ∧ (∃ r, (s.m.ctl.job.recNext, r) ∈ t.m.ctl.job.recs ∧ r.step = s.m.ctl.job.step ∧ r.attempt = s.m.ctl.job.attempt
        ∧ r.outcome = (if bit k.flags 9 then 3 else 1))
      ∧ (bit k.flags 9 = true → t.m.ctl.job.held = true ∧ t.m.ctl.job.runLeft = 0
        ∧ ∀ d < 8, t.m.ctl.rd Fld.chk_CHK_MISMATCH_CNT_COUNT d = min (s.m.ctl.rd Fld.chk_CHK_MISMATCH_CNT_COUNT d + 1) (2 ^ 32 - 1))
      ∧ (bit k.flags 9 = false → ∀ d < 8,
        t.m.ctl.rd Fld.chk_CHK_NONFIN_CNT_COUNT d = min (s.m.ctl.rd Fld.chk_CHK_NONFIN_CNT_COUNT d + 1) (2 ^ 32 - 1)
        ∧ t.m.ctl.rd Fld.chk_CHK_RUN_NONFINITE_RUN d =
          (let run := s.m.ctl.rd Fld.chk_CHK_RUN_NONFINITE_RUN + 1
           if 3 ≤ run then 0 else run))))) ∧
  (∀ (die : Nat) (k : Token) (s : State), s.m.ctl.dieUp die = true → s.m.ctl.job.verdict = some k →
    (s.m.ctl.applyOver die = true → (∃ d ∈ s.m.ctl.activeDies, d ≠ die ∧ (s.m.ctl.die d).step.applied = false) →
      Completes (.applyDone die) s (fun t => (t.m.ctl.die die).step.applied = true ∧ t.m.ctl.job = s.m.ctl.job ∧ s.sameMem t)) ∧
    (s.m.ctl.applyOver die = true → (∀ d ∈ s.m.ctl.activeDies, d = die ∨ (s.m.ctl.die d).step.applied = true) →
      Completes (.applyDone die) s (fun t => t.m.ctl.job.step = s.m.ctl.job.step + 1 ∧ t.m.ctl.job.phase = .idle
        ∧ (∀ d < 8, t.m.ctl.rd Fld.chk_CHK_STEP d = (s.m.ctl.job.step + 1) % 2 ^ 64 ∧ t.m.ctl.rd Fld.chk_CHK_RUN_NONFINITE_RUN d = 0)
        ∧ (∃ r, (s.m.ctl.job.recNext, r) ∈ t.m.ctl.job.recs ∧ r.step = s.m.ctl.job.step ∧ r.outcome = 0)
        ∧ (bit k.flags 7 = false → s.m.ctl.gen.sealCarried = false → s.sameMem t))) ∧
    (s.m.ctl.applyOver die = false → exec (.applyDone die) s = .next s)) ∧
  (∀ s : State,
    (s.m.ctl.job.phase = .running → s.m.ctl.job.tokenSent = true → Completes .checkTimeout s (fun t =>
      t.m.ctl.job.phase = .idle ∧ t.m.ctl.job.step = s.m.ctl.job.step ∧ t.m.ctl.job.children = [] ∧ s.sameMem t
      ∧ (∀ d < 8, t.m.ctl.rd Fld.chk_CHK_TIMEOUT_CNT_COUNT d = min (s.m.ctl.rd Fld.chk_CHK_TIMEOUT_CNT_COUNT d + 1) (2 ^ 32 - 1))
      ∧ ∃ r, (s.m.ctl.job.recNext, r) ∈ t.m.ctl.job.recs ∧ r.step = s.m.ctl.job.step ∧ r.outcome = 2)) ∧
    (s.m.ctl.job.tokenSent = false → exec .checkTimeout s = .next s) ∧
    (s.m.ctl.job.propDue = true → s.m.ctl.stage = 3 → Completes .planProposal s (fun t =>
      t.m.ctl.job.propDue = false ∧ t.m.ctl.job.propRound = true ∧ t.m.ctl.job.early = [] ∧ s.sameMem t
      ∧ (match s.m.ctl.dpGroup with | some g => g.rank | none => 0) ∈ t.m.ctl.job.heard))) ∧
  (∀ (rank : Nat) (bytes : List Nat) (g : GroupEnt) (s : State), s.m.ctl.dpGroup = some g → s.m.ctl.stage = 3 →
    rank < g.members.length → rank ≠ g.rank →
    (s.m.ctl.job.propRound = false → Completes (.proposalReceive rank bytes) s (fun t =>
      t.m.ctl.job.early = s.m.ctl.job.early ++ [(rank, bytes)] ∧ s.sameMem t)) ∧
    (s.m.ctl.job.propRound = true → s.m.ctl.job.propDue = false →
      (rank ∈ s.m.ctl.job.heard → exec (.proposalReceive rank bytes) s = .next s) ∧
      (rank ∉ s.m.ctl.job.heard → Completes (.proposalReceive rank bytes) s (fun t => rank ∈ t.m.ctl.job.heard ∧ s.sameMem t
        ∧ (fieldAt bytes 16 4 ≠ crc32c (bytes.drop 32) → t.m.ctl.job.propDropped = s.m.ctl.job.propDropped + 1
          ∧ t.m.ctl.job.proposals = s.m.ctl.job.proposals)))))

/-! ## Generations and restore (section 13) -/

/-- R373: the strip, holder and parity index of a block of r members: a holder is another member of the block, and has for each parity
index exactly one strip of each other member. -/
def Obligations.ParityHoldersShareTheStrips : Prop :=
  ∀ (r m : Nat), 2 ≤ r → m < r →
    (∀ j, (holderOf m j r).1 < r ∧ (holderOf m j r).1 ≠ m) ∧
    (∀ h q, h < r → h ≠ m → ∃ j, holderOf m j r = (h, q) ∧ stripFor m h q r = j ∧ ∀ i, holderOf m i r = (h, q) → i = j)

/-- R369, R371: the drain starts with its grant and copies a line into the image as it stood at the seal. R366, R372: with every line
copied the slot is LOCAL, and PROTECTED at once where nothing goes to peers and nothing held is incomplete. R373 to R375: what a peer
sends enters the mirror area or is folded into the held strip, once, and no other byte outside the slot; a header that names nothing this
module builds, or what does not fit, is counted; an acknowledged extent is owed no more, and with the last of them the slot is
PROTECTED; a REQUEST makes its extent owed; after 8 sendings protection has failed. R376, R377: `JOB_DURABLE` takes the newest
generation that all reports share, and never falls. R382: another member's digest is kept, and that of the lowest-ranked member is
compared with this module's own.
Besides the rules, the model's choices and readings of log entries 127, 128, 129, 131, 132, 178, 179 and 180. -/
def Obligations.GenerationsDrainAndProtect : Prop :=
  (∀ s : State,
    (s.m.ctl.gen.drain.isSome = true → s.m.ctl.gen.granted = true → s.m.ctl.gen.started = false →
      Completes .drainStart s (fun t => t.m.ctl.gen.started = true ∧ t.m.ctl.gen.slots = s.m.ctl.gen.slots ∧ s.sameMem t)) ∧
    (s.m.ctl.gen.drain = none ∨ s.m.ctl.gen.granted = false ∨ s.m.ctl.gen.started = true → exec .drainStart s = .next s) ∧
    (s.m.ctl.nextLine = none → exec .drainLineCopy s = .next s)) ∧
  (∀ (k : Nat) (x : Nat × Nat) (y : Image) (s : State), s.wf = true → s.m.ctl.nextLine = some (k, x) → k < s.m.ctl.gen.slots.length →
    (s.m.ctl.gslot k).images[x.1]? = some y → Completes .drainLineCopy s (fun t =>
      let base := s.m.ctl.slotBase k + y.off
      let line := s.m.sealedLine (s.m.ctl.gslot k) x.2
      (t.m.ctl.gslot k).todo = (s.m.ctl.gslot k).todo.erase x
      ∧ (∀ a, a < base ∨ base + imageLen y.t ≤ a → memByte t.m.mem a = memByte s.m.mem a)
      ∧ (∀ p ∈ imageSpans y.t, ∀ a, a / 64 = x.2 → p.1 ≤ a → a < p.1 + p.2.1 →
          (line.1.length = 64 → memByte t.m.mem (base + p.2.2 + (a - p.1)) = line.1.getD (a % 64) 0 % 256)
          ∧ (Tab.has (s.m.ctl.gslot k).pool x.2 = false → memByte t.m.mem (base + p.2.2 + (a - p.1)) = memByte s.m.mem a))
      ∧ (line.2 = true → ((t.m.ctl.gslot k).images[x.1]?).map (·.bad) = some true)
      ∧ t.m.ctl.rd Fld.sg_SG_DRAIN_BYTES = (s.m.ctl.rd Fld.sg_SG_DRAIN_BYTES + 64) % 2 ^ 64)) ∧
  (∀ (k : Nat) (s : State), s.m.ctl.gen.drain = some k → k < 2 → s.m.ctl.gen.slots.length = 2 → s.m.ctl.gen.started = true →
    ((s.m.ctl.gslot k).todo ≠ [] → exec .drainComplete s = .next s) ∧
    ((s.m.ctl.gslot k).todo = [] → Completes .drainComplete s (fun t => t.m.ctl.gen.drain ≠ some k
      ∧ ((∀ g, (s.m.ctl.gslot k).protect = some g → g.members.length < 2) →
          (t.m.ctl.gslot k).state = (if (s.m.ctl.gslot k).extents = [] ∧ (s.m.ctl.gslot k).failed = false
            ∧ (s.m.ctl.gslot k).rx.all (extentWhole (s.m.ctl.gslot k).rx) = true then 3 else 2))
      ∧ (∀ g, (s.m.ctl.gslot k).protect = some g → 2 ≤ g.members.length →
          (∃ y ∈ (s.m.ctl.gslot k).images, y.isSect = true ∧ 0 < y.len) →
          (t.m.ctl.gslot k).state = 2 ∧ (t.m.ctl.gslot k).extents ≠ [])))) ∧
  (∀ (rank : Nat) (b : List Nat) (s : State),
    (∀ (kind : Nat) (i : Instr), (kind, i) ∈ [(1, Instr.mirrorData rank b), (2, .parityDelta rank b), (3, .parityFull rank b),
        (4, .restoreData rank b), (5, .ack rank b), (6, .request rank b)] → s.m.ctl.bulkFor kind rank b = none →
      Completes i s (fun t => s.sameMem t ∧ t.m.ctl.gen.slots = s.m.ctl.gen.slots
        ∧ t.m.ctl.rd Fld.sg_SG_PROTFAIL_CNT_COUNT = min (s.m.ctl.rd Fld.sg_SG_PROTFAIL_CNT_COUNT + 1) (2 ^ 32 - 1))) ∧
    (∀ k g h, s.m.ctl.bulkFor 1 rank b = some (k, g, h) →
      (s.wf = true → h.origin = rank ∧ g.ward g.rank = rank ∧ rank ≠ g.rank ∧ s.m.ctl.heldFits k (bulkLines b).length 0 = true →
        Completes (.mirrorData rank b) s (fun t => rxOf rank h (bulkLines b).length ∈ (t.m.ctl.gslot k).rx
          ∧ (∀ (i : Nat) (l : List Nat × Bool), (bulkLines b)[i]? = some l →
              ∃ a, t.m.ctl.mirrorAt k (h.isSect, h.key, h.kdie, h.offset / 64 + i) = some a
                ∧ (∀ j < 64, memByte t.m.mem (a + j) = l.1.getD j 0 % 256) ∧ (l.2 = true → t.m.ctl.bad a = true))
          ∧ (∀ a, a < s.m.ctl.slotBase k ∨ s.m.ctl.slotBase k + (t.m.ctl.gslot k).heldEnd ≤ a → memByte t.m.mem a = memByte s.m.mem a))) ∧
      (¬ (h.origin = rank ∧ g.ward g.rank = rank ∧ rank ≠ g.rank ∧ s.m.ctl.heldFits k (bulkLines b).length 0 = true) →
        Completes (.mirrorData rank b) s (fun t => s.sameMem t ∧ t.m.ctl.gen.slots = s.m.ctl.gen.slots
          ∧ t.m.ctl.rd Fld.sg_SG_PROTFAIL_CNT_COUNT = min (s.m.ctl.rd Fld.sg_SG_PROTFAIL_CNT_COUNT + 1) (2 ^ 32 - 1)))) ∧
    (∀ (isFull : Bool) k g h q, s.wf = true → s.m.ctl.bulkFor (if isFull then 3 else 2) rank b = some (k, g, h) → h.origin = rank →
      g.heldFor rank h.key = some q → s.m.ctl.heldFits k 0 (b2n (!(s.m.ctl.gslot k).parity.contains q)) = true →
      h.offset + 64 * (bulkLines b).length ≤ stripLen →
      Completes (if isFull then .parityFull rank b else .parityDelta rank b) s (fun t =>
        let had := (s.m.ctl.gslot k).rx.contains (rxOf rank h (bulkLines b).length) = true
          ∨ (isFull = false ∧ (s.m.ctl.gslot k).full.contains q = true)
        let keeps := (s.m.ctl.gslot k).parity.contains q = true ∧ (isFull = true → (s.m.ctl.gslot k).full.contains q = true)
        rxOf rank h (bulkLines b).length ∈ (t.m.ctl.gslot k).rx
        ∧ (had → (t.m.ctl.gslot k).parity = (s.m.ctl.gslot k).parity ∧ ∀ a, a < s.m.ctl.slotBase k
            ∨ s.m.ctl.slotBase k + up64 (256 + 32 * (s.m.ctl.gslot k).images.length) ≤ a → memByte t.m.mem a = memByte s.m.mem a)
        ∧ (¬ had → (isFull = true → q ∈ (t.m.ctl.gslot k).full)
          ∧ ∀ (i : Nat) (l : List Nat × Bool), (bulkLines b)[i]? = some l →
            ∃ a, t.m.ctl.parityAt k q (h.offset / 64 + i) = some a ∧ (l.2 = true → t.m.ctl.bad a = true)
              ∧ ∀ j < 64, memByte t.m.mem (a + j) = ((if keeps then memByte s.m.mem (a + j) else 0) ^^^ l.1.getD j 0) % 256)
        ∧ (∀ a, a < s.m.ctl.slotBase k ∨ s.m.ctl.slotBase k + (t.m.ctl.gslot k).heldEnd ≤ a → memByte t.m.mem a = memByte s.m.mem a))) ∧
    (∀ k g h, s.m.ctl.bulkFor 5 rank b = some (k, g, h) → Completes (.ack rank b) s (fun t =>
      let mine (e : Extent) : Bool := e.peer == rank && e.origin == h.origin && e.isSect == h.isSect && e.key == h.key && e.kdie == h.kdie
        && e.offset == h.offset && e.sent != 0
      let owed := dropFirst mine (s.m.ctl.gslot k).extents
      (t.m.ctl.gslot k).extents = owed
      ∧ (t.m.ctl.gslot k).state = (if (s.m.ctl.gslot k).state = 2 ∧ owed = [] ∧ (s.m.ctl.gslot k).failed = false ∧ s.m.holdsAll k = true
          then 3 else (s.m.ctl.gslot k).state)
      ∧ (s.wf = true → ∀ a, a < s.m.ctl.slotBase k ∨ s.m.ctl.slotBase k + up64 (256 + 32 * (s.m.ctl.gslot k).images.length) ≤ a →
          memByte t.m.mem a = memByte s.m.mem a))) ∧
    (∀ k g h, s.m.ctl.bulkFor 6 rank b = some (k, g, h) → Completes (.request rank b) s (fun t => s.sameMem t
      ∧ (t.m.ctl.gslot k).extents = (s.m.ctl.gslot k).extents
        ++ [⟨rank, 4, h.origin, h.isSect, h.key, h.kdie, h.offset / extentLen * extentLen, 1⟩]))) ∧
  (∀ (i k : Nat) (e : Extent) (s : State), s.m.ctl.unacked[i]? = some (k, e) →
    (8 ≤ e.sent → Completes (.protectRetransmit i) s (fun t => (t.m.ctl.gslot k).failed = true ∧ (t.m.ctl.gslot k).extents = []
      ∧ t.m.ctl.rd Fld.sg_SG_PROTFAIL_CNT_COUNT = min (s.m.ctl.rd Fld.sg_SG_PROTFAIL_CNT_COUNT + 1) (2 ^ 32 - 1) ∧ s.sameMem t)) ∧
    (e.sent < 8 → Completes (.protectRetransmit i) s (fun t => s.sameMem t ∧ (t.m.ctl.gslot k).extents =
      (s.m.ctl.gslot k).extents.map (fun x => if x = e then { x with sent := x.sent + 1 } else x)))) ∧
  (∀ (n : Nat) (s : State), n < 2 ^ 32 →
    (n ≤ s.m.ctl.durable → exec (.durableAnnounce n) s = .next s) ∧
    (s.m.ctl.durable < n → Completes (.durableAnnounce n) s (fun t => t.m.ctl.durable = n ∧ s.sameMem t))) ∧
  (∀ (rank ga gb : Nat) (g : GroupEnt) (own : Nat × Nat) (s : State), s.m.ctl.checkGroup = some g → g.root = true →
    g.children.contains rank = true → s.m.ctl.gen.report = some own → own.1 < 2 ^ 32 → own.2 < 2 ^ 32 →
    let reps := s.m.ctl.gen.reports.set rank (ga, gb)
    ((∀ o ∈ g.children, Tab.has reps o = true) → Completes (.durabilityReportReceive rank ga gb) s (fun t =>
      let shared (n : Nat) : Prop := n ≠ 0 ∧ (n = own.1 ∨ n = own.2) ∧ ∀ o ∈ g.children, n = (Tab.get (0, 0) reps o).1 ∨ n = (Tab.get (0, 0) reps o).2
      s.sameMem t ∧ s.m.ctl.durable ≤ t.m.ctl.durable ∧ (∀ n, shared n → n ≤ t.m.ctl.durable)
      ∧ (t.m.ctl.durable ≠ s.m.ctl.durable → shared t.m.ctl.durable))) ∧
    ((∃ o ∈ g.children, Tab.has reps o = false) → Completes (.durabilityReportReceive rank ga gb) s (fun t =>
      s.sameMem t ∧ t.m.ctl.durable = s.m.ctl.durable ∧ t.m.ctl.gen.reports = reps))) ∧
  (∀ (rank : Nat) (b : List Nat) (s : State),
    Completes (.replicaDigestReceive rank b) s (fun t => t.m.ctl.digestOf (fieldAt b 0 4) (fieldAt b 4 2) rank = some (fieldAt b 8 4)
      ∧ (rank ≠ 0 ∨ s.m.ctl.slotOfGen (fieldAt b 0 4) = none → s.sameMem t ∧ t.m.ctl.regs = s.m.ctl.regs)
      ∧ ∀ k g, rank = 0 → s.m.ctl.slotOfGen (fieldAt b 0 4) = some k → s.m.ctl.group (fieldAt b 4 2) = some g →
        let differs := g.member = true ∧ g.rank ≠ 0 ∧ replicaDigest (s.m.ctl.gslot k).images (fieldAt b 4 2) ≠ fieldAt b 8 4
        (differs → bit (t.m.ctl.gslot k).flags 1 = true
          ∧ t.m.ctl.rd Fld.sg_SG_DIVERGE_CNT_COUNT = min (s.m.ctl.rd Fld.sg_SG_DIVERGE_CNT_COUNT + 1) (2 ^ 32 - 1))
        ∧ (¬ differs → s.sameMem t ∧ t.m.ctl.regs = s.m.ctl.regs)))

/-- R384, R385: the local restore of a hold waits for the descriptors that run; with no durable generation held it restores nothing;
else the slot's images go home, row by row, unless an entry is bad and has another source: then that is asked for first. R386, R389: the
local restore of a survivor that has reset, and of a replacement once it has all it asked for and all it holds for others; one that knows
no PROTECT group yet asks once it does. R387: the replay of the Roll Call record; digests up and the root's answer down, and those that
come before the replay kept for it. R388, R390: the end of a restore, and its abandonment. R386: data that is wanted enters the slot line
by line; strips are folded together, and the copies of REPLICA members kept apart, and an image rebuilt from them enters the slot once
every strip it lies in has come.
Besides the rules, the model's choices and readings of log entries 133, 134, 135, 136, 137 and 138. -/
def Obligations.HoldRestoreAndReplay : Prop :=
  (∀ s : State, s.m.ctl.gen.holdDue = true →
    (s.m.ctl.descsIn [.wait, .grant, .start, .running] ≠ [] → exec .localRestore s = .next s) ∧
    (s.m.ctl.descsIn [.wait, .grant, .start, .running] = [] →
      (s.m.ctl.durable = 0 ∨ s.m.ctl.slotOfGen s.m.ctl.durable = none → Completes .localRestore s (fun t =>
        t.m.ctl.gen.holdDue = false ∧ t.m.ctl.gen.restore = none ∧ t.m.ctl.rd Fld.sg_SG_STATE = 4
        ∧ t.m.ctl.job.step = s.m.ctl.job.step ∧ s.sameMem t
        ∧ (s.m.ctl.hasRoom 1 → (∀ k < 2, (s.m.ctl.gslot k).state ≠ 0 → s.m.recordOk k = true) →
            ∃ e ∈ t.m.ctl.host.ring.map (·.2), e.code = 0x0608 ∧ e.cls = 1))) ∧
      (∀ k, s.m.ctl.durable ≠ 0 → s.m.ctl.slotOfGen s.m.ctl.durable = some k → s.m.recordOk k = true →
        (s.m.badEntries k = [] ∨ s.m.ctl.gen.restore ≠ none → Completes .localRestore s (fun t =>
          let m0 := (match s.m.ctl.gen.restore with | some r => s.m.adopt k r | none => s.m)
          t.m.ctl.gen.holdDue = false ∧ t.m.ctl.gen.restore = none ∧ t.m.ctl.rd Fld.sg_SG_STATE = 4
          ∧ t.m.ctl.job.step = (s.m.ctl.gslot k).step
          ∧ (∀ d < 8, t.m.ctl.rd Fld.chk_CHK_STEP d = (s.m.ctl.gslot k).step % 2 ^ 64)
          ∧ (∀ a, memByte t.m.mem a = memByte
              (((s.m.ctl.gslot k).images.filter (fun x => !x.isSect)).foldl (fun m x => m.imageHome k x) m0).mem a)
          ∧ (s.wf = true → s.m.ctl.gen.restore = none → ∀ a, (∀ x ∈ (s.m.ctl.gslot k).images, x.isSect = false → ∀ p ∈ imageSpans x.t, a < p.1 ∨ p.1 + p.2.1 ≤ a) →
              memByte t.m.mem a = memByte s.m.mem a))) ∧
        (s.m.badEntries k ≠ [] → s.m.ctl.gen.restore = none → Completes .localRestore s (fun t =>
          t.m.ctl.gen.holdDue = true ∧ t.m.ctl.job.step = s.m.ctl.job.step
          ∧ ∃ r, t.m.ctl.gen.restore = some r ∧ r.gen = (s.m.ctl.gslot k).gen ∧ r.replacement = false ∧ r.isLocal = false
            ∧ r.replayed = false))))) ∧
  (∀ (m : Module) (base : Nat) (p : Nat × Nat × Nat) (a : Nat), Memory.wf m.mem = true →
    (p.1 ≤ a → a < p.1 + p.2.1 → namesMemory (a / 64 * 64) = true →
      memByte (m.spanHome base p).mem a = memByte m.mem (base + p.2.2 + (a - p.1))) ∧
    (a < p.1 ∨ p.1 + p.2.1 ≤ a ∨ namesMemory (a / 64 * 64) = false → memByte (m.spanHome base p).mem a = memByte m.mem a)) ∧
  (∀ (r : RestoreRun) (k : Nat) (s : State), s.m.ctl.gen.holdDue = false → s.m.ctl.gen.restore = some r →
    ([0, 1].find? (fun k => (s.m.ctl.gslot k).gen == r.gen) = some k → r.isLocal = false →
      (r.replacement = false → r.asked = true ∨ s.m.badEntries k = [] →
        Completes .localRestore s (fun t => t.m.ctl.gen.restore = some { r with isLocal := true } ∧ t.m.ctl.stage = 4
          ∧ t.m.ctl.job.step = (s.m.ctl.gslot k).step
          ∧ (∀ a, memByte t.m.mem a = memByte
              (((s.m.ctl.gslot k).images.filter (fun x => !x.isSect)).foldl (fun m x => m.imageHome k x) (s.m.adopt k r)).mem a))) ∧
      (r.replacement = true → r.asked = true → r.want = [] → s.m.holdsAll k = true → k < s.m.ctl.gen.slots.length →
        Completes .localRestore s (fun t => t.m.ctl.gen.restore = some { r with isLocal := true } ∧ t.m.ctl.stage = 4
          ∧ (t.m.ctl.gslot k).state = 3 ∧ t.m.ctl.job.step = (t.m.ctl.gslot k).step))) ∧
    (r.isLocal = true ∨ (r.replacement = true ∧ r.want ≠ []) → r.replacement = false ∨ r.asked = true ∨ s.m.ctl.protectGroup = none →
      exec .localRestore s = .next s) ∧
    (r.replacement = true → r.asked = false → s.m.ctl.protectGroup ≠ none → s.m.ctl.gen.slots.length = 2 →
      Completes .localRestore s (fun t => s.sameMem t ∧ ∃ r', t.m.ctl.gen.restore = some r' ∧ r'.gen = r.gen ∧ r'.repl = r.repl
        ∧ r'.replacement = true ∧ r'.asked = true ∧ r'.isLocal = false)) ∧
    (∀ x, s.m.ctl.slotOfGen r.gen = some k → r.isLocal = true → r.replayed = false →
      (s.m.ctl.gslot k).images.find? (fun x => x.isSect && x.key == 3) = some x → Completes .rollcallReplay s (fun t =>
        let rc := rollCallOf (s.m.imageBytes k x)
        t.m.ctl.job.roll.seq = (rc.seq + 1) % 2 ^ 32 ∧ t.m.ctl.job.roll.groups = (rc.replay r.repl).groups ∧ s.sameMem t
        ∧ ∀ r', t.m.ctl.gen.restore = some r' → r'.replayed = true ∧ r'.own = (rc.replay r.repl).digest)) ∧
    (r.isLocal = false ∨ r.replayed = true → exec .rollcallReplay s = .next s) ∧
    (r.answer = some true → Completes .restoreDone s (fun t => t.m.ctl.gen.restore = none ∧ t.m.ctl.gen.restored = true
      ∧ t.m.ctl.rd Fld.sg_SG_STATE < 4 ∧ t.m.ctl.job = s.m.ctl.job ∧ s.sameMem t
      ∧ (s.m.ctl.hasRoom 1 → ∃ e ∈ t.m.ctl.host.ring.map (·.2), e.code = 0x0609 ∧ e.cls = 1))) ∧
    (r.answer ≠ some true → exec .restoreDone s = .next s) ∧
    Completes .restoreAbort s (fun t => t.m.ctl.gen.restore = none ∧ t.m.ctl.job = s.m.ctl.job ∧ s.sameMem t
      ∧ t.m.ctl.rd Fld.sg_SG_STATE = (if r.isLocal then 4 else 0) ∧ (r.isLocal = true → t.m.ctl.gen.slots = s.m.ctl.gen.slots))) ∧
  (∀ (x : RollCall) (repl : List (Nat × Nat)), (x.replay repl).groups.length = x.groups.length ∧
    ∀ (i : Nat) (g g' : GroupEnt), x.groups[i]? = some g → (x.replay repl).groups[i]? = some g' →
      ((∀ p ∈ g.members, ∀ r ∈ repl, r.2 ≠ p.1) → g' = g) ∧
      ((∃ p ∈ g.members, ∃ r ∈ repl, r.2 = p.1) → g'.epoch = (g.epoch + 1) % 2 ^ 32
        ∧ ∀ (j : Nat) (p p' : Nat × Nat), g.members[j]? = some p → g'.members[j]? = some p' →
          p'.1 = p.1 ∧ ((∀ r ∈ repl, r.2 ≠ p.1) → p'.2 = p.2) ∧ ((∃ r ∈ repl, r.2 = p.1) → ∃ r ∈ repl, r.2 = p.1 ∧ p'.2 = r.1))) ∧
  (∀ (rank : Nat) (b : List Nat) (g : GroupEnt) (r : RestoreRun) (s : State), s.m.ctl.checkGroup = some g → s.m.ctl.gen.restore = some r →
    (g.children.contains rank = true → r.replayed = false → Completes (.rollcallDigestReceive rank b) s (fun t => s.sameMem t
      ∧ ∃ r', t.m.ctl.gen.restore = some r' ∧ (rank, fieldAt b 0 4, bit (b.getD 4 0) 0) ∈ r'.digests)) ∧
    (g.root = true → g.children = [rank] → r.replayed = true → Completes (.rollcallDigestReceive rank b) s (fun t => s.sameMem t ∧
      (if fieldAt b 0 4 = r.own ∧ bit (b.getD 4 0) 0 = false then
        ∃ r', t.m.ctl.gen.restore = some r' ∧ r'.answer = some true
       else t.m.ctl.gen.restore = none ∧ t.m.ctl.rd Fld.sg_SG_STATE = 4))) ∧
    (g.children.contains rank = false → g.root = false → g.parent = rank → r.replayed = true →
      Completes (.rollcallDigestReceive rank b) s (fun t => s.sameMem t ∧
        (if bit (b.getD 4 0) 0 then t.m.ctl.gen.restore = none ∧ t.m.ctl.rd Fld.sg_SG_STATE = 4
         else t.m.ctl.gen.restore = some { r with answer := some true })))) ∧
  (∀ (rank : Nat) (b : List Nat) (s : State), s.m.ctl.checkGroup = none ∨ s.m.ctl.gen.restore = none →
    Completes (.rollcallDigestReceive rank b) s (fun t => s.sameMem t ∧ t.m.ctl.gen.restore = s.m.ctl.gen.restore
      ∧ (rank, fieldAt b 0 4, bit (b.getD 4 0) 0) ∈ t.m.ctl.gen.rollEarly)) ∧
  (∀ (rank : Nat) (b : List Nat) (k : Nat) (g : GroupEnt) (h : BulkHdr) (r : RestoreRun) (s : State),
    s.wf = true → s.m.ctl.bulkFor 4 rank b = some (k, g, h) → s.m.ctl.gen.restore = some r →
    Completes (.restoreData rank b) s (fun t =>
      let f := rxOf rank h (bulkLines b).length
      let none64 : List Nat × Bool := (List.replicate 64 0, false)
      f ∈ (t.m.ctl.gslot k).rx
      ∧ ∃ heap, t.m.ctl.gen.restore = some { r with heap := heap, want := if extentWhole (t.m.ctl.gslot k).rx f = true then
          (match r.wanted rank h with | some w => r.want.erase w | none => r.want) else r.want }
      ∧ ((s.m.ctl.gslot k).rx.contains f = true ∨ r.wanted rank h = none → heap = r.heap ∧ s.sameMem t)
      ∧ (∀ w, (s.m.ctl.gslot k).rx.contains f = false → r.wanted rank h = some w →
        (w.strip = false → ∀ x, (s.m.ctl.gslot k).images.find? (fun x => x.isSect == h.isSect && x.key == h.key && x.die == h.kdie) = some x →
          ((x.isSect = false → x.kind = 1 → s.sameMem t) ∧ (x.isSect = true ∨ x.kind ≠ 1 → heap = r.heap)) ∧
          ∀ (i : Nat) (l : List Nat × Bool), (bulkLines b)[i]? = some l → (h.offset / 64 + i) * 64 < x.len →
            let a := s.m.ctl.slotBase k + x.off + 64 * (h.offset / 64 + i)
            (x.isSect = true ∨ x.kind ≠ 1 → ∀ j < 64, memByte t.m.mem (a + j) = l.1.getD j 0 % 256) ∧
            (x.isSect = false → x.kind = 1 → Tab.get none64 heap (some rank, a) = (padTo 64 l.1, l.2)))
        ∧ (w.strip = true → s.sameMem t ∧ ∀ l x n, bulkLines b = [l] →
            streamAt (parityOf (s.m.ctl.gslot k).images) (g.ownStrip rank h.origin h.key * 65536 + h.offset / 64) = some (x, n) →
            r.rebuild.contains (x.die, x.key) = true →
              let a := s.m.ctl.slotBase k + x.off + 64 * n
              Tab.get none64 heap (none, a) = xorLine (Tab.get none64 r.heap (none, a)) l)))) ∧
  (∀ (k : Nat) (r : RestoreRun) (g : GroupEnt) (x : Image) (m : Module), x.isSect = false → x.kind ≠ 1 → x.len % 64 = 0 →
    Memory.wf m.mem = true → (∀ key, (Tab.get (List.replicate 64 0, false) r.heap key).1.length = 64) → (∀ w ∈ ((stripsOf (m.ctl.gslot k).images x).map g.wantStrip).flatten, w ∉ r.want) →
    ∀ (n j : Nat), n < x.len / 64 → j < 64 →
      let a := m.ctl.slotBase k + x.off + 64 * n
      memByte (m.adoptImage k g r x).mem (a + j)
        = (Tab.get (List.replicate 64 0, false) r.heap (none, a)).1.getD j 0 % 256)

/-! ## Two rules stated whole -/

/-- R471: a source emits a record (its `SRC_SEQ` advances) only when the record's class is set in `CLASS_EN`; class 0 is always emitted,
once its FIFO has an entry for it (R477); the reset value of `CLASS_EN` enables classes 0 to 3 and no other. -/
def Obligations.SourcesEmitByClass : Prop :=
  (∀ (c : Ctl) (die unit type cls : Nat) (pl : List Nat),
    (cls ≠ 0 → bit (c.rd Fld.tr_TR_SRC_CLASS_EN) cls = false → c.emit die unit type cls pl = c) ∧
    (cls ≠ 0 → bit (c.rd Fld.tr_TR_SRC_CLASS_EN) cls = true → (c.fifo die).seq < ((c.emit die unit type cls pl).fifo die).seq) ∧
    ((c.fifo die).lossDue = false → (c.fifo die).waiting = [] → (c.fifo die).recs.length < 256 →
      (c.fifo die).seq < ((c.emit die unit type 0 pl).fifo die).seq) ∧
    ((c.fifo die).seq < ((c.emit die unit type 0 pl).fifo die).seq
      ∨ ((c.emit die unit type 0 pl).fifo die).waiting = (c.fifo die).waiting ++ [(unit, type, pl)])) ∧
  (∀ (c : Ctl) (die : Nat) (w : Nat × Nat × List Nat) (l : List (Nat × Nat × List Nat)), (c.fifo die).waiting = w :: l →
    (c.fifo die).lossDue = false → (c.fifo die).recs.length < 256 →
    (c.fifo die).seq < ((c.unwait die).fifo die).seq ∧ ((c.unwait die).fifo die).waiting = l) ∧
  (∀ k, bit (State.reset.m.ctl.rd Fld.tr_TR_SRC_CLASS_EN) k = true ↔ k < 4)

/-- R496: with the units held beyond the budget, a new budget included, every descriptor keeps its stage and its units, and nothing is granted
before the free units cover the head of the queue: the head is the first request of the highest priority that waits (R260), and it is
granted once they do. -/
def Obligations.NoGrantBeyondTheFreeUnits : Prop :=
  (∀ (g tj tjDie : Nat) (s : State), s.m.ctl.pow.on = true → Completes (.budgetRecompute g tj tjDie) s (fun t =>
    t.m.ctl.hp.held = s.m.ctl.hp.held ∧ t.m.ctl.dies = s.m.ctl.dies ∧ s.sameMem t)) ∧
  (∀ (s : State), s.m.ctl.budget < s.m.ctl.hp.heldUnits → s.m.ctl.freeUnits = 0) ∧
  (∀ (s t : State), exec .hallPassGrant s = .next t → s.m.ctl.hp.held.length < t.m.ctl.hp.held.length →
    ∃ r, s.m.ctl.hp.head = some r ∧ r.units + s.m.ctl.hp.heldUnits ≤ max s.m.ctl.budget s.m.ctl.hp.heldUnits
      ∧ r ∈ s.m.ctl.hp.fifo ∧ ∀ o ∈ s.m.ctl.hp.fifo, o.prio ≤ r.prio) ∧
  (∀ (r : HpReq) (s : State), s.m.ctl.hp.head = some r → s.m.ctl.freeUnits < r.units → exec .hallPassGrant s = .next s) ∧
  (∀ (r : HpReq) (s : State), s.m.ctl.hp.head = some r → r.units ≤ s.m.ctl.freeUnits →
    Completes .hallPassGrant s (fun t => (r.who, r.units) ∈ t.m.ctl.hp.held))
end

