-- ==== Sys2Proof/Laws/Cells.lean ====
section
/-! SUPPORT. The laws of byte storage: reads after writes, and that every operation keeps the canonical form. -/

namespace Sys2Proof.Machine

theorem Cells.above_weaken {d : Byte} {m : List Host.Cell} {a b : Nat} (h : Cells.above d (some b) m = true) (hab : a ≤ b) :
    Cells.above d (some a) m = true := by
  cases m with
  | nil => rfl
  | cons p t =>
    simp only [Cells.above, Bool.and_eq_true, decide_eq_true_eq] at h ⊢
    exact ⟨⟨by omega, h.1.2⟩, h.2⟩

theorem Cells.above_none {d : Byte} {m : List Host.Cell} {a : Nat} (h : Cells.above d (some a) m = true) :
    Cells.above d none m = true := by
  cases m with
  | nil => rfl
  | cons p t =>
    simp only [Cells.above, Bool.and_eq_true] at h ⊢
    exact ⟨⟨trivial, h.1.2⟩, h.2⟩

/-- A read below every listed address reads the unlisted value. -/
theorem Cells.get_below {d : Byte} {m : List Host.Cell} {a b : Nat} (h : Cells.above d (some b) m = true) (hab : a ≤ b) :
    Cells.get d m a = d := by
  cases m with
  | nil => rfl
  | cons p t =>
    simp only [Cells.above, Bool.and_eq_true, decide_eq_true_eq] at h
    have h1 : p.1 ≠ a := by omega
    have h2 : a < p.1 := by omega
    simp [Cells.get, h1, h2]

theorem Cells.set_above {d : Byte} {lo : Option Nat} {m : List Host.Cell} {a : Nat} {v : Byte}
    (h : Cells.above d lo m = true) (ha : ∀ b, lo = some b → b < a) : Cells.above d lo (Cells.set d m a v) = true := by
  induction m generalizing lo with
  | nil =>
    by_cases hv : v = d
    · simp [Cells.set, hv, Cells.above]
    · cases lo with
      | none => simp [Cells.set, hv, Cells.above]
      | some b => simp [Cells.set, hv, Cells.above, ha b rfl]
  | cons p t ih =>
    simp only [Cells.above, Bool.and_eq_true, decide_eq_true_eq] at h
    obtain ⟨⟨h1, h2⟩, h3⟩ := h
    by_cases hlt : p.1 < a
    · simp only [Cells.set, hlt, ↓reduceIte, Cells.above, Bool.and_eq_true, decide_eq_true_eq]
      exact ⟨⟨h1, h2⟩, ih h3 (fun b hb => by cases hb; exact hlt)⟩
    · by_cases heq : p.1 = a
      · by_cases hv : v = d
        · simp only [Cells.set, heq, hv, ↓reduceIte, lt_self_iff_false]
          cases lo with
          | none => exact Cells.above_none h3
          | some b => exact Cells.above_weaken h3 (by have := ha b rfl; omega)
        · simp only [Cells.set, heq, hv, ↓reduceIte, lt_self_iff_false, Cells.above, Bool.and_eq_true, decide_eq_true_eq]
          subst heq
          exact ⟨⟨h1, hv⟩, h3⟩
      · by_cases hv : v = d
        · simp only [Cells.set, hlt, heq, hv, ↓reduceIte, Cells.above, Bool.and_eq_true, decide_eq_true_eq]
          exact ⟨⟨h1, h2⟩, h3⟩
        · simp only [Cells.set, hlt, heq, hv, ↓reduceIte, Cells.above, Bool.and_eq_true, decide_eq_true_eq]
          refine ⟨⟨?_, hv⟩, ⟨by omega, h2⟩, h3⟩
          cases lo with
          | none => rfl
          | some b => simpa using ha b rfl

/-- Writing a byte keeps the canonical form. -/
theorem Cells.set_wf {d : Byte} {m : List Host.Cell} (h : Cells.wf d m = true) (a : Nat) (v : Byte) :
    Cells.wf d (Cells.set d m a v) = true := Cells.set_above h (fun _ hb => nomatch hb)

/-- Writing bytes keeps the canonical form. -/
theorem Cells.write_wf {d : Byte} {m : List Host.Cell} (h : Cells.wf d m = true) (a : Nat) (bs : List Nat) :
    Cells.wf d (Cells.write d m a bs) = true := by
  induction bs generalizing m a with
  | nil => exact h
  | cons b bs ih => exact ih (Cells.set_wf h a _) (a + 1)

theorem Cells.clear_above {d : Byte} {lo : Option Nat} {m : List Host.Cell} (p : Nat → Bool)
    (h : Cells.above d lo m = true) : Cells.above d lo (Cells.clear p m) = true := by
  induction m generalizing lo with
  | nil => rfl
  | cons q t ih =>
    simp only [Cells.above, Bool.and_eq_true, decide_eq_true_eq] at h
    obtain ⟨⟨h1, h2⟩, h3⟩ := h
    by_cases hp : p q.1
    · simp only [Cells.clear, hp, ↓reduceIte]
      have h4 := ih h3
      cases lo with
      | none => exact Cells.above_none h4
      | some b => exact Cells.above_weaken h4 (by simp at h1; omega)
    · have hc : Cells.clear p (q :: t) = q :: Cells.clear p t := by simp [Cells.clear, hp]
      simp only [hc, Cells.above, Bool.and_eq_true, decide_eq_true_eq]
      exact ⟨⟨h1, h2⟩, ih h3⟩

/-- Clearing keeps the canonical form. -/
theorem Cells.clear_wf {d : Byte} {m : List Host.Cell} (h : Cells.wf d m = true) (p : Nat → Bool) :
    Cells.wf d (Cells.clear p m) = true := Cells.clear_above p h

theorem Cells.get_set_above {d : Byte} {lo : Option Nat} {m : List Host.Cell} (h : Cells.above d lo m = true) (a b : Nat) (v : Byte) :
    Cells.get d (Cells.set d m a v) b = if b = a then v else Cells.get d m b := by
  induction m generalizing lo with
  | nil =>
    by_cases hv : v = d
    · by_cases hb : b = a <;> simp [Cells.set, Cells.get, hv, hb]
    · by_cases hb : b = a
      · simp [Cells.set, Cells.get, hv, hb]
      · simp [Cells.set, Cells.get, hv, hb, Ne.symm hb]
  | cons p t ih =>
    simp only [Cells.above, Bool.and_eq_true, decide_eq_true_eq] at h
    obtain ⟨⟨_, h2⟩, h3⟩ := h
    by_cases hlt : p.1 < a
    · simp only [Cells.set, hlt, ↓reduceIte]
      by_cases hp : p.1 = b
      · have : b ≠ a := by omega
        simp [Cells.get, hp, this]
      · by_cases hb : b < p.1
        · have : b ≠ a := by omega
          simp [Cells.get, hp, hb, this]
        · simp only [Cells.get, hp, hb, ↓reduceIte, ih h3]
    · by_cases heq : p.1 = a
      · subst heq
        by_cases hv : v = d
        · simp only [Cells.set, hv, ↓reduceIte, lt_self_iff_false]
          by_cases hb : b = p.1
          · simp [hb, Cells.get_below h3 (le_refl _)]
          · by_cases hlb : b < p.1
            · have : Cells.get d t b = d := Cells.get_below h3 (by omega)
              simp [Cells.get, Ne.symm hb, hlb, hb, this]
            · simp [Cells.get, Ne.symm hb, hlb, hb]
        · by_cases hb : b = p.1
          · simp [Cells.set, Cells.get, hv, hb]
          · simp [Cells.set, Cells.get, hv, hb, Ne.symm hb]
      · have hap : a < p.1 := by omega
        by_cases hv : v = d
        · simp only [Cells.set, hlt, heq, hv, ↓reduceIte]
          by_cases hb : b = a
          · have : p.1 ≠ b := by omega
            have : b < p.1 := by omega
            simp [Cells.get, *]
          · simp [hb]
        · by_cases hb : b = a
          · simp [Cells.set, Cells.get, hlt, heq, hv, hb]
          · by_cases hlb : b < a
            · have h5 : p.1 ≠ b := by omega
              have h6 : b < p.1 := by omega
              simp [Cells.set, Cells.get, hlt, heq, hv, hb, Ne.symm hb, hlb, h5, h6]
            · simp [Cells.set, Cells.get, hlt, heq, hv, hb, Ne.symm hb, hlb]

/-- A read after a write of one byte. -/
theorem Cells.get_set {d : Byte} {m : List Host.Cell} (h : Cells.wf d m = true) (a b : Nat) (v : Byte) :
    Cells.get d (Cells.set d m a v) b = if b = a then v else Cells.get d m b := Cells.get_set_above h a b v

/-- Bytes outside a write read as before. -/
theorem Cells.get_write_ne {d : Byte} {m : List Host.Cell} (h : Cells.wf d m = true) (a : Nat) (bs : List Nat) {b : Nat}
    (hb : b < a ∨ a + bs.length ≤ b) : Cells.get d (Cells.write d m a bs) b = Cells.get d m b := by
  induction bs generalizing m a with
  | nil => rfl
  | cons x bs ih =>
    simp only [List.length_cons] at hb
    have hne : b ≠ a := by omega
    rw [Cells.write, ih (Cells.set_wf h a _) (a + 1) (by omega), Cells.get_set h, if_neg hne]

/-- A byte inside a write reads as it was written. -/
theorem Cells.get_write {d : Byte} {m : List Host.Cell} (h : Cells.wf d m = true) (a : Nat) (bs : List Nat) {i : Nat} (hi : i < bs.length) :
    Cells.get d (Cells.write d m a bs) (a + i) = BitVec.ofNat 8 (bs.getD i 0) := by
  induction bs generalizing m a i with
  | nil => exact absurd hi (Nat.not_lt_zero _)
  | cons x bs ih =>
    cases i with
    | zero =>
      rw [Cells.write, Cells.get_write_ne (Cells.set_wf h a _) (a + 1) bs (Or.inl (by omega)), Cells.get_set h]
      simp
    | succ i =>
      have : a + (i + 1) = (a + 1) + i := by omega
      rw [Cells.write, this, ih (Cells.set_wf h a _) (a + 1) (by simpa using hi)]
      simp

@[simp] theorem Cells.read_length (d : Byte) (m : List Host.Cell) (a n : Nat) : (Cells.read d m a n).length = n := by
  induction n generalizing a with
  | zero => rfl
  | succ n ih => simp [Cells.read, ih]

/-- A read is the bytes read one by one. -/
theorem Cells.read_eq_map (d : Byte) (m : List Host.Cell) (a n : Nat) :
    Cells.read d m a n = (List.range n).map (fun i => (Cells.get d m (a + i)).toNat) := by
  induction n generalizing a with
  | zero => rfl
  | succ n ih =>
    rw [Cells.read, ih, List.range_succ_eq_map, List.map_cons, List.map_map]
    refine congrArg₂ _ rfl (List.map_congr_left fun i _ => ?_)
    simp only [Function.comp, Nat.succ_eq_add_one]
    congr 2
    omega

/-- Bytes read back as they were written. -/
theorem Cells.read_write {d : Byte} {m : List Host.Cell} (h : Cells.wf d m = true) (a : Nat) (bs : List Nat) :
    Cells.read d (Cells.write d m a bs) a bs.length = bs.map (· % 256) := by
  rw [Cells.read_eq_map]
  apply List.ext_getElem (by simp)
  intro i h1 h2
  simp only [List.length_map, List.length_range] at h1
  simp [Cells.get_write h a bs h1, List.getD_eq_getElem?_getD, List.getElem?_eq_getElem h1]

end Sys2Proof.Machine
end

