-- ==== Sys2Proof/Laws/Config.lean ====
section
/-! SUPPORT. The lengths of what the published standards give. -/

namespace Sys2Proof

@[simp] theorem Config.octets_length (n v : Nat) : (Config.octets n v).length = n := by simp [Config.octets]

/-- Octets are bytes. -/
theorem Config.octets_map (n v : Nat) : (Config.octets n v).map (· % 256) = Config.octets n v := by
  simp [Config.octets, ← List.map_reverse]

@[simp] theorem Config.lmsRoot_length (k : List Nat) : (Config.lmsRoot k).length = 32 := by simp [Config.lmsRoot]
@[simp] theorem Config.lmsPath_length (k : List Nat) (leaf : Nat) : (Config.lmsPath k leaf).length = 640 := by simp [Config.lmsPath]

/-- An LMS public key has 56 bytes (Table 16-1). -/
theorem Config.lmsPublic_length (k : List Nat) (h : 48 ≤ k.length) : (Config.lmsPublic k).length = 56 := by
  simp [Config.lmsPublic]; omega

end Sys2Proof
end

