-- ==== Sys2Proof/Laws/Tab.lean ====
section
/-! SUPPORT. The laws of tables: a read after a write, and writes to other keys. -/

namespace Sys2Proof.Machine

variable {κ α : Type} [DecidableEq κ]

@[simp] theorem Tab.get_set_same (d : α) (t : Tab κ α) (k : κ) (v : α) : Tab.get d (t.set k v) k = v := by
  induction t with
  | nil => simp [Tab.set, Tab.get]
  | cons p t ih => by_cases h : p.1 = k <;> simp [Tab.set, Tab.get, h, ih]

theorem Tab.get_set_ne (d : α) (t : Tab κ α) {k k' : κ} (v : α) (h : k' ≠ k) : Tab.get d (t.set k v) k' = Tab.get d t k' := by
  induction t with
  | nil => simp [Tab.set, Tab.get, Ne.symm h]
  | cons p t ih =>
    by_cases hk : p.1 = k
    · have : p.1 ≠ k' := fun e => h (e ▸ hk)
      simp [Tab.set, Tab.get, hk, Ne.symm h]
    · by_cases hk' : p.1 = k'
      · subst hk'
        simp [Tab.set, Tab.get, h]
      · simp [Tab.set, Tab.get, hk, hk', ih]

theorem Tab.get_set (d : α) (t : Tab κ α) (k k' : κ) (v : α) :
    Tab.get d (t.set k v) k' = if k' = k then v else Tab.get d t k' := by
  by_cases h : k' = k
  · simp [h]
  · simp [h, Tab.get_set_ne d t v h]

@[simp] theorem Tab.get_upd_same (d : α) (t : Tab κ α) (k : κ) (f : α → α) :
    Tab.get d (t.upd d k f) k = f (Tab.get d t k) := by simp [Tab.upd]

theorem Tab.get_upd_ne (d : α) (t : Tab κ α) {k k' : κ} (f : α → α) (h : k' ≠ k) :
    Tab.get d (t.upd d k f) k' = Tab.get d t k' := Tab.get_set_ne d t _ h

@[simp] theorem Tab.get_nil (d : α) (k : κ) : Tab.get d [] k = d := rfl

end Sys2Proof.Machine
end

