-- ==== Sys2Proof/Laws/State.lean ====
section
/-! SUPPORT. One lemma per field per update of the state, true by unfolding once. -/

namespace Sys2Proof.Machine

variable (s : State) (m : Module) (c : Ctl)

/-! ## The module and the queue -/

@[simp] theorem State.onM_pending (f : Module → Module) : (s.onM f).pending = s.pending := rfl
@[simp] theorem State.onM_m (f : Module → Module) : (s.onM f).m = f s.m := rfl
@[simp] theorem Module.onCtl_ctl (f : Ctl → Ctl) : (m.onCtl f).ctl = f m.ctl := rfl
@[simp] theorem Module.onCtl_mem (f : Ctl → Ctl) : (m.onCtl f).mem = m.mem := rfl
@[simp] theorem Module.onRead_ctl (f : List Host.Cell → Ctl → Ctl) : (m.onRead f).ctl = f m.mem m.ctl := rfl
@[simp] theorem Module.onRead_mem (f : List Host.Cell → Ctl → Ctl) : (m.onRead f).mem = m.mem := rfl

/-! ## `Ctl.wr` -/

@[simp] theorem Ctl.wr_dies (f : Fld) (v i j : Nat) : (c.wr f v i j).dies = c.dies := rfl
@[simp] theorem Ctl.wr_links (f : Fld) (v i j : Nat) : (c.wr f v i j).links = c.links := rfl
@[simp] theorem Ctl.wr_held (f : Fld) (v i j : Nat) : (c.wr f v i j).held = c.held := rfl
@[simp] theorem Ctl.wr_seen (f : Fld) (v i j : Nat) : (c.wr f v i j).seen = c.seen := rfl
@[simp] theorem Ctl.wr_colls (f : Fld) (v i j : Nat) : (c.wr f v i j).colls = c.colls := rfl
@[simp] theorem Ctl.wr_barriers (f : Fld) (v i j : Nat) : (c.wr f v i j).barriers = c.barriers := rfl
@[simp] theorem Ctl.wr_hp (f : Fld) (v i j : Nat) : (c.wr f v i j).hp = c.hp := rfl
@[simp] theorem Ctl.wr_job (f : Fld) (v i j : Nat) : (c.wr f v i j).job = c.job := rfl
@[simp] theorem Ctl.wr_gen (f : Fld) (v i j : Nat) : (c.wr f v i j).gen = c.gen := rfl
@[simp] theorem Ctl.wr_host (f : Fld) (v i j : Nat) : (c.wr f v i j).host = c.host := rfl
@[simp] theorem Ctl.wr_sec (f : Fld) (v i j : Nat) : (c.wr f v i j).sec = c.sec := rfl
@[simp] theorem Ctl.wr_trace (f : Fld) (v i j : Nat) : (c.wr f v i j).trace = c.trace := rfl
@[simp] theorem Ctl.wr_tap (f : Fld) (v i j : Nat) : (c.wr f v i j).tap = c.tap := rfl
@[simp] theorem Ctl.wr_pow (f : Fld) (v i j : Nat) : (c.wr f v i j).pow = c.pow := rfl
@[simp] theorem Ctl.wr_flash (f : Fld) (v i j : Nat) : (c.wr f v i j).flash = c.flash := rfl
@[simp] theorem Ctl.wr_poison (f : Fld) (v i j : Nat) : (c.wr f v i j).poison = c.poison := rfl
@[simp] theorem Ctl.wr_stamps (f : Fld) (v i j : Nat) : (c.wr f v i j).stamps = c.stamps := rfl
@[simp] theorem Ctl.wr_free (f : Fld) (v i j : Nat) : (c.wr f v i j).free = c.free := rfl
@[simp] theorem Ctl.wr_out (f : Fld) (v i j : Nat) : (c.wr f v i j).out = c.out := rfl

/-! ## `Ctl.wrB` -/

@[simp] theorem Ctl.wrB_dies (f : Fld) (b : Bool) (i j : Nat) : (c.wrB f b i j).dies = c.dies := rfl
@[simp] theorem Ctl.wrB_links (f : Fld) (b : Bool) (i j : Nat) : (c.wrB f b i j).links = c.links := rfl
@[simp] theorem Ctl.wrB_held (f : Fld) (b : Bool) (i j : Nat) : (c.wrB f b i j).held = c.held := rfl
@[simp] theorem Ctl.wrB_seen (f : Fld) (b : Bool) (i j : Nat) : (c.wrB f b i j).seen = c.seen := rfl
@[simp] theorem Ctl.wrB_colls (f : Fld) (b : Bool) (i j : Nat) : (c.wrB f b i j).colls = c.colls := rfl
@[simp] theorem Ctl.wrB_barriers (f : Fld) (b : Bool) (i j : Nat) : (c.wrB f b i j).barriers = c.barriers := rfl
@[simp] theorem Ctl.wrB_hp (f : Fld) (b : Bool) (i j : Nat) : (c.wrB f b i j).hp = c.hp := rfl
@[simp] theorem Ctl.wrB_job (f : Fld) (b : Bool) (i j : Nat) : (c.wrB f b i j).job = c.job := rfl
@[simp] theorem Ctl.wrB_gen (f : Fld) (b : Bool) (i j : Nat) : (c.wrB f b i j).gen = c.gen := rfl
@[simp] theorem Ctl.wrB_host (f : Fld) (b : Bool) (i j : Nat) : (c.wrB f b i j).host = c.host := rfl
@[simp] theorem Ctl.wrB_sec (f : Fld) (b : Bool) (i j : Nat) : (c.wrB f b i j).sec = c.sec := rfl
@[simp] theorem Ctl.wrB_trace (f : Fld) (b : Bool) (i j : Nat) : (c.wrB f b i j).trace = c.trace := rfl
@[simp] theorem Ctl.wrB_tap (f : Fld) (b : Bool) (i j : Nat) : (c.wrB f b i j).tap = c.tap := rfl
@[simp] theorem Ctl.wrB_pow (f : Fld) (b : Bool) (i j : Nat) : (c.wrB f b i j).pow = c.pow := rfl
@[simp] theorem Ctl.wrB_flash (f : Fld) (b : Bool) (i j : Nat) : (c.wrB f b i j).flash = c.flash := rfl
@[simp] theorem Ctl.wrB_poison (f : Fld) (b : Bool) (i j : Nat) : (c.wrB f b i j).poison = c.poison := rfl
@[simp] theorem Ctl.wrB_stamps (f : Fld) (b : Bool) (i j : Nat) : (c.wrB f b i j).stamps = c.stamps := rfl
@[simp] theorem Ctl.wrB_free (f : Fld) (b : Bool) (i j : Nat) : (c.wrB f b i j).free = c.free := rfl
@[simp] theorem Ctl.wrB_out (f : Fld) (b : Bool) (i j : Nat) : (c.wrB f b i j).out = c.out := rfl

/-! ## `Ctl.bump` -/

@[simp] theorem Ctl.bump_dies (f : Fld) (i j n : Nat) : (c.bump f i j n).dies = c.dies := rfl
@[simp] theorem Ctl.bump_links (f : Fld) (i j n : Nat) : (c.bump f i j n).links = c.links := rfl
@[simp] theorem Ctl.bump_held (f : Fld) (i j n : Nat) : (c.bump f i j n).held = c.held := rfl
@[simp] theorem Ctl.bump_seen (f : Fld) (i j n : Nat) : (c.bump f i j n).seen = c.seen := rfl
@[simp] theorem Ctl.bump_colls (f : Fld) (i j n : Nat) : (c.bump f i j n).colls = c.colls := rfl
@[simp] theorem Ctl.bump_barriers (f : Fld) (i j n : Nat) : (c.bump f i j n).barriers = c.barriers := rfl
@[simp] theorem Ctl.bump_hp (f : Fld) (i j n : Nat) : (c.bump f i j n).hp = c.hp := rfl
@[simp] theorem Ctl.bump_job (f : Fld) (i j n : Nat) : (c.bump f i j n).job = c.job := rfl
@[simp] theorem Ctl.bump_gen (f : Fld) (i j n : Nat) : (c.bump f i j n).gen = c.gen := rfl
@[simp] theorem Ctl.bump_host (f : Fld) (i j n : Nat) : (c.bump f i j n).host = c.host := rfl
@[simp] theorem Ctl.bump_sec (f : Fld) (i j n : Nat) : (c.bump f i j n).sec = c.sec := rfl
@[simp] theorem Ctl.bump_trace (f : Fld) (i j n : Nat) : (c.bump f i j n).trace = c.trace := rfl
@[simp] theorem Ctl.bump_tap (f : Fld) (i j n : Nat) : (c.bump f i j n).tap = c.tap := rfl
@[simp] theorem Ctl.bump_pow (f : Fld) (i j n : Nat) : (c.bump f i j n).pow = c.pow := rfl
@[simp] theorem Ctl.bump_flash (f : Fld) (i j n : Nat) : (c.bump f i j n).flash = c.flash := rfl
@[simp] theorem Ctl.bump_poison (f : Fld) (i j n : Nat) : (c.bump f i j n).poison = c.poison := rfl
@[simp] theorem Ctl.bump_stamps (f : Fld) (i j n : Nat) : (c.bump f i j n).stamps = c.stamps := rfl
@[simp] theorem Ctl.bump_free (f : Fld) (i j n : Nat) : (c.bump f i j n).free = c.free := rfl
@[simp] theorem Ctl.bump_out (f : Fld) (i j n : Nat) : (c.bump f i j n).out = c.out := rfl

/-! ## `Ctl.add` -/

@[simp] theorem Ctl.add_dies (f : Fld) (n i j : Nat) : (c.add f n i j).dies = c.dies := rfl
@[simp] theorem Ctl.add_links (f : Fld) (n i j : Nat) : (c.add f n i j).links = c.links := rfl
@[simp] theorem Ctl.add_held (f : Fld) (n i j : Nat) : (c.add f n i j).held = c.held := rfl
@[simp] theorem Ctl.add_seen (f : Fld) (n i j : Nat) : (c.add f n i j).seen = c.seen := rfl
@[simp] theorem Ctl.add_colls (f : Fld) (n i j : Nat) : (c.add f n i j).colls = c.colls := rfl
@[simp] theorem Ctl.add_barriers (f : Fld) (n i j : Nat) : (c.add f n i j).barriers = c.barriers := rfl
@[simp] theorem Ctl.add_hp (f : Fld) (n i j : Nat) : (c.add f n i j).hp = c.hp := rfl
@[simp] theorem Ctl.add_job (f : Fld) (n i j : Nat) : (c.add f n i j).job = c.job := rfl
@[simp] theorem Ctl.add_gen (f : Fld) (n i j : Nat) : (c.add f n i j).gen = c.gen := rfl
@[simp] theorem Ctl.add_host (f : Fld) (n i j : Nat) : (c.add f n i j).host = c.host := rfl
@[simp] theorem Ctl.add_sec (f : Fld) (n i j : Nat) : (c.add f n i j).sec = c.sec := rfl
@[simp] theorem Ctl.add_trace (f : Fld) (n i j : Nat) : (c.add f n i j).trace = c.trace := rfl
@[simp] theorem Ctl.add_tap (f : Fld) (n i j : Nat) : (c.add f n i j).tap = c.tap := rfl
@[simp] theorem Ctl.add_pow (f : Fld) (n i j : Nat) : (c.add f n i j).pow = c.pow := rfl
@[simp] theorem Ctl.add_flash (f : Fld) (n i j : Nat) : (c.add f n i j).flash = c.flash := rfl
@[simp] theorem Ctl.add_poison (f : Fld) (n i j : Nat) : (c.add f n i j).poison = c.poison := rfl
@[simp] theorem Ctl.add_stamps (f : Fld) (n i j : Nat) : (c.add f n i j).stamps = c.stamps := rfl
@[simp] theorem Ctl.add_free (f : Fld) (n i j : Nat) : (c.add f n i j).free = c.free := rfl
@[simp] theorem Ctl.add_out (f : Fld) (n i j : Nat) : (c.add f n i j).out = c.out := rfl

/-! ## `Ctl.unset` -/

@[simp] theorem Ctl.unset_dies (f : Fld) (i j : Nat) : (c.unset f i j).dies = c.dies := rfl
@[simp] theorem Ctl.unset_links (f : Fld) (i j : Nat) : (c.unset f i j).links = c.links := rfl
@[simp] theorem Ctl.unset_held (f : Fld) (i j : Nat) : (c.unset f i j).held = c.held := rfl
@[simp] theorem Ctl.unset_seen (f : Fld) (i j : Nat) : (c.unset f i j).seen = c.seen := rfl
@[simp] theorem Ctl.unset_colls (f : Fld) (i j : Nat) : (c.unset f i j).colls = c.colls := rfl
@[simp] theorem Ctl.unset_barriers (f : Fld) (i j : Nat) : (c.unset f i j).barriers = c.barriers := rfl
@[simp] theorem Ctl.unset_hp (f : Fld) (i j : Nat) : (c.unset f i j).hp = c.hp := rfl
@[simp] theorem Ctl.unset_job (f : Fld) (i j : Nat) : (c.unset f i j).job = c.job := rfl
@[simp] theorem Ctl.unset_gen (f : Fld) (i j : Nat) : (c.unset f i j).gen = c.gen := rfl
@[simp] theorem Ctl.unset_host (f : Fld) (i j : Nat) : (c.unset f i j).host = c.host := rfl
@[simp] theorem Ctl.unset_sec (f : Fld) (i j : Nat) : (c.unset f i j).sec = c.sec := rfl
@[simp] theorem Ctl.unset_trace (f : Fld) (i j : Nat) : (c.unset f i j).trace = c.trace := rfl
@[simp] theorem Ctl.unset_tap (f : Fld) (i j : Nat) : (c.unset f i j).tap = c.tap := rfl
@[simp] theorem Ctl.unset_pow (f : Fld) (i j : Nat) : (c.unset f i j).pow = c.pow := rfl
@[simp] theorem Ctl.unset_flash (f : Fld) (i j : Nat) : (c.unset f i j).flash = c.flash := rfl
@[simp] theorem Ctl.unset_poison (f : Fld) (i j : Nat) : (c.unset f i j).poison = c.poison := rfl
@[simp] theorem Ctl.unset_stamps (f : Fld) (i j : Nat) : (c.unset f i j).stamps = c.stamps := rfl
@[simp] theorem Ctl.unset_free (f : Fld) (i j : Nat) : (c.unset f i j).free = c.free := rfl
@[simp] theorem Ctl.unset_out (f : Fld) (i j : Nat) : (c.unset f i j).out = c.out := rfl

/-! ## `Ctl.clearBlk` -/

@[simp] theorem Ctl.clearBlk_dies (b : Blk) (i : Option Nat) : (c.clearBlk b i).dies = c.dies := rfl
@[simp] theorem Ctl.clearBlk_links (b : Blk) (i : Option Nat) : (c.clearBlk b i).links = c.links := rfl
@[simp] theorem Ctl.clearBlk_held (b : Blk) (i : Option Nat) : (c.clearBlk b i).held = c.held := rfl
@[simp] theorem Ctl.clearBlk_seen (b : Blk) (i : Option Nat) : (c.clearBlk b i).seen = c.seen := rfl
@[simp] theorem Ctl.clearBlk_colls (b : Blk) (i : Option Nat) : (c.clearBlk b i).colls = c.colls := rfl
@[simp] theorem Ctl.clearBlk_barriers (b : Blk) (i : Option Nat) : (c.clearBlk b i).barriers = c.barriers := rfl
@[simp] theorem Ctl.clearBlk_hp (b : Blk) (i : Option Nat) : (c.clearBlk b i).hp = c.hp := rfl
@[simp] theorem Ctl.clearBlk_job (b : Blk) (i : Option Nat) : (c.clearBlk b i).job = c.job := rfl
@[simp] theorem Ctl.clearBlk_gen (b : Blk) (i : Option Nat) : (c.clearBlk b i).gen = c.gen := rfl
@[simp] theorem Ctl.clearBlk_host (b : Blk) (i : Option Nat) : (c.clearBlk b i).host = c.host := rfl
@[simp] theorem Ctl.clearBlk_sec (b : Blk) (i : Option Nat) : (c.clearBlk b i).sec = c.sec := rfl
@[simp] theorem Ctl.clearBlk_trace (b : Blk) (i : Option Nat) : (c.clearBlk b i).trace = c.trace := rfl
@[simp] theorem Ctl.clearBlk_tap (b : Blk) (i : Option Nat) : (c.clearBlk b i).tap = c.tap := rfl
@[simp] theorem Ctl.clearBlk_pow (b : Blk) (i : Option Nat) : (c.clearBlk b i).pow = c.pow := rfl
@[simp] theorem Ctl.clearBlk_flash (b : Blk) (i : Option Nat) : (c.clearBlk b i).flash = c.flash := rfl
@[simp] theorem Ctl.clearBlk_poison (b : Blk) (i : Option Nat) : (c.clearBlk b i).poison = c.poison := rfl
@[simp] theorem Ctl.clearBlk_stamps (b : Blk) (i : Option Nat) : (c.clearBlk b i).stamps = c.stamps := rfl
@[simp] theorem Ctl.clearBlk_free (b : Blk) (i : Option Nat) : (c.clearBlk b i).free = c.free := rfl
@[simp] theorem Ctl.clearBlk_out (b : Blk) (i : Option Nat) : (c.clearBlk b i).out = c.out := rfl

/-! ## `Ctl.count` -/

@[simp] theorem Ctl.count_dies (d u i n : Nat) : (c.count d u i n).dies = c.dies := rfl
@[simp] theorem Ctl.count_links (d u i n : Nat) : (c.count d u i n).links = c.links := rfl
@[simp] theorem Ctl.count_held (d u i n : Nat) : (c.count d u i n).held = c.held := rfl
@[simp] theorem Ctl.count_seen (d u i n : Nat) : (c.count d u i n).seen = c.seen := rfl
@[simp] theorem Ctl.count_colls (d u i n : Nat) : (c.count d u i n).colls = c.colls := rfl
@[simp] theorem Ctl.count_barriers (d u i n : Nat) : (c.count d u i n).barriers = c.barriers := rfl
@[simp] theorem Ctl.count_hp (d u i n : Nat) : (c.count d u i n).hp = c.hp := rfl
@[simp] theorem Ctl.count_job (d u i n : Nat) : (c.count d u i n).job = c.job := rfl
@[simp] theorem Ctl.count_gen (d u i n : Nat) : (c.count d u i n).gen = c.gen := rfl
@[simp] theorem Ctl.count_host (d u i n : Nat) : (c.count d u i n).host = c.host := rfl
@[simp] theorem Ctl.count_sec (d u i n : Nat) : (c.count d u i n).sec = c.sec := rfl
@[simp] theorem Ctl.count_trace (d u i n : Nat) : (c.count d u i n).trace = c.trace := rfl
@[simp] theorem Ctl.count_tap (d u i n : Nat) : (c.count d u i n).tap = c.tap := rfl
@[simp] theorem Ctl.count_pow (d u i n : Nat) : (c.count d u i n).pow = c.pow := rfl
@[simp] theorem Ctl.count_flash (d u i n : Nat) : (c.count d u i n).flash = c.flash := rfl
@[simp] theorem Ctl.count_poison (d u i n : Nat) : (c.count d u i n).poison = c.poison := rfl
@[simp] theorem Ctl.count_stamps (d u i n : Nat) : (c.count d u i n).stamps = c.stamps := rfl
@[simp] theorem Ctl.count_free (d u i n : Nat) : (c.count d u i n).free = c.free := rfl
@[simp] theorem Ctl.count_out (d u i n : Nat) : (c.count d u i n).out = c.out := rfl

/-! ## `Ctl.onDie` -/

@[simp] theorem Ctl.onDie_regs (d : Nat) (f : DieSt → DieSt) : (c.onDie d f).regs = c.regs := rfl
@[simp] theorem Ctl.onDie_links (d : Nat) (f : DieSt → DieSt) : (c.onDie d f).links = c.links := rfl
@[simp] theorem Ctl.onDie_held (d : Nat) (f : DieSt → DieSt) : (c.onDie d f).held = c.held := rfl
@[simp] theorem Ctl.onDie_seen (d : Nat) (f : DieSt → DieSt) : (c.onDie d f).seen = c.seen := rfl
@[simp] theorem Ctl.onDie_colls (d : Nat) (f : DieSt → DieSt) : (c.onDie d f).colls = c.colls := rfl
@[simp] theorem Ctl.onDie_barriers (d : Nat) (f : DieSt → DieSt) : (c.onDie d f).barriers = c.barriers := rfl
@[simp] theorem Ctl.onDie_hp (d : Nat) (f : DieSt → DieSt) : (c.onDie d f).hp = c.hp := rfl
@[simp] theorem Ctl.onDie_job (d : Nat) (f : DieSt → DieSt) : (c.onDie d f).job = c.job := rfl
@[simp] theorem Ctl.onDie_gen (d : Nat) (f : DieSt → DieSt) : (c.onDie d f).gen = c.gen := rfl
@[simp] theorem Ctl.onDie_host (d : Nat) (f : DieSt → DieSt) : (c.onDie d f).host = c.host := rfl
@[simp] theorem Ctl.onDie_sec (d : Nat) (f : DieSt → DieSt) : (c.onDie d f).sec = c.sec := rfl
@[simp] theorem Ctl.onDie_trace (d : Nat) (f : DieSt → DieSt) : (c.onDie d f).trace = c.trace := rfl
@[simp] theorem Ctl.onDie_tap (d : Nat) (f : DieSt → DieSt) : (c.onDie d f).tap = c.tap := rfl
@[simp] theorem Ctl.onDie_pow (d : Nat) (f : DieSt → DieSt) : (c.onDie d f).pow = c.pow := rfl
@[simp] theorem Ctl.onDie_flash (d : Nat) (f : DieSt → DieSt) : (c.onDie d f).flash = c.flash := rfl
@[simp] theorem Ctl.onDie_poison (d : Nat) (f : DieSt → DieSt) : (c.onDie d f).poison = c.poison := rfl
@[simp] theorem Ctl.onDie_stamps (d : Nat) (f : DieSt → DieSt) : (c.onDie d f).stamps = c.stamps := rfl
@[simp] theorem Ctl.onDie_free (d : Nat) (f : DieSt → DieSt) : (c.onDie d f).free = c.free := rfl
@[simp] theorem Ctl.onDie_out (d : Nat) (f : DieSt → DieSt) : (c.onDie d f).out = c.out := rfl
@[simp] theorem Ctl.onDie_rd (d : Nat) (f : DieSt → DieSt) (g : Fld) (i' j' : Nat) : (c.onDie d f).rd g i' j' = c.rd g i' j' := rfl

/-! ## `Ctl.onLink` -/

@[simp] theorem Ctl.onLink_regs (x : Nat) (f : LinkSt → LinkSt) : (c.onLink x f).regs = c.regs := rfl
@[simp] theorem Ctl.onLink_dies (x : Nat) (f : LinkSt → LinkSt) : (c.onLink x f).dies = c.dies := rfl
@[simp] theorem Ctl.onLink_held (x : Nat) (f : LinkSt → LinkSt) : (c.onLink x f).held = c.held := rfl
@[simp] theorem Ctl.onLink_seen (x : Nat) (f : LinkSt → LinkSt) : (c.onLink x f).seen = c.seen := rfl
@[simp] theorem Ctl.onLink_colls (x : Nat) (f : LinkSt → LinkSt) : (c.onLink x f).colls = c.colls := rfl
@[simp] theorem Ctl.onLink_barriers (x : Nat) (f : LinkSt → LinkSt) : (c.onLink x f).barriers = c.barriers := rfl
@[simp] theorem Ctl.onLink_hp (x : Nat) (f : LinkSt → LinkSt) : (c.onLink x f).hp = c.hp := rfl
@[simp] theorem Ctl.onLink_job (x : Nat) (f : LinkSt → LinkSt) : (c.onLink x f).job = c.job := rfl
@[simp] theorem Ctl.onLink_gen (x : Nat) (f : LinkSt → LinkSt) : (c.onLink x f).gen = c.gen := rfl
@[simp] theorem Ctl.onLink_host (x : Nat) (f : LinkSt → LinkSt) : (c.onLink x f).host = c.host := rfl
@[simp] theorem Ctl.onLink_sec (x : Nat) (f : LinkSt → LinkSt) : (c.onLink x f).sec = c.sec := rfl
@[simp] theorem Ctl.onLink_trace (x : Nat) (f : LinkSt → LinkSt) : (c.onLink x f).trace = c.trace := rfl
@[simp] theorem Ctl.onLink_tap (x : Nat) (f : LinkSt → LinkSt) : (c.onLink x f).tap = c.tap := rfl
@[simp] theorem Ctl.onLink_pow (x : Nat) (f : LinkSt → LinkSt) : (c.onLink x f).pow = c.pow := rfl
@[simp] theorem Ctl.onLink_flash (x : Nat) (f : LinkSt → LinkSt) : (c.onLink x f).flash = c.flash := rfl
@[simp] theorem Ctl.onLink_poison (x : Nat) (f : LinkSt → LinkSt) : (c.onLink x f).poison = c.poison := rfl
@[simp] theorem Ctl.onLink_stamps (x : Nat) (f : LinkSt → LinkSt) : (c.onLink x f).stamps = c.stamps := rfl
@[simp] theorem Ctl.onLink_free (x : Nat) (f : LinkSt → LinkSt) : (c.onLink x f).free = c.free := rfl
@[simp] theorem Ctl.onLink_out (x : Nat) (f : LinkSt → LinkSt) : (c.onLink x f).out = c.out := rfl
@[simp] theorem Ctl.onLink_rd (x : Nat) (f : LinkSt → LinkSt) (g : Fld) (i' j' : Nat) : (c.onLink x f).rd g i' j' = c.rd g i' j' := rfl

/-! ## `Ctl.send` -/

@[simp] theorem Ctl.send_regs (x : Output) : (c.send x).regs = c.regs := rfl
@[simp] theorem Ctl.send_dies (x : Output) : (c.send x).dies = c.dies := rfl
@[simp] theorem Ctl.send_links (x : Output) : (c.send x).links = c.links := rfl
@[simp] theorem Ctl.send_held (x : Output) : (c.send x).held = c.held := rfl
@[simp] theorem Ctl.send_seen (x : Output) : (c.send x).seen = c.seen := rfl
@[simp] theorem Ctl.send_colls (x : Output) : (c.send x).colls = c.colls := rfl
@[simp] theorem Ctl.send_barriers (x : Output) : (c.send x).barriers = c.barriers := rfl
@[simp] theorem Ctl.send_hp (x : Output) : (c.send x).hp = c.hp := rfl
@[simp] theorem Ctl.send_job (x : Output) : (c.send x).job = c.job := rfl
@[simp] theorem Ctl.send_gen (x : Output) : (c.send x).gen = c.gen := rfl
@[simp] theorem Ctl.send_host (x : Output) : (c.send x).host = c.host := rfl
@[simp] theorem Ctl.send_sec (x : Output) : (c.send x).sec = c.sec := rfl
@[simp] theorem Ctl.send_trace (x : Output) : (c.send x).trace = c.trace := rfl
@[simp] theorem Ctl.send_tap (x : Output) : (c.send x).tap = c.tap := rfl
@[simp] theorem Ctl.send_pow (x : Output) : (c.send x).pow = c.pow := rfl
@[simp] theorem Ctl.send_flash (x : Output) : (c.send x).flash = c.flash := rfl
@[simp] theorem Ctl.send_poison (x : Output) : (c.send x).poison = c.poison := rfl
@[simp] theorem Ctl.send_stamps (x : Output) : (c.send x).stamps = c.stamps := rfl
@[simp] theorem Ctl.send_free (x : Output) : (c.send x).free = c.free := rfl
@[simp] theorem Ctl.send_rd (x : Output) (g : Fld) (i' j' : Nat) : (c.send x).rd g i' j' = c.rd g i' j' := rfl

/-! ## `Ctl.setFifo` -/

@[simp] theorem Ctl.setFifo_regs (d : Nat) (q : TraceFifo) : (c.setFifo d q).regs = c.regs := rfl
@[simp] theorem Ctl.setFifo_dies (d : Nat) (q : TraceFifo) : (c.setFifo d q).dies = c.dies := rfl
@[simp] theorem Ctl.setFifo_links (d : Nat) (q : TraceFifo) : (c.setFifo d q).links = c.links := rfl
@[simp] theorem Ctl.setFifo_held (d : Nat) (q : TraceFifo) : (c.setFifo d q).held = c.held := rfl
@[simp] theorem Ctl.setFifo_seen (d : Nat) (q : TraceFifo) : (c.setFifo d q).seen = c.seen := rfl
@[simp] theorem Ctl.setFifo_colls (d : Nat) (q : TraceFifo) : (c.setFifo d q).colls = c.colls := rfl
@[simp] theorem Ctl.setFifo_barriers (d : Nat) (q : TraceFifo) : (c.setFifo d q).barriers = c.barriers := rfl
@[simp] theorem Ctl.setFifo_hp (d : Nat) (q : TraceFifo) : (c.setFifo d q).hp = c.hp := rfl
@[simp] theorem Ctl.setFifo_job (d : Nat) (q : TraceFifo) : (c.setFifo d q).job = c.job := rfl
@[simp] theorem Ctl.setFifo_gen (d : Nat) (q : TraceFifo) : (c.setFifo d q).gen = c.gen := rfl
@[simp] theorem Ctl.setFifo_host (d : Nat) (q : TraceFifo) : (c.setFifo d q).host = c.host := rfl
@[simp] theorem Ctl.setFifo_sec (d : Nat) (q : TraceFifo) : (c.setFifo d q).sec = c.sec := rfl
@[simp] theorem Ctl.setFifo_tap (d : Nat) (q : TraceFifo) : (c.setFifo d q).tap = c.tap := rfl
@[simp] theorem Ctl.setFifo_pow (d : Nat) (q : TraceFifo) : (c.setFifo d q).pow = c.pow := rfl
@[simp] theorem Ctl.setFifo_flash (d : Nat) (q : TraceFifo) : (c.setFifo d q).flash = c.flash := rfl
@[simp] theorem Ctl.setFifo_poison (d : Nat) (q : TraceFifo) : (c.setFifo d q).poison = c.poison := rfl
@[simp] theorem Ctl.setFifo_stamps (d : Nat) (q : TraceFifo) : (c.setFifo d q).stamps = c.stamps := rfl
@[simp] theorem Ctl.setFifo_free (d : Nat) (q : TraceFifo) : (c.setFifo d q).free = c.free := rfl
@[simp] theorem Ctl.setFifo_out (d : Nat) (q : TraceFifo) : (c.setFifo d q).out = c.out := rfl
@[simp] theorem Ctl.setFifo_rd (d : Nat) (q : TraceFifo) (g : Fld) (i' j' : Nat) : (c.setFifo d q).rd g i' j' = c.rd g i' j' := rfl

/-! ## `Ctl.setPoison` -/

@[simp] theorem Ctl.setPoison_regs (l : Nat) (p : Bool) : (c.setPoison l p).regs = c.regs := rfl
@[simp] theorem Ctl.setPoison_dies (l : Nat) (p : Bool) : (c.setPoison l p).dies = c.dies := rfl
@[simp] theorem Ctl.setPoison_links (l : Nat) (p : Bool) : (c.setPoison l p).links = c.links := rfl
@[simp] theorem Ctl.setPoison_held (l : Nat) (p : Bool) : (c.setPoison l p).held = c.held := rfl
@[simp] theorem Ctl.setPoison_seen (l : Nat) (p : Bool) : (c.setPoison l p).seen = c.seen := rfl
@[simp] theorem Ctl.setPoison_colls (l : Nat) (p : Bool) : (c.setPoison l p).colls = c.colls := rfl
@[simp] theorem Ctl.setPoison_barriers (l : Nat) (p : Bool) : (c.setPoison l p).barriers = c.barriers := rfl
@[simp] theorem Ctl.setPoison_hp (l : Nat) (p : Bool) : (c.setPoison l p).hp = c.hp := rfl
@[simp] theorem Ctl.setPoison_job (l : Nat) (p : Bool) : (c.setPoison l p).job = c.job := rfl
@[simp] theorem Ctl.setPoison_gen (l : Nat) (p : Bool) : (c.setPoison l p).gen = c.gen := rfl
@[simp] theorem Ctl.setPoison_host (l : Nat) (p : Bool) : (c.setPoison l p).host = c.host := rfl
@[simp] theorem Ctl.setPoison_sec (l : Nat) (p : Bool) : (c.setPoison l p).sec = c.sec := rfl
@[simp] theorem Ctl.setPoison_trace (l : Nat) (p : Bool) : (c.setPoison l p).trace = c.trace := rfl
@[simp] theorem Ctl.setPoison_tap (l : Nat) (p : Bool) : (c.setPoison l p).tap = c.tap := rfl
@[simp] theorem Ctl.setPoison_pow (l : Nat) (p : Bool) : (c.setPoison l p).pow = c.pow := rfl
@[simp] theorem Ctl.setPoison_flash (l : Nat) (p : Bool) : (c.setPoison l p).flash = c.flash := rfl
@[simp] theorem Ctl.setPoison_stamps (l : Nat) (p : Bool) : (c.setPoison l p).stamps = c.stamps := rfl
@[simp] theorem Ctl.setPoison_free (l : Nat) (p : Bool) : (c.setPoison l p).free = c.free := rfl
@[simp] theorem Ctl.setPoison_out (l : Nat) (p : Bool) : (c.setPoison l p).out = c.out := rfl
@[simp] theorem Ctl.setPoison_rd (l : Nat) (p : Bool) (g : Fld) (i' j' : Nat) : (c.setPoison l p).rd g i' j' = c.rd g i' j' := rfl

/-! ## `Ctl.cleanSpan` -/

@[simp] theorem Ctl.cleanSpan_regs (a n : Nat) : (c.cleanSpan a n).regs = c.regs := rfl
@[simp] theorem Ctl.cleanSpan_dies (a n : Nat) : (c.cleanSpan a n).dies = c.dies := rfl
@[simp] theorem Ctl.cleanSpan_links (a n : Nat) : (c.cleanSpan a n).links = c.links := rfl
@[simp] theorem Ctl.cleanSpan_held (a n : Nat) : (c.cleanSpan a n).held = c.held := rfl
@[simp] theorem Ctl.cleanSpan_seen (a n : Nat) : (c.cleanSpan a n).seen = c.seen := rfl
@[simp] theorem Ctl.cleanSpan_colls (a n : Nat) : (c.cleanSpan a n).colls = c.colls := rfl
@[simp] theorem Ctl.cleanSpan_barriers (a n : Nat) : (c.cleanSpan a n).barriers = c.barriers := rfl
@[simp] theorem Ctl.cleanSpan_hp (a n : Nat) : (c.cleanSpan a n).hp = c.hp := rfl
@[simp] theorem Ctl.cleanSpan_job (a n : Nat) : (c.cleanSpan a n).job = c.job := rfl
@[simp] theorem Ctl.cleanSpan_gen (a n : Nat) : (c.cleanSpan a n).gen = c.gen := rfl
@[simp] theorem Ctl.cleanSpan_host (a n : Nat) : (c.cleanSpan a n).host = c.host := rfl
@[simp] theorem Ctl.cleanSpan_sec (a n : Nat) : (c.cleanSpan a n).sec = c.sec := rfl
@[simp] theorem Ctl.cleanSpan_trace (a n : Nat) : (c.cleanSpan a n).trace = c.trace := rfl
@[simp] theorem Ctl.cleanSpan_tap (a n : Nat) : (c.cleanSpan a n).tap = c.tap := rfl
@[simp] theorem Ctl.cleanSpan_pow (a n : Nat) : (c.cleanSpan a n).pow = c.pow := rfl
@[simp] theorem Ctl.cleanSpan_flash (a n : Nat) : (c.cleanSpan a n).flash = c.flash := rfl
@[simp] theorem Ctl.cleanSpan_stamps (a n : Nat) : (c.cleanSpan a n).stamps = c.stamps := rfl
@[simp] theorem Ctl.cleanSpan_free (a n : Nat) : (c.cleanSpan a n).free = c.free := rfl
@[simp] theorem Ctl.cleanSpan_out (a n : Nat) : (c.cleanSpan a n).out = c.out := rfl
@[simp] theorem Ctl.cleanSpan_rd (a n : Nat) (g : Fld) (i' j' : Nat) : (c.cleanSpan a n).rd g i' j' = c.rd g i' j' := rfl

/-! ## `Ctl.relay` -/

@[simp] theorem Ctl.relay_regs (e : Event) : (c.relay e).regs = c.regs := rfl
@[simp] theorem Ctl.relay_dies (e : Event) : (c.relay e).dies = c.dies := rfl
@[simp] theorem Ctl.relay_links (e : Event) : (c.relay e).links = c.links := rfl
@[simp] theorem Ctl.relay_held (e : Event) : (c.relay e).held = c.held := rfl
@[simp] theorem Ctl.relay_seen (e : Event) : (c.relay e).seen = c.seen := rfl
@[simp] theorem Ctl.relay_colls (e : Event) : (c.relay e).colls = c.colls := rfl
@[simp] theorem Ctl.relay_barriers (e : Event) : (c.relay e).barriers = c.barriers := rfl
@[simp] theorem Ctl.relay_hp (e : Event) : (c.relay e).hp = c.hp := rfl
@[simp] theorem Ctl.relay_job (e : Event) : (c.relay e).job = c.job := rfl
@[simp] theorem Ctl.relay_gen (e : Event) : (c.relay e).gen = c.gen := rfl
@[simp] theorem Ctl.relay_sec (e : Event) : (c.relay e).sec = c.sec := rfl
@[simp] theorem Ctl.relay_trace (e : Event) : (c.relay e).trace = c.trace := rfl
@[simp] theorem Ctl.relay_tap (e : Event) : (c.relay e).tap = c.tap := rfl
@[simp] theorem Ctl.relay_pow (e : Event) : (c.relay e).pow = c.pow := rfl
@[simp] theorem Ctl.relay_flash (e : Event) : (c.relay e).flash = c.flash := rfl
@[simp] theorem Ctl.relay_poison (e : Event) : (c.relay e).poison = c.poison := rfl
@[simp] theorem Ctl.relay_stamps (e : Event) : (c.relay e).stamps = c.stamps := rfl
@[simp] theorem Ctl.relay_free (e : Event) : (c.relay e).free = c.free := rfl
@[simp] theorem Ctl.relay_out (e : Event) : (c.relay e).out = c.out := rfl
@[simp] theorem Ctl.relay_rd (e : Event) (g : Fld) (i' j' : Nat) : (c.relay e).rd g i' j' = c.rd g i' j' := rfl

end Sys2Proof.Machine
end

