-- ==== Sys2Proof/Laws/Regs.lean ====
section
/-! SUPPORT. Register fields: a read after a write, and writes to other fields. -/

namespace Sys2Proof.Machine

variable (c : Ctl)

/-- Two elements of fields stand in different places. -/
abbrev Fld.apart (f : Fld) (i j : Nat) (g : Fld) (i' j' : Nat) : Prop := g.key i' j' ≠ f.key i j

theorem Ctl.rd_wr (f : Fld) (v i j : Nat) (g : Fld) (i' j' : Nat) (h : f.apart i j g i' j') :
    (c.wr f v i j).rd g i' j' = c.rd g i' j' := Tab.get_set_ne _ _ _ h

theorem Ctl.rd_wr_same (f : Fld) (v i j : Nat) : (c.wr f v i j).rd f i j = v % 2 ^ f.width := Tab.get_set_same _ _ _ _

theorem Ctl.rd_bump (f : Fld) (i j n : Nat) (g : Fld) (i' j' : Nat) (h : f.apart i j g i' j') :
    (c.bump f i j n).rd g i' j' = c.rd g i' j' := Ctl.rd_wr c f _ i j g i' j' h

/-- A saturating counter stops at its largest value. -/
theorem Ctl.rd_bump_same (f : Fld) (i j n : Nat) : (c.bump f i j n).rd f i j = min (c.rd f i j + n) (2 ^ f.width - 1) := by
  have h : 0 < 2 ^ f.width := Nat.two_pow_pos _
  rw [Ctl.bump, Ctl.rd_wr_same, Nat.mod_eq_of_lt (by omega)]

theorem Ctl.rd_add (f : Fld) (n i j : Nat) (g : Fld) (i' j' : Nat) (h : f.apart i j g i' j') :
    (c.add f n i j).rd g i' j' = c.rd g i' j' := Ctl.rd_wr c f _ i j g i' j' h

/-- A wrapping counter. -/
theorem Ctl.rd_add_same (f : Fld) (n i j : Nat) : (c.add f n i j).rd f i j = (c.rd f i j + n) % 2 ^ f.width :=
  Ctl.rd_wr_same c f _ i j

/-- A field of another block keeps its value. -/
theorem Fld.apart_of_blk {f g : Fld} (h : g.blk ≠ f.blk) (i j i' j' : Nat) : f.apart i j g i' j' :=
  fun e => h (congrArg RKey.blk e)

end Sys2Proof.Machine
end

