-- ==== Sys2Proof/Laws/Ops.lean ====
section
/-! SUPPORT. What posting an event, emitting a trace record and ringing a doorbell leave unchanged, and that every operation
over addressed memory keeps its canonical form. -/

namespace Sys2Proof.Machine

/-! ## Events and trace records -/

theorem Ctl.Quiet.refl (c : Ctl) : c.Quiet c :=
  ⟨rfl, rfl, rfl, rfl, rfl, rfl, rfl, rfl, rfl, rfl, rfl, rfl, rfl, rfl, fun _ _ _ _ _ _ _ => rfl⟩

theorem Ctl.Quiet.trans {a b c : Ctl} (h : a.Quiet b) (k : b.Quiet c) : a.Quiet c where
  dies := k.dies.trans h.dies
  links := k.links.trans h.links
  held := k.held.trans h.held
  seen := k.seen.trans h.seen
  colls := k.colls.trans h.colls
  barriers := k.barriers.trans h.barriers
  hp := k.hp.trans h.hp
  job := k.job.trans h.job
  gen := by rw [k.gen, h.gen]
  sec := k.sec.trans h.sec
  tap := k.tap.trans h.tap
  pow := k.pow.trans h.pow
  flash := k.flash.trans h.flash
  poison := k.poison.trans h.poison
  rd f i j h1 h2 h3 h4 := (k.rd f i j h1 h2 h3 h4).trans (h.rd f i j h1 h2 h3 h4)

/-- Writing a field of the event ring, the doorbells or the trace block is quiet. -/
theorem Ctl.wr_quiet (c : Ctl) (f : Fld) (v i j : Nat) (h : f.blk = .ev ∨ f.blk = .db ∨ f.blk = .tr) : c.Quiet (c.wr f v i j) := by
  refine ⟨rfl, rfl, rfl, rfl, rfl, rfl, rfl, rfl, rfl, rfl, rfl, rfl, rfl, rfl, fun g i' j' h1 h2 h3 _ => ?_⟩
  refine Ctl.rd_wr c f v i j g i' j' (Fld.apart_of_blk (fun e => ?_) _ _ _ _)
  rcases h with h | h | h <;> simp_all

/-- Changing only the host interface's queues, trace, stamps, open values and outputs is quiet. -/
theorem Ctl.host_quiet (c : Ctl) (h : HostSt) : c.Quiet { c with host := h } :=
  ⟨rfl, rfl, rfl, rfl, rfl, rfl, rfl, rfl, rfl, rfl, rfl, rfl, rfl, rfl, fun _ _ _ _ _ _ _ => rfl⟩

theorem Ctl.send_quiet (c : Ctl) (o : Output) : c.Quiet (c.send o) :=
  ⟨rfl, rfl, rfl, rfl, rfl, rfl, rfl, rfl, rfl, rfl, rfl, rfl, rfl, rfl, fun _ _ _ _ _ _ _ => rfl⟩

theorem Ctl.stamp_quiet (c : Ctl) (d : Nat) : c.Quiet (c.stamp d).2 :=
  ⟨rfl, rfl, rfl, rfl, rfl, rfl, rfl, rfl, rfl, rfl, rfl, rfl, rfl, rfl, fun _ _ _ _ _ _ _ => rfl⟩

theorem Ctl.setFifo_quiet (c : Ctl) (d : Nat) (q : TraceFifo) : c.Quiet (c.setFifo d q) :=
  ⟨rfl, rfl, rfl, rfl, rfl, rfl, rfl, rfl, rfl, rfl, rfl, rfl, rfl, rfl, fun _ _ _ _ _ _ _ => rfl⟩

theorem Ctl.summarise_quiet (c : Ctl) (d t : Nat) : c.Quiet (c.summarise d t) := by
  unfold Ctl.summarise
  dsimp only
  split
  · exact Ctl.setFifo_quiet _ _ _
  · exact Ctl.Quiet.refl c

theorem Ctl.shedCount_quiet (c : Ctl) (k : Option Nat) : c.Quiet (c.shedCount k) := by
  unfold Ctl.shedCount
  split
  · exact Ctl.wr_quiet _ _ _ _ _ (.inr (.inr rfl))
  · exact Ctl.Quiet.refl c

theorem Ctl.enterFifo_quiet (c : Ctl) (d t u ty cl : Nat) (pl : List Nat) : c.Quiet (c.enterFifo d t u ty cl pl) :=
  (Ctl.setFifo_quiet c d _).trans (Ctl.shedCount_quiet _ _)

/-- A record that enters its FIFO, or waits, is quiet. -/
theorem Ctl.enqueue_quiet (c : Ctl) (d t u ty cl : Nat) (pl : List Nat) : c.Quiet (c.enqueue d t u ty cl pl) := by
  unfold Ctl.enqueue
  dsimp only
  split
  · exact (Ctl.summarise_quiet c d t).trans (Ctl.setFifo_quiet _ _ _)
  · exact (Ctl.summarise_quiet c d t).trans (Ctl.enterFifo_quiet _ _ _ _ _ _ _)

/-- What enters a FIFO once an entry is free is quiet. -/
theorem Ctl.unwait_quiet (c : Ctl) (d : Nat) : c.Quiet (c.unwait d) := by
  unfold Ctl.unwait
  dsimp only
  have h := (Ctl.stamp_quiet c d).trans (Ctl.summarise_quiet (c.stamp d).2 d (c.stamp d).1)
  split
  · exact Ctl.Quiet.refl c
  · split
    · split
      · exact h
      · exact (h.trans (Ctl.setFifo_quiet _ _ _)).trans (Ctl.enterFifo_quiet _ _ _ _ _ _ _)
    · exact h

/-- Emitting a trace record is quiet. -/
theorem Ctl.emit_quiet (c : Ctl) (d u ty cl : Nat) (pl : List Nat) : c.Quiet (c.emit d u ty cl pl) := by
  unfold Ctl.emit
  split
  · exact (Ctl.stamp_quiet c d).trans (Ctl.enqueue_quiet _ _ _ _ _ _ _)
  · exact Ctl.Quiet.refl c

theorem Ctl.msix_quiet (c : Ctl) (n : Nat) : c.Quiet (c.msix n) := by
  unfold Ctl.msix
  split
  · exact Ctl.host_quiet _ _
  · exact Ctl.send_quiet _ _

/-- Setting a doorbell bit is quiet. -/
theorem Ctl.ring_quiet (c : Ctl) (n : Nat) : c.Quiet (c.ring n) := by
  unfold Ctl.ring
  dsimp only
  have h := Ctl.wr_quiet c Fld.db_DB_PEND (setBit (c.rd Fld.db_DB_PEND) n true) 0 0 (.inr (.inl rfl))
  split
  · exact h.trans (Ctl.msix_quiet _ _)
  · exact h

theorem Ctl.ibi_quiet (c : Ctl) (b : List Nat) : c.Quiet (c.ibi b) := by
  unfold Ctl.ibi
  split
  · exact Ctl.send_quiet _ _
  · exact Ctl.Quiet.refl c

theorem Ctl.threshBell_quiet (c : Ctl) : c.Quiet c.threshBell := by
  unfold Ctl.threshBell
  split
  · exact Ctl.ring_quiet _ _
  · exact Ctl.Quiet.refl c

theorem Ctl.alarmBell_quiet (c : Ctl) (e : Event) : c.Quiet (c.alarmBell e) := by
  unfold Ctl.alarmBell
  split
  · exact (Ctl.ring_quiet _ _).trans (Ctl.ibi_quiet _ _)
  · exact Ctl.Quiet.refl c

theorem Ctl.lowBell_quiet (c : Ctl) : c.Quiet c.lowBell := by
  unfold Ctl.lowBell
  split
  · exact Ctl.ring_quiet _ _
  · exact Ctl.Quiet.refl c

theorem Ctl.writeEntry_quiet (c : Ctl) (e : Event) : c.Quiet (c.writeEntry e) := by
  unfold Ctl.writeEntry
  exact ((((Ctl.host_quiet c _).trans (Ctl.wr_quiet _ _ _ _ _ (.inl rfl))).trans (Ctl.threshBell_quiet _)).trans
    (Ctl.alarmBell_quiet _ _)).trans (Ctl.lowBell_quiet _)

theorem Ctl.raise_quiet (c : Ctl) (code cls d u : Nat) (r : Option Nat) (pl : List Nat) : c.Quiet (c.raise code cls d u r pl).2 :=
  ((Ctl.stamp_quiet c dieHD).trans (Ctl.host_quiet _ _)).trans (Ctl.emit_quiet _ _ _ _ _ _)

theorem Ctl.flushLoss_quiet (c : Ctl) : c.Quiet c.flushLoss := by
  unfold Ctl.flushLoss
  split
  · exact Ctl.Quiet.refl c
  · split
    · exact Ctl.Quiet.refl c
    · exact ((Ctl.raise_quiet c _ _ _ _ _ _).trans (Ctl.host_quiet _ _)).trans (Ctl.writeEntry_quiet _ _)

theorem Ctl.place_quiet (c : Ctl) (e : Event) : c.Quiet (c.place e) := by
  unfold Ctl.place
  split
  · split
    · exact Ctl.host_quiet _ _
    · exact Ctl.writeEntry_quiet _ _
  · split
    · exact (Ctl.host_quiet _ _).trans (Ctl.wr_quiet _ _ _ _ _ (.inl rfl))
    · exact Ctl.writeEntry_quiet _ _

/-- Noting precursor events changes the events noted, SG_MTBF and SG_PRECURSOR alone. -/
theorem Ctl.showPrecursors_quiet (c : Ctl) : c.Quiet c.showPrecursors := by
  refine ⟨rfl, rfl, rfl, rfl, rfl, rfl, rfl, rfl, rfl, rfl, rfl, rfl, rfl, rfl, fun g i j _ _ _ h => ?_⟩
  refine (Ctl.rd_wr _ Fld.sg_SG_PRECURSOR _ 0 0 g i j (fun e => ?_)).trans (Ctl.rd_wr _ Fld.sg_SG_MTBF _ 0 0 g i j (fun e => ?_))
  · exact (h (congrArg RKey.blk e)).2 (congrArg RKey.off e)
  · exact (h (congrArg RKey.blk e)).1 (congrArg RKey.off e)

theorem Ctl.notePrecursor_quiet (c : Ctl) (code : Nat) (pl : List Nat) : c.Quiet (c.notePrecursor code pl) := by
  unfold Ctl.notePrecursor
  split
  · refine Ctl.Quiet.trans ?_ (Ctl.showPrecursors_quiet _)
    exact ⟨rfl, rfl, rfl, rfl, rfl, rfl, rfl, rfl, rfl, rfl, rfl, rfl, rfl, rfl, fun _ _ _ _ _ _ _ => rfl⟩
  · exact Ctl.Quiet.refl c

/-- Posting an event (R436) is quiet. -/
theorem Ctl.post_quiet (c : Ctl) (code cls d u : Nat) (pl : List Nat) : c.Quiet (c.post code cls d u pl) := by
  have h1 : c.Quiet ((if cls = 0 then c else c.flushLoss).notePrecursor code pl) := by
    refine Ctl.Quiet.trans ?_ (Ctl.notePrecursor_quiet _ code pl)
    split
    · exact Ctl.Quiet.refl c
    · exact Ctl.flushLoss_quiet c
  unfold Ctl.post
  generalize (if cls = 0 then c else c.flushLoss).notePrecursor code pl = b at h1
  have h2 := fun e => (h1.trans (Ctl.raise_quiet b code cls d u none (le 8 b.job.step ++ padTo 28 pl ++ [0, 0, 0, 0]))).trans
    (Ctl.place_quiet _ e)
  dsimp only
  split
  · exact (h2 _).trans (Ctl.host_quiet _ _)
  · exact h2 _

/-! ## Addressed memory -/

/-- Writing bytes keeps memory canonical. -/
theorem Module.write_wf {m : Module} (h : Memory.wf m.mem = true) (a : Nat) (bs : List Nat) :
    Memory.wf (m.write a bs).mem = true := Cells.write_wf h a bs

/-- Writing one byte keeps memory canonical. -/
theorem Module.writeByte_wf {m : Module} (h : Memory.wf m.mem = true) (a b : Nat) :
    Memory.wf (m.writeByte a b).mem = true := Cells.set_wf h a _

/-- Clearing memory keeps it canonical. -/
theorem Module.zero_wf {m : Module} (h : Memory.wf m.mem = true) (p : Nat → Bool) :
    Memory.wf (m.zero p).mem = true := Cells.clear_wf h p

/-- Bytes outside a write read as before. -/
theorem Module.write_frame {m : Module} (h : Memory.wf m.mem = true) (a : Nat) (bs : List Nat) {b : Nat}
    (hb : b < a ∨ a + bs.length ≤ b) : memByte (m.write a bs).mem b = memByte m.mem b := by
  simp only [memByte, Module.write]
  rw [Cells.get_write_ne h a bs hb]

/-- A read of a written byte. -/
theorem Module.read_write {m : Module} (h : Memory.wf m.mem = true) (a : Nat) (bs : List Nat) {i : Nat} (hi : i < bs.length) :
    memByte (m.write a bs).mem (a + i) = bs.getD i 0 % 256 := by
  simp only [memByte, Module.write]
  rw [Cells.get_write h a bs hi, BitVec.toNat_ofNat]

end Sys2Proof.Machine
end

