-- ==== Sys2Proof/Tests/Slice0.lean ====
section
/-! SUPPORT. The model's own tests: ill-formed commands that WellFormed refuses; single operations against the spec's worked
examples; and, for every statement of the obligations with hypotheses, values that meet the hypotheses of each of its clauses. -/

namespace Sys2Proof.Tests
open Sys2Proof.Machine

/-! ## WellFormed refuses -/

theorem test_wf_die : (Instr.stepStart 8).wf = false ∧ (Instr.stepStart 7).wf = true := by decide
theorem test_wf_logic_die : (Instr.tjHot 8 0).wf = false ∧ (Instr.tjHot 0x58 0).wf = true := by decide
theorem test_wf_replan : (Instr.replan [⟨0x44, 0, [], 0⟩]).wf = false := by decide
theorem test_wf_outs : (Instr.inputSample 0 0 0 [⟨.logic 0x51, 0, 0, 0⟩]).wf = false ∧ (Instr.inputSample 0 0 0 [⟨.core 7, 750, 9, 40⟩]).wf = true := by decide
theorem test_wf_boundary : (Instr.boundaryUpdateDr []).wf = false ∧ (Instr.samplePreload (some [true])).wf = false := by decide
theorem test_wf_queue : (Instr.issue 0 64).wf = false ∧ (Instr.issue 0 63).wf = true := by decide
theorem test_wf_seq : (Instr.nop 0 0 (2 ^ 32)).wf = false := by decide
theorem test_wf_array : (Instr.passIssue 0 96).wf = false := by decide
theorem test_wf_vu : (Instr.vchain 0 16).wf = false := by decide
theorem test_wf_buf : (Instr.tileBufferSlotReady 0 0 4).wf = false := by decide
theorem test_wf_link : (Instr.linkPllLock 36).wf = false := by decide
theorem test_wf_lane : (Instr.lossOfSignal 0 4).wf = false := by decide
theorem test_wf_tc : (Instr.frameReceive 0 4).wf = false := by decide
theorem test_wf_chan : (Instr.ping 32).wf = false := by decide
theorem test_wf_far : (Instr.lpddr6Init 64).wf = false := by decide
theorem test_wf_fm : (Instr.fmOscillatorLock 2).wf = false := by decide
theorem test_wf_stack : (Instr.nmBringup 8 0 [] false).wf = false := by decide
theorem test_wf_ctrl : (Instr.refreshTempSample 72 0).wf = false := by decide
theorem test_wf_line : (Instr.scrubRead 63 1).wf = false := by decide
theorem test_wf_bytes : (Instr.ack 0 [256]).wf = false := by decide
theorem test_wf_word : (Instr.dbPendClear (2 ^ 32)).wf = false := by decide
theorem test_wf_errs : (Instr.dmCopy 0 0 0 [(0, 0)]).wf = false ∧ (Instr.dmCopy 0 0 0 [(32, 1)]).wf = false := by decide
theorem test_wf_port : (Instr.claim (.core 0 4) 0).wf = false ∧ (Instr.claim (.peer 36) 0).wf = false := by decide
theorem test_wf_buffer : (Instr.lessonLoad 0 (.bytes [300])).wf = false := by decide
theorem test_wf_offset : (Instr.registerRead .sideband 0 0 ⟨4, 2⟩).wf = false ∧ (Instr.registerRead (.host true) 0 0 ⟨0, 0⟩).wf = false := by decide
theorem test_wf_value : (Instr.registerWrite (.host true) 0 0 ⟨2, 0⟩ 65536).wf = false := by decide
theorem test_wf_sem : (Instr.semAdd 0 256 0).wf = false := by decide
theorem test_wf_slot : (Instr.amaxClr 0 64).wf = false := by decide
theorem test_wf_vreg : (Instr.vregWrite 0 0 32 0 0).wf = false ∧ (Instr.vregWrite 0 0 0 256 0).wf = false := by decide
theorem test_wf_group : (Instr.distLost 65536 0 0).wf = false := by decide
theorem test_wf_address : (Instr.entdaa 128).wf = false ∧ (Instr.setdasa 128 0).wf = false := by decide
theorem test_wf_events : (Instr.enec 256).wf = false := by decide
theorem test_wf_ring : (Instr.ringSnapshot 4).wf = false := by decide
theorem test_wf_core : (Instr.breakpointResume 0 4).wf = false := by decide
theorem test_wf_dbg : (Instr.debugAccessUpdate (2 ^ 82)).wf = false := by decide
theorem test_wf_config : (Instr.configurationRequest 0 (some (2 ^ 32))).wf = false := by decide

/-! ## Small states -/

/-- A state with the given control state, nothing in memory and no command waiting. -/
def st (c : Ctl) : State := ⟨⟨c, []⟩, []⟩
/-- Powered, at an event of Table 18-6. -/
def at' (e : Nat) : Ctl := { Ctl.reset with pow := { PowerSt.reset with on := true, event := e } }
/-- Up, after event 9. -/
def up : Ctl := at' 9
/-- Up, in READY. -/
def ready : Ctl := up.wr Fld.st_ST_STATE_STAGE 2
/-- Change the power's fields. -/
def pw (c : Ctl) (f : PowerSt → PowerSt) : Ctl := { c with pow := f c.pow }
/-- Change the security processor's. -/
def sc (c : Ctl) (f : SecSt → SecSt) : Ctl := { c with sec := f c.sec }
/-- Change the host interface's. -/
def ho (c : Ctl) (f : HostSt → HostSt) : Ctl := { c with host := f c.host }
/-- The powered module with the TAP's fields changed. -/
def tapS (f : TapSt → TapSt) : State := st { up with tap := f { TapSt.reset with on := true } }
/-- The module in a phase of boot. -/
def bootS (b : BootPhase) (f : SecSt → SecSt) : State := st { at' 4 with sec := f { SecSt.reset with boot := b } }

theorem test_idle : (match step (st up) with | .next t => decide (t = st up) | _ => false) = true := by decide

/-! ## Hypotheses that are met: power, cap, ageing, reset -/

theorem test_wit_PowerUpReachesHdRelease :
    ((st Ctl.reset).m.ctl.pow.on = false ∧ (st Ctl.reset).m.ctl.pow.tripped = false)
    ∧ (st (at' 1)).m.ctl.pow.event = 1 ∧ (st (at' 2)).m.ctl.pow.event = 2
    ∧ ((st (at' 3)).m.ctl.pow.event = 3 ∧ (st (at' 3)).m.ctl.pow.modrst = false)
    ∧ (let s := st (pw (at' 3) fun p => { p with modrst := true }); s.m.ctl.pow.event = 3 ∧ s.m.ctl.pow.modrst = true) := by and_intros <;> decide

theorem test_wit_PowerLossKeepsOnlyFlash :
    (st up).m.ctl.pow.on = true ∧ (st (pw (up) fun p => { p with tripped := true })).m.ctl.pow.tripped = true
    ∧ (st Ctl.reset).m.ctl.pow.on = false := by and_intros <;> decide

theorem test_wit_CapAndBudgetFollowInput :
    ((st up).m.ctl.pow.on = true ∧ 65535 < 65536 ∧ (st up).m.ctl.hasRoom 0)
    ∧ (3 ≤ (st up).m.ctl.pow.event ∧ 15 < 16)
    ∧ (256 ≤ 256 ∧ (st up).m.ctl.on Fld.pm_PM_CLAMP_ACTIVE = false) ∧ 113 ≤ 113 := by
  refine ⟨⟨by decide, by decide, ?_⟩, by decide, by decide, by decide⟩
  show (if (0 : Nat) = 0 then _ else _); rw [if_pos rfl]; decide

theorem test_wit_CapAndBudgetFollowInput_rails :
    let r : RailReport := ⟨.core 0, 65535, 9, 40⟩
    [r] = [] ++ r :: [] ∧ (∀ q ∈ ([] : List RailReport), q.rail ≠ r.rail) ∧ railDie r.rail = some 0 ∧ 0 ∈ logicDies ∧ r.mv < 65536
      ∧ ∀ q ∈ [r], q.rail ≠ .vbus := by and_intros <;> decide

theorem test_wit_ClampStepsVddCore :
    (let s := st up; s.m.ctl.pow.on = true ∧ s.m.ctl.on Fld.pm_PM_CLAMP_ACTIVE = false ∧ s.m.ctl.overCap 65535 = true)
    ∧ (let s := st (up.wr Fld.pm_PM_CLAMP_ACTIVE 1); s.m.ctl.on Fld.pm_PM_CLAMP_ACTIVE = true ∧ s.m.ctl.overCap 65535 = true)
    ∧ (let s := st (up.wr Fld.pm_PM_CLAMP_ACTIVE 1); (∀ d < 8, s.m.ctl.vset d ≤ s.m.ctl.vnow d + 5) ∧ s.m.ctl.freeCount = 16383
        ∧ s.m.ctl.host.shedFirst = none)
    ∧ (255 < 256 ∧ (st up).m.ctl.freeCount ≠ 0) := by and_intros <;> decide

theorem test_wit_ClampStepsVddCore_up :
    (let s := st ((up.wr Fld.pm_PM_CLAMP_ACTIVE 1).wr Fld.pm_PM_CAP_CAP_W 1)
     s.m.ctl.on Fld.pm_PM_CLAMP_ACTIVE = true ∧ s.m.ctl.pow.pin * 100 < s.m.ctl.rd Fld.pm_PM_CAP_CAP_W * 950)
    ∧ (let s := st (pw (up.wr Fld.pm_PM_CAP_CAP_W 2) fun p => { p with pin := 19 })
       ¬ s.m.ctl.pow.pin * 100 < s.m.ctl.rd Fld.pm_PM_CAP_CAP_W * 950) := by and_intros <;> decide

theorem test_wit_ModuleResetKeepsAndLoses :
    ((st (at' 4)).wf = true ∧ (st (at' 4)).m.ctl.pow.on = true ∧ 4 ≤ (st (at' 4)).m.ctl.pow.event) ∧ 5 ≤ (st (at' 5)).m.ctl.pow.event
    ∧ (st up).wf = true ∧ ((st (at' 3)).m.ctl.pow.on = true ∧ (st (at' 3)).m.ctl.pow.event = 3) := by and_intros <;> decide

theorem test_wit_AgeingBoundsAndReady :
    (let s := st (sc (at' 6) fun p => { p with boot := .images }); s.m.ctl.pow.event = 6 ∧ s.m.ctl.sec.boot = .images
        ∧ (s.m.ctl.link 35).enable = true)
    ∧ (let s := st { at' 6 with links := [(35, { LinkSt.reset with enable := false })] }; (s.m.ctl.link 35).enable = false)
    ∧ (let s := st (pw (sc (at' 7) fun p => { p with boot := .images }) fun p => { p with nmDone := List.range 8, fcEvent := (List.range 64).map (·, 7) })
       s.m.ctl.event8Done = true)
    ∧ ((st ready).m.ctl.pow.on = true ∧ (st ready).m.ctl.stage ≠ 0)
    ∧ (0x58 ∈ logicDies ∧ 255 < 256 ∧ 65535 < 65536 ∧ 1000 < ageIndex 2 (Tab.get 0 ([(0x58, 1)] : Tab Nat Nat) 0x58)
        ∧ (st up).m.ctl.pow.eol.contains 0x58 = false)
    ∧ (let s := st (pw (up) fun p => { p with taps := [(0, 0)], vset := [(0, railTop 0)] })
       0 ∈ logicDies ∧ s.m.ctl.tapsOf 0 < 8 ∧ s.m.ctl.vset 0 = railTop 0 ∧ s.m.ctl.hasRoom 1) := by and_intros <;> decide

theorem test_wit_AgeingBoundsAndReady_monitors :
    (0 ∈ logicDies ∧ (List.replicate 64 9).length = 64) ∧ (0x58 ∈ logicDies ∧ (List.replicate 8 9).length = 8)
    ∧ (st (at' 6)).m.ctl.on Fld.pm_PM_CLAMP_ACTIVE = false
    ∧ (st ((at' 6).wr Fld.pm_PM_CLAMP_ACTIVE 1)).m.ctl.on Fld.pm_PM_CLAMP_ACTIVE = true := by and_intros <;> decide

/-! ## Memory -/

theorem test_wit_MemoryBringUp :
    (let s := st (sc (at' 7) fun p => { p with boot := .images }); s.wf = true ∧ s.m.ctl.inEvent8 = true ∧ s.m.ctl.pow.nmDone.contains 7 = false ∧ s.m.ctl.fcEvent 32 = 0
      ∧ stackOf 0 = some 0)
    ∧ (st (pw (up) fun p => { p with fcEvent := [(63, 1)] })).m.ctl.fcEvent 63 = 1
    ∧ (st (pw (up) fun p => { p with fcEvent := [(63, 2)] })).m.ctl.fcEvent 63 = 2
    ∧ (let s := st (pw (up) fun p => { p with fcEvent := [(63, 3)] })
       s.m.ctl.fcEvent 63 = 3 ∧ s.m.ctl.pow.full.contains 63 = false)
    ∧ (let s := st (pw (up.wr Fld.fc_FC_STATE_ATTEMPTS 2 63) fun p => { p with fcEvent := [(63, 3)], full := [63] })
       s.m.ctl.fcEvent 63 = 3 ∧ s.m.ctl.pow.full.contains 63 = true ∧ 2 ≤ s.m.ctl.rd Fld.fc_FC_STATE_ATTEMPTS 63)
    ∧ (let s := st (pw (up) fun p => { p with fcEvent := (List.range 64).map (·, 5) })
       s.wf = true ∧ ∀ ch < 64, s.m.ctl.fcEvent ch = 5) := by and_intros <;> decide

theorem test_wit_MemoryBringUp_settings :
    (let s := st (pw (up) fun p => { p with fcEvent := [(63, 2)] }); s.m.ctl.pow.full.contains 63 = false)
    ∧ (st (sc up fun p => { p with keys := true })).m.ctl.sec.keys = true := by and_intros <;> decide

theorem test_wit_MemoryErrorsAndRefresh :
    ((st up).m.ctl.pow.on = true ∧ stackOf 0 = some 0 ∧ (st up).m.ctl.bad 0 = false ∧ 1 ≤ 2)
    ∧ (stackOf farBase = none ∧ farOff farBase = some 0 ∧ (st up).m.ctl.bad farBase = false)
    ∧ (7 < 8 ∧ 255 < 256 ∧ 105 < 255 ∧ (st up).m.ctl.on Fld.nm_NM_STATE_HOT 7 = false) := by and_intros <;> decide

/-! ## A protected record that verifies -/

/-- A record in slot 0. -/
def recBody : List Nat := ProtRec.body ⟨0, 0, 0, 0, 0, 0⟩ 1
def recMac (c : Ctl) : List Nat := Config.hmac256 (flashKey c) recBody

theorem recBody_length : recBody.length = 96 := by decide
theorem recMac_length (c : Ctl) : (recMac c).length = 32 := Config.octets_length _ _

/-- A record written with its HMAC reads back. -/
theorem rec_slot (c : Ctl) (hf : c.flash = Cells.write flashDefault [] protAddr (recBody ++ recMac c)) :
    c.flashRead protAddr 128 = recBody ++ recMac c := by
  have h := Cells.read_write (d := flashDefault) (m := []) (by rfl) protAddr (recBody ++ recMac c)
  have hb : recBody.map (· % 256) = recBody := by decide
  have hn : (recBody ++ recMac c).length = 128 := by rw [List.length_append, recBody_length, recMac_length]
  have hm : (recBody ++ recMac c).map (· % 256) = recBody ++ recMac c := by
    rw [List.map_append, hb, show (recMac c).map (· % 256) = recMac c from Config.octets_map _ _]
  rw [hn, hm] at h
  rw [Ctl.flashRead, hf, h]

theorem rec_ok (c : Ctl) (hr : c.sec.rpmc = 1) : c.recOk (recBody ++ recMac c) = true := by
  have h1 : (recBody ++ recMac c).take 96 = recBody := List.take_left' (by decide)
  have h2 : ((recBody ++ recMac c).drop 96).take 32 = recMac c := by
    rw [List.drop_left' (by decide)]
    exact List.take_of_length_le (by rw [recMac_length])
  have h3 : (recBody ++ recMac c).take 4 = [0x50, 0x50, 0x52, 0x30] := by
    rw [List.take_append_of_le_length (by decide)]; decide
  have h4 : fieldAt (recBody ++ recMac c) 4 4 = 1 := by
    unfold fieldAt
    rw [List.drop_append_of_le_length (by decide), List.take_append_of_le_length (by decide)]; decide
  unfold Ctl.recOk
  rw [h1, h2, h3, h4, hr]
  simp [recMac]

/-- Such a record is found. -/
theorem rec_found (c : Ctl) (hf : c.flash = Cells.write flashDefault [] protAddr (recBody ++ recMac c)) (hr : c.sec.rpmc = 1)
    (hs : c.sec.recSlot = 1) : c.findRec = some ⟨0, 0, 0, 0, 0, 0⟩ := by
  have h0 : c.flashRead (protAddr + 128 * ((c.sec.recSlot + 8191 - 0) % 8192)) 128 = recBody ++ recMac c := by
    rw [hs]; exact rec_slot c hf
  have hp : parseRec (recBody ++ recMac c) = ⟨0, 0, 0, 0, 0, 0⟩ := rfl
  unfold Ctl.findRec
  rw [show List.range 8192 = 0 :: (List.range 8191).map Nat.succ from List.range_succ_eq_map, List.map_cons, h0,
    List.find?_cons_of_pos (rec_ok c hr), Option.map_some, hp]

/-! ## Hypotheses that are met: boot, test access, trace -/

theorem test_wit_SecureBootEvents_record_found : ∃ (r : ProtRec) (s : State), s.m.ctl.sec.boot = .puf ∧ s.m.ctl.sec.latched = none
    ∧ s.m.ctl.findRec = some r ∧ r.epoch < 255 ∧ r.reservedEnd < 2 ^ 20 := by
  let c0 : Ctl := { Ctl.reset with sec := { SecSt.reset with rpmc := 1, recSlot := 1, boot := .puf } }
  obtain ⟨fl, hfl⟩ : ∃ fl, fl = Cells.write flashDefault [] protAddr (recBody ++ recMac c0) := ⟨_, rfl⟩
  have hk : recMac { c0 with flash := fl } = recMac c0 := rfl
  have hr := rec_found { c0 with flash := fl } (by rw [hk, ← hfl]) rfl rfl
  exact ⟨_, ⟨⟨{ c0 with flash := fl }, []⟩, []⟩, rfl, rfl, hr, by decide, by decide⟩

theorem test_wit_SecureBootEvents :
    (let s := bootS .rom id; s.m.ctl.sec.boot = .rom ∧ s.m.ctl.sec.pufDone = false)
    ∧ (let s := bootS .puf fun p => { p with latched := some ProtRec.reset }
       s.m.ctl.sec.boot = .puf ∧ s.m.ctl.sec.latched = some ProtRec.reset)
    ∧ (let s := bootS .rom fun p => { p with latched := some ProtRec.reset, pufDone := true }
       s.m.ctl.sec.boot = .rom ∧ s.m.ctl.sec.pufDone = true ∧ s.m.ctl.sec.latched = some ProtRec.reset)
    ∧ (let s := bootS .record id; s.m.ctl.sec.boot = .record ∧ s.m.ctl.sec.tried = [])
    ∧ (let s := bootS .record fun p => { p with tried := [1] }; s.m.ctl.sec.boot = .record ∧ s.m.ctl.sec.tried = [1 - s.m.ctl.sec.bank])
    ∧ (let s := bootS .manifest fun p => { p with keys := true }; s.m.ctl.sec.boot = .manifest ∧ s.m.ctl.sec.keys = true)
    ∧ (let s := bootS .firmware id; s.m.ctl.sec.boot = .firmware ∧ s.m.ctl.sec.tried = []) := by and_intros <;> rfl

theorem test_wit_TapInstructions :
    (tapS id).m.ctl.tap.on = true ∧ (Instr.bypass, 0xFF) ∈ [(Instr.testLogicReset, 0x02), (.bypass, 0xFF), (.samplePreload none, 0x01)]
    ∧ ((tapS id).m.ctl.tap.opened = false ∧ (tapS id).m.ctl.tap.erasing = false)
    ∧ (let s := tapS fun t => { t with opened := true }
       s.m.ctl.tap.on = true ∧ s.m.ctl.tap.opened = true ∧ s.m.ctl.tap.pinsTaken = false) := by and_intros <;> decide

theorem test_wit_TestAccessAndFlashPath :
    (let s := st { sc up (fun p => { p with boot := .images }) with tap := { TapSt.reset with erasing := true } }
     s.m.ctl.tap.erasing = true ∧ s.m.ctl.pastRecord = true)
    ∧ (let s := tapS fun t => { t with ir := 1 }; s.m.ctl.tap.on = true ∧ s.m.ctl.tap.ir = 0x01)
    ∧ (let s := tapS fun t => { t with ir := 6, opened := true }
       s.m.ctl.tap.on = true ∧ s.m.ctl.tap.opened = true ∧ s.m.ctl.tap.ir = 0x06)
    ∧ (let s := tapS fun t => { t with ir := 0x20, opened := true }
       s.m.ctl.tap.on = true ∧ s.m.ctl.tap.opened = true ∧ s.m.ctl.tap.ir = 0x20)
    ∧ (let s := st (pw up fun p => { p with flFree := true })
       s.m.ctl.pow.flFree = true ∧ 0xFFFFFFF + [0].length ≤ 0x10000000 ∧ Flash.wf s.m.ctl.flash = true) := by and_intros <;> decide

theorem test_wit_TestAccessAndFlashPath_ready :
    let s := st { sc ready (fun p => { p with boot := .images }) with tap := { TapSt.reset with erasing := true, ir := 0x20 } }
    s.m.ctl.tap.erasing = true ∧ s.m.ctl.pastRecord = true ∧ 2 ≤ s.m.ctl.stage ∧ s.m.ctl.stage ≤ 4 ∧ s.m.ctl.freeCount ≠ 0
      ∧ s.m.ctl.sec.updState ≠ 3 ∧ s.m.ctl.sec.updState ≠ 5 ∧ s.m.ctl.tap.ir = 0x20 ∧ ([true].take 3).contains true = true
      ∧ (([] : List Bool).take 3).contains true = false := by and_intros <;> decide

/-- A class 0 record of CD0 at the front of its FIFO. -/
def traceRec : TraceRec := ⟨0, 0, traceBytes 0 0 0 2 0 0 0 []⟩
def traceC : Ctl := { up.wr Fld.tr_TR_STATUS_STATE 1 0 0 with trace := { TraceSt.reset with fifos := [(0, { TraceFifo.reset with recs := [traceRec] })] } }

theorem test_wit_TraceRingTakesRecord :
    (let s := st traceC
     s.m.ctl.hdUp = true ∧ (s.m.ctl.fifo 0).recs = traceRec :: [] ∧ traceRec.bytes.length = 64
      ∧ Tab.has s.m.ctl.trace.expect (fieldAt traceRec.bytes 14 2, traceRec.bytes.getD 8 0) = false
      ∧ s.m.ctl.filterOk 0 traceRec.bytes = true ∧ (∀ q < 4, q ≠ 0 → s.m.ctl.filterOk q traceRec.bytes = false)
      ∧ s.m.ctl.rd Fld.tr_TR_STATUS_STATE 0 0 = 1)
    ∧ ((st up).m.ctl.hdUp = true ∧ (List.replicate 64 0).length = 64) := by and_intros <;> decide

/-- A record in sequence, and one of class 0 that finds the forwarding FIFO full. -/
theorem test_wit_TraceRingTakesRecord_sequence :
    (let k := (fieldAt traceRec.bytes 14 2, traceRec.bytes.getD 8 0)
     let c := { traceC with trace := { traceC.trace with expect := [(k, fieldAt traceRec.bytes 16 4)] } }
     c.fwdFull traceRec.cls = false ∧ Tab.has c.trace.expect k = true ∧ fieldAt traceRec.bytes 16 4 ≤ Tab.get 0 c.trace.expect k
      ∧ (c.fifo 0).waiting = [] ∧ (c.fifo 0).lossDue = false)
    ∧ (let z : TraceFifo := { TraceFifo.reset with recs := List.replicate 4096 ⟨0, 0, []⟩ }
       let c := traceC.wr Fld.tr_TR_FWD_FWD_EN 1
       ({ c with trace := { c.trace with fwd := z } } : Ctl).fwdFull traceRec.cls = true) := by and_intros <;> decide +kernel

theorem test_wit_SnapshotResumeAndEcho :
    (let s := st (up.wr Fld.tr_TR_STATUS_STATE 3 0 3)
     s.wf = true ∧ s.m.ctl.rd Fld.tr_TR_STATUS_STATE 0 3 = 3 ∧ s.m.ctl.rd Fld.tr_SNAP_SNAP_NEXT < 8 ∧ 256 < s.m.ctl.freeCount
      ∧ s.m.ctl.host.shedFirst = none)
    ∧ (let s := st { up with trace := { TraceSt.reset with halts := [(5, 31)] } }
       (5, 31) ∈ s.m.ctl.trace.halts ∧ ∀ x ∈ s.m.ctl.trace.halts.map (·.2), x = 31)
    ∧ (let s := st (up.wr Fld.tr_TR_SRC_CLASS_EN 0x1F)
       s.m.ctl.hdUp = true ∧ bit (s.m.ctl.rd Fld.tr_TR_SRC_CLASS_EN) 1 = true ∧ (s.m.ctl.fifo dieHB).lossDue = false
        ∧ sharedUsed (s.m.ctl.fifo dieHB).recs ≤ 224) := by and_intros <;> decide

/-! ## Hypotheses that are met: the host interface -/

theorem test_wit_DoorbellsAndEventRing :
    ((st up).m.ctl.hdUp = true ∧ (st up).m.ctl.host.d3 = false)
    ∧ ((st up).m.ctl.rd Fld.ev_EV_TAIL < 16384 ∧ (st up).m.ctl.host.shedFirst = none ∧ (st up).m.ctl.host.alarms = [])
    ∧ (let s := st ((up.wr Fld.db_DB_MASK 1).wr Fld.db_DB_PEND 1)
       bit (s.m.ctl.rd Fld.db_DB_MASK) 0 = true ∧ bit 0 0 = false ∧ bit (s.m.ctl.rd Fld.db_DB_PEND) 0 = true)
    ∧ (let s := st ((up.wr Fld.ev_EV_DELAY 1).wr Fld.ev_EV_TAIL 1); s.m.ctl.hdUp = true ∧ s.m.ctl.rd Fld.ev_EV_DELAY ≠ 0 ∧ s.m.ctl.unread ≠ 0)
    ∧ (st up).m.ctl.rd Fld.ev_EV_DELAY = 0
    ∧ (st (ho up fun h => { h with d3 := true })).m.ctl.host.d3 = true := by and_intros <;> decide

theorem test_wit_FunctionResetsLeaveTheJobRunning :
    (st up).m.ctl.hdUp = true ∧ (st up).m.ctl.host.alarms = [] ∧ (st up).m.ctl.host.shedFirst = none := by and_intros <;> decide

theorem test_wit_HostWindowAndConfiguration :
    (let s := st (ho up fun h => { h with perst := false, linkTrained := true, cxlOn := true, decoder := some (0, 64) })
     s.m.ctl.hdUp = true ∧ s.m.ctl.host.perst = false ∧ s.m.ctl.tap.pinsTaken = false ∧ s.m.ctl.host.linkTrained = true
      ∧ s.m.ctl.host.d3 = false ∧ s.m.ctl.host.cxlOn = true ∧ s.m.ctl.host.decoder = some (0, 64) ∧ 0 + 64 ≤ 64 ∧ s.wf = true
      ∧ s.m.ctl.pow.dead.contains 0 = false)
    ∧ (let s := st ready; s.m.ctl.hdUp = true ∧ s.m.ctl.stage ≠ 0 ∧ s.m.ctl.stage ≠ 5 ∧ s.m.ctl.sec.updState ≠ 5)
    ∧ (3 % 4 = 3 ∧ 4 % 4 = 0 ∧ (st up).m.ctl.stage = 0)
    ∧ (cdatTable ready.windowSize)[4]? = some (dslbis 5 1000 110) := by and_intros <;> decide

theorem test_wit_SidebandAccess :
    ((st ready).m.ctl.hdUp = true ∧ (st ready).m.ctl.stage ≠ 0 ∧ 0x1000 < 2 ^ 32 ∧ (st ready).m.ctl.sbMayWrite 0x1001 = false)
    ∧ (let s := st (ready.wr Fld.mb_MB_OWN_OWNER (portStamp .sideband) 16)
       s.m.ctl.stage ≠ 5 ∧ s.m.ctl.permits 16 2 = true ∧ s.m.ctl.owns .sideband 16 = true ∧ s.m.ctl.busy 16 = false)
    ∧ (let s := st (ho ready fun h => { h with sbOffset := 8 }); s.m.ctl.stage ≠ 0 ∧ s.m.ctl.host.sbOffset = 8)
    ∧ (st (up.wr Fld.st_ST_STATE_STAGE 5)).m.ctl.stage = 5
    ∧ ((st ready).m.ctl.on Fld.sb_SB_STATE_DAVALID = false ∧ 127 < 128)
    ∧ (bit 1 0 = true)
    ∧ (let s := st (ready.wr Fld.sb_SB_STATE_DAVALID 1); s.m.ctl.hdUp = true ∧ s.m.ctl.stage ≠ 0 ∧ s.m.ctl.on Fld.sb_SB_STATE_DAVALID = true) := by
  and_intros <;> decide

theorem test_wit_SidebandAccess_fault :
    (let s := st (up.wr Fld.st_ST_STATE_STAGE 5); s.m.ctl.hdUp = true ∧ s.m.ctl.stage = 5)
    ∧ Instr.getpid ∈ ([.entdaa 9, .setdasa 0x4C 9, .rstdaa, .enec 1, .disec 1, .getpid, .getbcr, .getdcr, .getstatus, .getmwl, .getmrl] : List Instr) := by
  and_intros <;> decide

theorem test_wit_MailboxClaimReleaseGo :
    (let s := st ready; s.m.ctl.portUp (.host true) = true ∧ s.m.ctl.portUp .sideband = true ∧ s.m.ctl.rd Fld.mb_MB_OWN_OWNER 15 = 0
      ∧ s.m.ctl.permits 15 (portKind (.host true)) = true
      ∧ s.m.ctl.permits 31 (portKind .sideband) = false ∧ s.m.ctl.owns (.host true) 15 = false)
    ∧ (let s := st (ready.wr Fld.mb_MB_OWN_OWNER (portStamp (.host true)) 15)
       s.m.ctl.owns (.host true) 15 = true ∧ s.m.ctl.busy 15 = false ∧ s.m.ctl.rd Fld.mb_MB_OWN_OWNER 15 ≠ 0
        ∧ s.m.ctl.host.releasing.contains 15 = false ∧ s.m.ctl.permits 15 1 = true ∧ s.m.ctl.host.quiet.contains 15 = false)
    ∧ (let s := st ((ready.wr Fld.mb_MB_OWN_OWNER (portStamp (.host true)) 15).wr Fld.mb_MB_CTRL_BUSY 1 15)
       s.m.ctl.owns (.host true) 15 = true ∧ s.m.ctl.busy 15 = true) := by and_intros <;> decide

theorem test_wit_RegisterAccess :
    ((st up).m.ctl.hostUp = true ∧ accessWords 1 4 = [] ∧ accessWords 4 8 = [] ∧ accessWords 0 2 = [] ∧ 12 ∈ [0, 4, 8, 12] ∧ 8 ∈ [0, 8])
    ∧ ((st up).m.ctl.dieUp 7 = true ∧ 3 < 4 ∧ bit 0 1 = false ∧ bit 0 2 = false ∧ bit 6 1 = true ∧ ((st up).m.ctl.die 7).fence = none) := by
  and_intros <;> decide

/-- The host's link up, SPDM's connection agreed. -/
def spdmC : Ctl := sc (ho ready fun h => { h with linkTrained := true }) fun p => { p with spdm := 3 }

/-- A report request: IANA, Cyniov's number, payload 0x01 and a nonce of zeros. -/
def reportReq : List Nat := [0x13, 0xFE, 0, 0, 4, 0, 4] ++ le 4 61893 ++ [33, 0, 1] ++ List.replicate 32 0

theorem test_wit_SpdmRequestsAnswered :
    (st spdmC).m.ctl.doeUp = true
    ∧ (let s := st (sc spdmC fun p => { p with images := List.replicate 6 [] })
       3 ≤ s.m.ctl.sec.spdm ∧ [0, 0, 0, 0xFF].getD 3 0 = 0xFF ∧ s.m.ctl.noAttest = false ∧ s.m.ctl.sec.images.length = 6)
    ∧ (let s := st (sc spdmC fun p => { p with lmsOut := true }); s.m.ctl.doeUp = true ∧ s.m.ctl.noAttest = true ∧ 3 ≤ s.m.ctl.sec.spdm)
    ∧ (bit ([0, 0, 1].getD 2 0) 0 = true ∧ reportRequest reportReq = true) := by and_intros <;> decide

/-- Requests of the form that each clause asks for; what SPDM accepts of the rest is open. -/
theorem test_wit_SpdmRequestsAnswered_forms :
    (let s := st spdmC; s.m.ctl.doeUp = true ∧ 3 ≤ s.m.ctl.sec.spdm ∧ s.m.ctl.noAttest = false)
    ∧ ([0x10, 0x84].getD 1 0 = 0x84 ∧ [0x10, 0x84].getD 0 0 = 0x10 ∧ [0x13, 0x81].getD 1 0 = 0x81 ∧ [0x13, 0x81].getD 0 0 = 0x13)
    ∧ ([0x13, 0x82, 0, 0, 0, 0, 0, 1].getD 2 0 % 16 = 0 ∧ fieldAt [0x13, 0x82, 0, 0, 0, 0, 0, 1] 4 2 = 0)
    ∧ ([0x13, 0x83, 0].getD 2 0 = 0 ∧ [0x13, 0xE4, 0, 0].getD 3 0 = 0)
    ∧ (let s := st (sc spdmC fun p => { p with sessions := [⟨1, false, 0⟩] }); (s.m.ctl.session 1).isSome = true ∧ s.m.ctl.secured 1 = false)
    ∧ (st (sc spdmC fun p => { p with sessions := [⟨1, true, 0⟩] })).m.ctl.secured 1 = true
    ∧ ([0x12, 0x81].getD 1 0 = 0x81 ∧ [0x12, 0x81].getD 0 0 ≠ 0x13) := by and_intros <;> decide

/-- The chain of slot 0 is never empty. -/
theorem test_wit_SpdmRequestsAnswered_chain : 0 < (st spdmC).m.ctl.certChain.length := by
  simp [Sys2Proof.Machine.Ctl.certChain, Sys2Proof.Machine.le]

theorem test_wit_SessionsKeysAndReport :
    ((st spdmC).m.ctl.doeUp = true ∧ 3 ≤ (st spdmC).m.ctl.sec.spdm ∧ (st spdmC).m.ctl.noAttest = false ∧ reportRequest reportReq = true)
    ∧ (let s := st (sc spdmC fun p => { p with sessions := [⟨1, false, 0⟩] })
       s.m.ctl.doeUp = true ∧ (s.m.ctl.session 1).isSome = true ∧ s.m.ctl.secured 1 = false)
    ∧ (let s := st (sc spdmC fun p => { p with sessions := [⟨1, true, 0⟩] })
       s.m.ctl.doeUp = true ∧ s.m.ctl.secured 1 = true ∧ s.m.ctl.secured 2 = false) := by and_intros <;> decide

/-- Both cases of R459's second between reports: none before, and one at this very stamp. -/
theorem test_wit_SessionsKeysAndReport_second :
    (let s := st spdmC; s.m.ctl.tooSoon (s.m.ctl.stamp dieHD).1 = false)
    ∧ (let s := st (sc spdmC fun p => { p with lastReport := some (spdmC.stamp dieHD).1 })
       s.m.ctl.tooSoon (s.m.ctl.stamp dieHD).1 = true) := by
  refine ⟨rfl, ?_⟩
  show decide ((spdmC.stamp dieHD).1 < (spdmC.stamp dieHD).1 + 1000000000) = true
  exact decide_eq_true (Nat.lt_add_of_pos_right (by decide))

/-! ## Hypotheses that are met: links -/

/-- Up, with a link in a state of Table 12-9. -/
def linkC (x lk : Nat) (f : LinkSt → LinkSt) : Ctl := { up.wr Fld.lk_LK_STATE lk x with links := [(x, f LinkSt.reset)] }

/-- The IDENT of the partner that R323 gives, both lane pairs. -/
def identOf (x : Nat) : List Nat :=
  match up.partner x with
  | some p => [3, p.2, 3, 0] ++ le 2 p.1 ++ [0, 0] ++ List.replicate 8 0 ++ le 4 0x00040000 ++ [0, 0]
  | none => []

theorem test_wit_LinkBringUp :
    (st (linkC 35 1 fun l => { l with event := 0 })).m.ctl.linkAt 35 0 = true
    ∧ (st (linkC 35 1 fun l => { l with event := 1 })).m.ctl.linkAt 35 1 = true
    ∧ (st (linkC 35 3 fun l => { l with event := 2 })).m.ctl.linkAt 35 2 = true
    ∧ (let s := st (linkC 35 1 fun l => { l with event := 3 }); s.m.ctl.linkAt 35 3 = true ∧ s.m.ctl.lkState 35 = 1 ∧ (false || true) = true)
    ∧ (let s := st (linkC 35 3 fun l => { l with event := 3 }); s.m.ctl.linkAt 35 3 = true ∧ s.m.ctl.lkState 35 = 3)
    ∧ (let s := st (linkC 35 1 fun l => { l with event := 2, fails := 2 })
       s.m.ctl.lkState 35 = 1 ∧ 2 ≤ (s.m.ctl.link 35).event ∧ (s.m.ctl.link 35).fails < 3)
    ∧ (let s := st (linkC 35 3 fun l => { l with event := 2, fails := 3 })
       s.m.ctl.lkState 35 = 3 ∧ 2 ≤ (s.m.ctl.link 35).event ∧ 3 ≤ (s.m.ctl.link 35).fails)
    ∧ (let s := st (linkC 0 1 fun l => { l with event := 4, pairs := [true, true] })
       s.m.ctl.linkAt 0 4 = true ∧ s.m.ctl.lkState 0 = 1 ∧ ctrlOk (identOf 0) 3 22 = true ∧ fieldAt (identOf 0) 16 4 = 0x00040000
        ∧ widthOf ((s.m.ctl.link 0).pairs.getD 0 false && bit ((identOf 0).getD 2 0) 0)
            ((s.m.ctl.link 0).pairs.getD 1 false && bit ((identOf 0).getD 2 0) 1) = 0
        ∧ s.m.ctl.partner 0 = some (fieldAt (identOf 0) 4 2, (identOf 0).getD 1 0)
        ∧ s.m.ctl.partner 0 ≠ some (fieldAt (identOf 0) 4 2, (identOf 0).getD 1 0 + 1)) := by and_intros <;> decide

theorem test_wit_LinkRetrainAndDown :
    (let s := st ((linkC 0 2 id).wr Fld.lk_LK_STATE_WIDTH 2 0)
     s.m.ctl.active 0 = true ∧ s.m.ctl.usesPair 0 (3 / 2) = true ∧ ctrlOk [5] 5 1 = true)
    ∧ (let s := st (linkC 0 3 fun l => { l with event := 5 }); s.m.ctl.lkState 0 = 3 ∧ (s.m.ctl.link 0).event = 5)
    ∧ (let s := st (linkC 0 2 id); s.m.ctl.lkState 0 = 2 ∧ ctrlOk [6, 1] 6 2 = true ∧ (s.m.ctl.link 0).kept = []
        ∧ (s.m.ctl.link 0).queues.flatten = [] ∧ s.m.ctl.hasRoom 0)
    ∧ (let s := st (linkC 0 2 id); s.m.ctl.active 0 = true ∧ s.m.ctl.rd Fld.lk_VIOL_WIN_COUNT 0 + 1 < (s.m.ctl.link 0).violMax
        ∧ s.m.ctl.rd Fld.lk_VIOL_WIN_COUNT 0 < 65535) := by and_intros <;> first | decide | (unfold Ctl.hasRoom; decide)

/-- A flit whose frame is one flit of TC1. -/
def oneFlit (seq : Nat) : List Nat := flitBytes seq 4095 1 1 true true [] []

set_option maxRecDepth 4000 in
theorem test_wit_FlitsReceivedAndSent :
    (let s := st (linkC 0 2 id); let b := oneFlit 0
     s.m.ctl.active 0 = true ∧ crc32c (padTo 252 b) = fieldAt b 252 4 ∧ b.length = 256 ∧ bitsOf (fieldAt b 0 4) 24 2 = 1
      ∧ bitsOf (fieldAt b 0 4) 26 2 = 1 ∧ bit (fieldAt b 0 4) 28 = true ∧ bit (fieldAt b 0 4) 29 = true
      ∧ bitsOf (fieldAt b 0 4) 0 12 = (s.m.ctl.link 0).rxExp ∧ fieldAt b 10 2 ≤ 212 ∧ (s.m.ctl.link 0).asm.getD 1 none = none
      ∧ (s.m.ctl.link 0).ready.length = 4 ∧ (s.m.ctl.link 0).used.getD 1 0 < (s.m.ctl.allot 0).getD 1 0
      ∧ ((s.m.ctl.link 0).txSeq + 4096 - (bitsOf (fieldAt b 0 4) 12 12 + 1) % 4096) % 4096 ≤ (s.m.ctl.link 0).kept.length)
    ∧ (let s := st (linkC 0 2 id); let b := oneFlit 4095
       crc32c (padTo 252 b) = fieldAt b 252 4 ∧ bitsOf (fieldAt b 0 4) 24 2 = 1 ∧ (s.m.ctl.link 0).afterBad = false
        ∧ (s.m.ctl.link 0).redo = [] ∧ (s.m.ctl.link 0).rxExp < 4096
        ∧ 3585 ≤ (bitsOf (fieldAt b 0 4) 0 12 + 4096 - (s.m.ctl.link 0).rxExp) % 4096
        ∧ ((s.m.ctl.link 0).txSeq + 4096 - (bitsOf (fieldAt b 0 4) 12 12 + 1) % 4096) % 4096 ≤ (s.m.ctl.link 0).kept.length)
    ∧ (ctrlOk [1, 0xFF, 0x0F] 1 3 = true ∧ fieldAt [1, 0xFF, 0x0F] 1 2 < 4096) := by and_intros <;> decide +kernel

/-- A frame of FW messages to this module. -/
def fwFrame (hop : Nat) : Frame := ⟨1, 3, 0, false, false, 0, 0, 0, hop, 0, 0, 0, 0, 0, 0, []⟩

set_option maxRecDepth 4000 in
theorem test_wit_FlitsSent :
    (let f := (frameFlits (fwFrame 0) 1 none).headD ⟨0, false, false, [], 0, fwFrame 0, none⟩
     let s := st (linkC 0 2 fun l => { l with queues := [[f], [], [], []], peerCred := [1, 0, 0, 0] })
     s.m.ctl.active 0 = true ∧ s.m.ctl.host.relay = [] ∧ s.m.ctl.on Fld.tr_TR_FWD_FWD_EN = false ∧ (s.m.ctl.link 0).resend = []
      ∧ (s.m.ctl.link 0).queues = [f] :: (s.m.ctl.link 0).queues.tail ∧ (s.m.ctl.link 0).ready? 0 = true)
    ∧ (let s := st (linkC 0 2 id); (∀ tc < 4, (s.m.ctl.link 0).ready? tc = false) ∧ (s.m.ctl.link 0).turn < 4 ∧ (s.m.ctl.link 0).ctrl = [])
    ∧ (let s := st (linkC 0 2 fun l => { l with ctrl := [[4]] }); (s.m.ctl.link 0).ready? 0 = false ∧ (s.m.ctl.link 0).ctrl = [4] :: []) := by
  and_intros <;> decide

theorem test_wit_EchoFramesAndHeldTc0 :
    ((st (linkC 0 2 id)).m.ctl.active 0 = true ∧ ctrlOk (4 :: List.replicate 27 0) 4 28 = true
      ∧ bytesAt (4 :: List.replicate 27 0) 1 3 = [0, 0, 0])
    ∧ (let a : RxAsm := ⟨(fwFrame 39).bytes, [0]⟩; let s := st (linkC 0 2 fun l => { l with ready := [[], [a], [], []] })
       (s.m.ctl.link 0).ready.getD 1 [] = a :: [] ∧ (s.m.ctl.link 0).ready.length = 4 ∧ s.m.ctl.headerOk a.bytes 1 = true
        ∧ crc32c (parseFrame a.bytes).payload = (parseFrame a.bytes).pcrc ∧ 40 ≤ (parseFrame a.bytes).hop + 1)
    ∧ (let a : RxAsm := ⟨(fwFrame 38).bytes, [0]⟩; (parseFrame a.bytes).hop + 1 < 40 ∧ (parseFrame a.bytes).dst = (st up).m.ctl.coord)
    ∧ (let a : RxAsm := ⟨List.replicate 32 0xFF, [0]⟩; let s := st (linkC 0 2 fun l => { l with ready := [[], [a], [], []] })
       (s.m.ctl.link 0).ready.getD 1 [] = a :: [] ∧ s.m.ctl.headerOk a.bytes 1 = false
        ∧ s.m.ctl.rd Fld.lk_VIOL_WIN_COUNT 0 + 1 < (s.m.ctl.link 0).violMax)
    ∧ (let h : HeldFrame := ⟨none, { fwFrame 0 with dst := 1 }⟩; let x := (linksToward 0 (1, 1) h.frame).headD 0
       let s := st { linkC x 2 id with held := [h] }
       s.m.ctl.held = h :: [] ∧ (s.m.ctl.pick (s.m.ctl.routeSet h.frame) h.frame.psel).isSome = true)
    ∧ (let a : RxAsm := ⟨List.replicate 32 0xFF, [0]⟩; let s := st (linkC 0 2 fun l => { l with ready := [[a], [], [], []] })
       (s.m.ctl.link 0).ready.getD 0 [] = a :: [] ∧ s.m.ctl.headerOk a.bytes 0 = false ∧ (s.m.ctl.link 0).again = false)
    ∧ ((st (linkC 0 2 fun l => { l with redo := [0] })).m.ctl.link 0).again = true
    ∧ (∀ h ∈ (st up).m.ctl.held, (st up).m.ctl.pick ((st up).m.ctl.routeSet h.frame) h.frame.psel = none) := by and_intros <;> decide

/-! ## Hypotheses that are met: Mersene's commands -/

/-- A message of the host on channel 0, padded to the words a message has at least. -/
def msg (words : List Nat) : Message := ⟨0, padTo 16 words, 0x5801⟩
/-- READY, with that message taken; and in JOB. -/
def takenC (words : List Nat) : Ctl := ho ready fun h => { h with taken := [msg words], cxlOn := true }
def jobC (words : List Nat) : Ctl := (takenC words).wr Fld.st_ST_STATE_STAGE 3
/-- The message of those words waiting on channel 0. -/
def waitC (words : List Nat) : Ctl :=
  ho (((ready.wr Fld.mb_MB_CTRL_LEN words.length 0).setMbWords 0 0 words).wr Fld.mb_MB_DATA1_STAMP 0x5801 0) fun h => { h with waiting := [0] }
/-- Both memories up. -/
def memUp (c : Ctl) : Ctl :=
  (List.range 64).foldl (fun c ch => c.wr Fld.fc_FC_STATE_TRAINED 1 ch) ((List.range 8).foldl (fun c n => c.wr Fld.nm_NM_STATE_READY 1 n) c)

theorem test_wit_MessagesTakenInOrder :
    (let s := st (waitC [1, 0, 0, 0, 0, 0, 0, 0]); s.m.ctl.mayTake = true ∧ s.m.ctl.host.waiting = 0 :: []
      ∧ s.m.ctl.refuses (s.m.ctl.messageOf 0) = none)
    ∧ (let s := st (waitC [0xFFFF, 0, 0, 0, 0, 0, 0, 0]); s.m.ctl.mayTake = true ∧ s.m.ctl.host.waiting = 0 :: []
      ∧ s.m.ctl.refuses (s.m.ctl.messageOf 0) = some 0x10 ∧ (s.m.ctl.messageOf 0).kind ≠ 4)
    ∧ (let m := msg [0x20]; let c := { up with job := { JobSt.reset with secureOnly := true } }
       c.job.secureOnly = true ∧ m.kind = 1 ∧ bit m.stamp 4 = false ∧ m.cmd ≠ 1 ∧ m.cmd ≠ 0x70)
    ∧ ((st up).m.ctl.host.waiting = [] ∧ (st (up.wr Fld.st_ST_STATE_STAGE 1)).m.ctl.stage = 1) := by and_intros <;> decide

set_option maxRecDepth 4000 in
theorem test_wit_JobLifeCommands :
    (st (takenC [1])).m.ctl.takenCmd 0 0x0001 = some (msg [1])
    ∧ (let x := msg [0x10, 0, 1, 0, 2, 0, 1, 0]; let s := st (memUp (takenC [0x10, 0, 1, 0, 2, 0, 1, 0]))
       s.m.ctl.takenCmd 0 0x0010 = some x ∧ x.amend = false ∧ s.m.ctl.setupCheck x = 0)
    ∧ (let x := msg [0x10]; let s := st (takenC [0x10])
       s.m.ctl.takenCmd 0 0x0010 = some x ∧ x.amend = false ∧ x.kind ≠ 4 ∧ s.m.ctl.memReady = false)
    ∧ (st (jobC [0x11])).m.ctl.takenCmd 0 0x0011 = some (msg [0x11])
    ∧ ((st (jobC [0x12])).m.ctl.takenCmd 0 0x0012 = some (msg [0x12]) ∧ (msg [0x12]).kind ≠ 4)
    ∧ ((st (jobC [0x13])).m.ctl.takenCmd 0 0x0013 = some (msg [0x13]) ∧ (msg [0x13]).kind ≠ 4) := by and_intros <;> decide +kernel

theorem test_wit_LoadAndPolicyCommands :
    (let x := msg [0x20]; let s := st (jobC [0x20])
     s.m.ctl.takenCmd 0 0x0020 = some x ∧ x.kind ≠ 4 ∧ x.w 5 ≤ 1536 * 1048576 ∧ s.m.bufRead (x.buf 3) (.bytes []) = some [])
    ∧ (let x := msg [0x20, 0, 0, 0, 0, 0x60000001]; (st (jobC [0x20, 0, 0, 0, 0, 0x60000001])).m.ctl.takenCmd 0 0x0020 = some x
        ∧ 1536 * 1048576 < x.w 5)
    ∧ (let x := msg [0x21, 0, 0, 0, 0, 64]; let s := st (jobC [0x21, 0, 0, 0, 0, 64])
       s.m.ctl.takenCmd 0 0x0021 = some x ∧ x.kind ≠ 4 ∧ (s.m.bufRead (x.buf 3) (.bytes [])).isSome = true)
    ∧ (let x := msg [0x30, 0, 1, 0x0102, 300]; let s := st (jobC [0x30, 0, 1, 0x0102, 300])
       s.m.ctl.takenCmd 0 0x0030 = some x ∧ x.kind ≠ 4 ∧ s.m.ctl.policyCheck x = 0)
    ∧ (let x := msg [0x30, 0, 1, 0x0102, 0]; (st (jobC [0x30, 0, 1, 0x0102, 0])).m.ctl.policyCheck x ≠ 0) := by and_intros <;> decide +kernel

theorem test_wit_GenerationControlCommands :
    (st (jobC [0x40, 0, 0])).m.ctl.takenSub 0 0x0040 0 = some (msg [0x40, 0, 0])
    ∧ (let x := msg [0x40, 0, 0, 1, 0x0401, 10]; x.pairs.1.all Pair.inRange = true ∧ genSetOk (applyPairs 4 genDefaults x.pairs.1) = true)
    ∧ (st (jobC [0x40, 0, 1])).m.ctl.takenSub 0 0x0040 1 = some (msg [0x40, 0, 1])
    ∧ (let s := st (jobC [0x40, 0, 2]); s.m.ctl.takenSub 0 0x0040 2 = some (msg [0x40, 0, 2]) ∧ s.m.ctl.stage ≠ 4)
    ∧ (let x := msg [0x40, 0, 0x103, 1, 7, 0, 0]; let s := st (jobC [0x40, 0, 0x103, 1, 7, 0, 0])
       s.m.ctl.takenSub 0 0x0040 3 = some x ∧ s.m.ctl.stage = 3 ∧ s.m.ctl.job.held = true ∧ s.m.ctl.job.attempt = 0
        ∧ s.m.ctl.gen.restore = none ∧ ∃ p ∈ x.triples, p.2 = s.m.ctl.coord)
    ∧ (let x := msg [0x40, 0, 0x104, 0]; let s := st ((jobC [0x40, 0, 0x104, 0]).wr Fld.st_ST_STATE_STAGE 4)
       s.m.ctl.takenSub 0 0x0040 4 = some x ∧ s.m.ctl.stage = 4 ∧ s.m.ctl.gen.holdDue = false) := by and_intros <;> decide

/-- A PROTECT group of two, this module rank 0. -/
def pair : GroupEnt := ⟨3, 5, true, 0, 0xFFFF, [], 2, 0, 0, 0, [(0, 7), (1, 8)]⟩

/-- A RESTORE that names this module, with no far channel kept; a REJOIN of the durable generation that names others' members, and one
of another generation. -/
theorem test_wit_GenerationControlCommands_begins :
    (let x := msg [0x40, 0, 0x103, 1, 7, 0, 0]; let s := st (jobC [0x40, 0, 0x103, 1, 7, 0, 0])
     (∃ p ∈ x.triples, p.2 = s.m.ctl.coord) ∧ s.m.survives (x.w 3) = none ∧ s.m.ctl.unrecoverable x.triples = false)
    ∧ (let x := msg [0x40, 0, 0x104, 0, 7, 0, 1]; let s := st ((jobC [0x40, 0, 0x104, 0, 7, 0, 1]).wr Fld.st_ST_STATE_STAGE 4)
       s.m.ctl.takenSub 0 0x0040 4 = some x ∧ s.m.ctl.durable = x.w 3 ∧ s.m.ctl.unrecoverable x.triples = true ∧ s.m.ctl.freeCount ≠ 0)
    ∧ (let c := (jobC [0x40, 0, 0x104, 0, 7, 0, 1]).wr Fld.st_ST_STATE_STAGE 4
       ({ c with job := { c.job with roll := { RollCall.reset with groups := [pair] } } } : Ctl).unrecoverable (msg [0x40, 0, 0x104, 0, 7, 0, 1]).triples = false)
    ∧ (let x := msg [0x40, 0, 0x104, 0]; ((jobC [0x40, 0, 0x104, 0]).wr Fld.sg_SG_DURABLE_GEN 5).durable ≠ x.w 3)
    ∧ (st (jobC [0x40, 0, 0x104, 0])).m.ctl.stage ≠ 4 := by and_intros <;> decide +kernel

theorem test_wit_LinkAndGroupCommands :
    (let x := msg [0x50, 0, 0, 0]; let s := st (takenC [0x50, 0, 0, 0])
     s.m.ctl.takenSub 0 0x0050 0 = some x ∧ s.m.ctl.anyLesson = false ∧ coordX (x.w 3 % 2 ^ 13) ≤ bitsOf (x.w 3) 13 5
      ∧ coordY (x.w 3 % 2 ^ 13) ≤ bitsOf (x.w 3) 18 5)
    ∧ (let x := msg [0x50, 0, 1, 1, 0x0301, 16]; let s := st (takenC [0x50, 0, 1, 1, 0x0301, 16])
       s.m.ctl.takenSub 0 0x0050 1 = some x ∧ x.kind ≠ 4 ∧ x.pairs.1.all Pair.inRange = true
        ∧ ∀ y < 36, ((s.m.ctl.link y).settings y x.pairs.1).cred.foldl (· + ·) 0 ≤ 1024)
    ∧ (let x := msg [0x50, 0, 2, 0, 8, 2]; (st (takenC [0x50, 0, 2, 0, 8, 2])).m.ctl.takenSub 0 0x0050 2 = some x ∧ x.w 5 < 3)
    ∧ (let w := [0x50, 0, 3, 0x10000001, 1, 0, 0, 16]; let x := msg w; let s := st (takenC w); let b := padTo 16 [0, 0, 0, 0, 7]
       s.m.ctl.takenSub 0 0x0050 3 = some x ∧ x.kind ≠ 4 ∧ x.w 7 = 16 * x.w 4 ∧ s.m.bufRead (x.buf 5) (.bytes b) = some b
        ∧ memberTableOk b (x.w 4) = true)
    ∧ ((st (takenC [0x50, 0, 4, 1])).m.ctl.takenSub 0 0x0050 4 = some (msg [0x50, 0, 4, 1]) ∧ (msg [0x50, 0, 4, 1]).kind ≠ 4) := by
  and_intros <;> decide

/-- A group that stands, and one whose kind takes no parity. -/
theorem test_wit_LinkAndGroupCommands_groups :
    let b := padTo 16 [0, 0, 0, 0, 7]
    (let x := msg [0x50, 0, 3, 0x00000001, 1, 0, 0, 16]; let s := st (takenC [0x50, 0, 3, 0x00000001, 1, 0, 0, 16])
     s.m.ctl.groupRefused x (membersOf b (x.w 4)) = false
      ∧ ({ s.m.ctl.job.roll with groups := putGroup s.m.ctl.job.roll.groups (s.m.ctl.groupFrom x (membersOf b (x.w 4))) } : RollCall).fits = true)
    ∧ (let x := msg [0x50, 0, 3, 0x01000001, 1, 0, 0, 16]; (st (takenC [])).m.ctl.groupRefused x (membersOf b (x.w 4)) = true) := by
  and_intros <;> decide +kernel

theorem test_wit_LayoutAndTelemetryCommands :
    (let x := msg [0x60, 0, 16, 1]; let s := st (takenC [0x60, 0, 16, 1])
     s.m.ctl.takenCmd 0 0x0060 = some x ∧ x.w 2 < 2 ^ 11 ∧ x.w 3 < 2 ^ 12 ∧ s.m.ctl.anyLesson = false
      ∧ s.m.ctl.windowFits (x.w 2) (x.w 3) = true ∧ s.m.ctl.host.decoder = none)
    ∧ (let x := msg [0x60, 0, 0, 1]; (st (takenC [0x60, 0, 0, 1])).m.ctl.windowFits (x.w 2) (x.w 3) = false)
    ∧ (let w := [0x70, 0, 0x00030000, 0, 14]; let s := st (takenC w)
       s.m.ctl.takenSub 0 0x0070 0 = some (msg w) ∧ (msg w).block = some (.lantern 0) ∧ (msg w).w 4 ≤ 14
        ∧ (msg w).w 3 + 4 * (msg w).w 4 ≤ (TBlock.lantern 0).size s.m)
    ∧ (let w := [0x70, 0, 0x00030001, 0, 4, 0, 0, 64]; let s := st (takenC w)
       s.m.ctl.takenSub 0 0x0070 1 = some (msg w) ∧ (msg w).block = some (.lantern 0) ∧ (msg w).w 3 + (msg w).w 4 ≤ (TBlock.lantern 0).size s.m
        ∧ (msg w).w 4 ≤ (msg w).w 7 ∧ (msg w).w 4 / 4 ≠ 0 ∧ s.m.ctl.bufOk ((msg w).buf 5) = true ∧ ((msg w).buf 5).far = false) := by
  and_intros <;> decide

theorem test_wit_UpdateCommands :
    (let w := [0x80, 0, 0, 0, 0, 0]; let s := st (takenC w)
     s.m.ctl.takenCmd 0 0x0080 = some (msg w) ∧ (msg w).w 5 ≤ 96 * 1048576 ∧ s.m.ctl.updPending = false
      ∧ s.m.bufRead ((msg w).buf 3) (.bytes []) = some [])
    ∧ (let s := st (sc (takenC [0x80]) fun p => { p with updState := 3 }); s.m.ctl.updPending = true)
    ∧ ((st (sc ready fun p => { p with updState := 1 })).m.ctl.sec.updState = 1)
    ∧ ((st (takenC [0x81, 0, 1])).m.ctl.takenCmd 0 0x0081 = some (msg [0x81, 0, 1]))
    ∧ (let s := st (sc (takenC [0x81, 0, 1]) fun p => { p with keys := true, record := { ProtRec.reset with staged := 1 } })
       s.m.ctl.locked = false ∧ s.m.ctl.updShown = 2)
    ∧ ((st (takenC [0x82])).m.ctl.takenCmd 0 0x0082 = some (msg [0x82]))
    ∧ (let s := st (sc ready fun p => { p with updState := 3 }); s.m.ctl.sec.updState = 3 ∧ s.m.ctl.sec.hoReady = false)
    ∧ ((st (sc ready fun p => { p with updState := 5 })).m.ctl.sec.updState = 5) := by and_intros <;> decide

/-! ## Hypotheses that are met: queues and Hall Pass -/

/-- Change a state's control part. -/
def qC (d q : Nat) (f : QueueSt → QueueSt) (g : DieSt → DieSt) : Ctl :=
  { up with dies := [(d, g { DieSt.reset with queues := [(q, f QueueSt.reset)] })] }
/-- A state whose memory holds bytes at an address. -/
def memSt (c : Ctl) (a : Nat) (b : List Nat) : State := ⟨⟨c, Cells.write memDefault [] a b⟩, []⟩
/-- A descriptor in a stage. -/
def descOf (raw : List Nat) (stg : DStage) (w : Work) : Desc :=
  { Desc.fetched 0 ⟨0, 0, false, false, none, 0, 0, 0⟩ (padTo 64 raw) with stage := stg, work := w }
/-- The first die with one descriptor in queue 63. -/
def dC (raw : List Nat) (stg : DStage) (w : Work) : Ctl := qC 0 63 (fun x => { x with live := [descOf raw stg w] }) id

/-- Queue 63 of the last die at a program word. -/
def progS (w : Nat) : State :=
  memSt (qC 7 63 (fun x => { x with progWords := 1, prog := some ⟨0, 0, 0, false⟩ }) id) (lessonStore 7) [w]

theorem test_wit_QueueProgramWords :
    ((progS 1).m.ctl.dieUp 7 = true ∧ (progS 1).m.progWop 7 63 = some (⟨0, 0, 0, false⟩, 0, 1) ∧ (progS 1).m.ctl.bad (lessonStore 7 + 0) = false)
    ∧ ((progS 2).m.progWop 7 63 = some (⟨0, 0, 0, false⟩, 0, 2) ∧ ((progS 2).m.ctl.queue 7 63).live = [] ∧ ((progS 2).m.ctl.queue 7 63).ring = [])
    ∧ (progS 3).m.progWop 7 63 = some (⟨0, 0, 0, false⟩, 0, 3)
    ∧ ((st (dC [1] .running .none)).m.ctl.queue 0 63).live ≠ [] := by and_intros <;> decide +kernel

theorem test_wit_QueueProgramWords_quiet : (progS 1).m.ctl.bpMatch (4 * 7 + (progS 1).m.ctl.coreOf 7 63) 1 (fun _ => true) = [] := by decide

/-- A core with a PC breakpoint at the place where it is. -/
def pcC : Ctl :=
  ((((progS 1).m.ctl.wr Fld.bp_BPn_CTRL_EN 1 28 0).wr Fld.bp_BPn_CTRL_KIND 1 28 0)).wr Fld.bp_BPn_VAL (Config.freeValue 0) 28 0

theorem test_wit_QueueProgramWords_pc :
    pcC.dieUp 7 = true ∧ (⟨pcC, (progS 1).m.mem⟩ : Module).progWop 7 63 = some (⟨0, 0, 0, false⟩, 0, 1)
      ∧ (pcC.pcHits (4 * 7 + pcC.coreOf 7 63)).1 ≠ [] := by
  refine ⟨by decide +kernel, by decide +kernel, ?_⟩
  have hx : 4 * 7 + pcC.coreOf 7 63 = 28 := by decide +kernel
  have h1 : (pcC.on Fld.bp_BPn_CTRL_EN 28 0 && pcC.rd Fld.bp_BPn_CTRL_KIND 28 0 == 1) = true := by decide +kernel
  have h2 : pcC.rd Fld.bp_BPn_VAL 28 0 = Config.freeValue 0 % 2 ^ 32 := Ctl.rd_wr_same _ _ _ _ _
  have h3 : pcC.fresh.1 = Config.freeValue 0 := rfl
  have hm : ∀ p : Nat → Bool, p 0 = true → 0 ∈ pcC.bpMatch 28 1 p := fun p hp => by
    refine List.mem_filter.2 ⟨by decide, ?_⟩
    rw [h1, hp]; rfl
  rw [hx]
  unfold Ctl.pcHits
  have he : (pcC.bpMatch 28 1 (fun _ => true)).isEmpty = false := by
    cases h : pcC.bpMatch 28 1 (fun _ => true) with
    | nil => exact absurd (hm (fun _ => true) rfl) (by rw [h]; exact List.not_mem_nil)
    | cons _ _ => rfl
  rw [he]
  exact List.ne_nil_of_mem (hm (fun i => pcC.rd Fld.bp_BPn_VAL 28 i == pcC.fresh.1 % 2 ^ 32) (by simp [h2, h3]))

theorem test_wit_DescriptorFetchAndWait :
    (let x : Slot := ⟨0, 0, false, false, none, 0, 0, 0⟩
     let s := memSt ((qC 0 63 (fun y => { y with ring := [x] }) id).wr Fld.que_Q_CTRL_ENABLE 1 0 63) (lessonStore 0) [1]
     s.m.ctl.dieUp 0 = true ∧ s.m.ctl.toFetch 0 63 = some x ∧ s.m.ctl.bpFetch (4 * 0 + s.m.ctl.coreOf 0 63) 63 x.desc = []
      ∧ s.m.ctl.bad (descAddr s.m.ctl 0 x.desc) = false
      ∧ (hdrOf (slotBytes (memRead s.m.mem (descAddr s.m.ctl 0 x.desc) 64) x)).fence = false)
    ∧ (let s := st (up.wr Fld.que_Q_CTRL_STOPPED 1 0 63); s.m.ctl.on Fld.que_Q_CTRL_STOPPED 0 63 = true)
    ∧ (let e := descOf [1, 0, 255, 0, 1] .wait .none
       let s := st ((qC 0 63 (fun y => { y with live := [e] }) (fun d => { d with waiters := [(255, 63)] })).wr Fld.que_SEMs_COUNT 1 0 255)
       s.m.ctl.dieUp 0 = true ∧ s.m.ctl.waitMet 0 63 = some e)
    ∧ (st up).m.ctl.waitMet 0 63 = none := by and_intros <;> decide +kernel

theorem test_wit_GrantsStartsAndReleases :
    (let r : HpReq := ⟨.drain, 7, 5, 1⟩
     let s := st { up.wr Fld.pm_PM_UNITS_BUDGET 5 with hp := { HpSt.reset with fifo := [r] } }
     let z := st { up.wr Fld.pm_PM_UNITS_BUDGET 4 with hp := { HpSt.reset with fifo := [r] } }
     s.m.ctl.hp.head = some r ∧ r.units ≤ s.m.ctl.freeUnits ∧ z.m.ctl.hp.head = some r ∧ z.m.ctl.freeUnits < r.units)
    ∧ (let s := st { up with hp := { HpSt.reset with held := [(.desc 0 63 0, 5)] } }; s.m.ctl.mayRelease 0 63 0 = true)
    ∧ (let e := descOf [1] .start .over; let s := st (dC [1] .start .over)
       s.m.ctl.dieUp 0 = true ∧ s.m.ctl.desc 0 63 0 = some e ∧ s.m.ctl.firstFor 0 63 e = true ∧ s.m.ctl.engineFree 0 (s.m.ctl.engineOf 0 63 e) = true)
    ∧ (let e := descOf [1] .running .none; let s := st (dC [1] .running .none)
       s.m.ctl.desc 0 63 0 = some e ∧ e.stage = .running ∧ e.raw.getD 0 0 = 0x01)
    ∧ (let e := { descOf [2] .running .none with cowWait := some 9 }
       let s := st (qC 0 63 (fun x => { x with live := [e] }) id)
       s.m.ctl.desc 0 63 0 = some e ∧ e.cowWait = some 9 ∧ s.m.ctl.marked 9 = false) := by and_intros <;> decide +kernel

/-- A tensor of one byte an element in memory. -/
def tens (base : Nat) : Tensor := { Tensor.none with base := base, rows := 2, cols := 3, stride := 64, fmt := 0x08, decl := 0x08 }

theorem test_wit_DmCopyMovesOneRow :
    (let w : Work := .copy (tens (nearBase 0)) (tens (nearBase 0 + 4096)) false 1 0 1 ⟨0⟩
     let s := st (dC [2] .running w)
     s.wf = true ∧ s.m.ctl.dieUp 0 = true ∧ s.m.ctl.desc 0 63 0 = some (descOf [2] .running w) ∧ 0 < 1
      ∧ (tens (nearBase 0)).inTb = false ∧ (tens (nearBase 0)).fmt = (tens (nearBase 0 + 4096)).fmt
      ∧ (tens (nearBase 0)).cols = (tens (nearBase 0 + 4096)).cols ∧ ∀ l, s.m.ctl.marked l = false) := by
  and_intros <;> first | decide +kernel | exact fun _ => rfl

theorem test_wit_CompletionRecordsAndQueueWrites :
    (let s := st (dC [1] .running .over)
     s.m.ctl.dieUp 0 = true ∧ s.m.ctl.desc 0 63 0 = some (descOf [1] .running .over) ∧ (descOf [1] .running .over).work = .over
      ∧ s.m.ctl.firstLeft 0 63 0 = true)
    ∧ (let e := { descOf [1] .running .over with seq := 1 }
       let s := st (qC 0 63 (fun x => { x with live := [descOf [1] .running .none, e] }) id)
       s.m.ctl.desc 0 63 1 = some e ∧ s.m.ctl.firstLeft 0 63 1 = false)
    ∧ (let e := { descOf [1] .finish .none with err := 2 }
       let s := st (qC 0 63 (fun x => { x with live := [e] }) id)
       s.m.ctl.desc 0 63 0 = some e ∧ e.stage = .finish ∧ e.err ≠ 7 ∧ s.m.ctl.firstLeft 0 63 0 = true)
    ∧ (let e := { descOf [1] .done .over with err := 1 }
       let s := st (((qC 0 63 (fun x => { x with live := [e] }) id).wr Fld.que_Q_SLOTS 1 0 63).wr Fld.que_Q_CTRL_STOP_ON_ERROR 1 0 63)
       s.m.ctl.dieUp 0 = true ∧ s.m.ctl.toRecord 0 63 = some e ∧ e.slot.rerun = false ∧ (s.m.ctl.die 0).falls = [] ∧ e.err ≠ 7
        ∧ s.m.ctl.rd Fld.que_SEMs_COUNT 0 (hdrOf e.raw).sigSem < 2 ^ 32 ∧ e.err ≠ 0 ∧ s.m.ctl.on Fld.que_Q_CTRL_STOP_ON_ERROR 0 63 = true)
    ∧ ((st up).m.ctl.dieUp 0 = true ∧ 255 < 256 ∧ (st up).m.ctl.rd Fld.que_SEMs_COUNT 0 255 < 2 ^ 32 ∧ 63 < 64)
    ∧ (let s := st (up.wr Fld.que_Q_CTRL_STOPPED 1 0 63); s.m.ctl.dieUp 0 = true ∧ s.m.ctl.on Fld.que_Q_CTRL_STOPPED 0 63 = true) := by
  and_intros <;> decide +kernel

/-! ## Hypotheses that are met: arrays -/

/-- A group of one 1 × 1 × 1 problem, BF16 by BF16 into FP32. -/
def pd : PassDesc :=
  { die := 0, logical := 0, phys := 0, op := 0, accInit := false, accOut := true, zskip := false, loadT := false, sideEn := false, h := 128,
    w := 128, sparse := 0, bskip := false, outx := false, xbase := 0, scaleA := 127, scaleB := 127, blkA := false, blkB := false,
    ta := { tens 0x1000 with fmt := 0x0C }, tb := { tens 0x2000 with fmt := 0x0C }, tc := { tens 0x3000 with fmt := 0x0E },
    tmeta := Tensor.none, tmap := Tensor.none, tsin := Tensor.none, tsout := Tensor.none, m := 1, n := 1, k := 1, m0 := 0, n0 := 0, k0 := 0,
    cvt := Cvt.reset, layer := 0, role := 0, steered := false }
/-- Its run, with fields changed, on the first array of the first die. -/
def run0 : GroupRun := GroupRun.begin 63 (descOf [0x10] .running (.pass pd)) pd
def arrC (g : GroupRun) : Ctl := { up with dies := [(0, { DieSt.reset with arrays := [(0, { ArraySt.reset with run := some g })] })] }
def pass1 : Pass := ⟨0, 0, false, true, true⟩

theorem test_wit_PassGroupsExpandAndIssue :
    (pd.bskip = false ∧ 0 < pd.problems) ∧ ((st (arrC run0)).m.ctl.dieUp 0 = true ∧ ((st (arrC run0)).m.ctl.arr 0 0).unexpanded = some (true, run0))
    ∧ (let g := { run0 with expanded := true, todo := [pass1] }; let s := st (arrC g)
       (s.m.ctl.arr 0 0).toIssue = some (true, g) ∧ g.todo = pass1 :: [] ∧ pass1.skip = false
        ∧ ¬ (pass1.first = true ∧ g.d.accInit = true ∧ s.m.ctl.sameFrame g.d = false))
    ∧ (let g := { run0 with expanded := true, todo := [pass1], d := { pd with accInit := true } }; let s := st (arrC g)
       (s.m.ctl.arr 0 0).toIssue = some (true, g) ∧ pass1.first = true ∧ g.d.accInit = true ∧ s.m.ctl.sameFrame g.d = false)
    ∧ (let p : Pass := ⟨0, 0, true, true, false⟩; let g := { run0 with expanded := true, todo := [p] }; let s := st (arrC g)
       (s.m.ctl.arr 0 0).toIssue = some (true, g) ∧ p.skip = true ∧ p.last = false) := by and_intros <;> decide +kernel

/-- A skipped pass that closes its n-tile. -/
def closing : Pass := ⟨0, 0, true, true, true⟩

theorem test_wit_PassGroupsExpandAndIssue_closing :
    (let g := { run0 with expanded := true, todo := [closing] }; let s := st (arrC g)
     (s.m.ctl.arr 0 0).toIssue = some (true, g) ∧ closing.skip = true ∧ closing.last = true ∧ g.d.accInit = false ∧ g.d.accOut = true)
    ∧ (let g := { run0 with expanded := true, todo := [closing], d := { pd with accInit := true } }
       let s := st (arrC g); let z := st ((arrC g).wr Fld.ma_MA_STATE_ACC_KIND 1 (maInst 0 0))
       (s.m.ctl.arr 0 0).toIssue = some (true, g) ∧ g.d.accInit = true ∧ s.m.ctl.rd Fld.ma_MA_STATE_ACC_KIND (maInst 0 0) = 0
        ∧ (z.m.ctl.arr 0 0).toIssue = some (true, g) ∧ z.m.ctl.rd Fld.ma_MA_STATE_ACC_KIND (maInst 0 0) ≠ 0 ∧ z.m.ctl.sameFrame g.d = false) := by
  and_intros <;> decide +kernel

/-- The running group waits for its recompute attempts, the next one has passes. -/
def dueC (f : GroupRun → GroupRun) : Ctl :=
  let a : ArraySt := { bank := [], run := some { run0 with expanded := true }, next := some (f run0) }
  let e := { descOf [0x10] .running (.pass pd) with recomp := some ⟨[0], 0, false, false, 0, 0⟩ }
  qC 0 63 (fun x => { x with live := [e] }) (fun x => { x with arrays := [(0, a)] })

theorem test_wit_PassGroupsExpandAndIssue_due :
    let g := { run0 with expanded := true, todo := [pass1] }
    let s := st (dueC fun _ => g)
    (s.m.ctl.arr 0 0).toIssue = some (false, g) ∧ s.m.ctl.attemptsDue 0 0 = true := by and_intros <;> decide +kernel

theorem test_wit_LoadsBeatsAndReadouts :
    (let x : Tile := ⟨pass1, [], 0⟩; let g := { run0 with expanded := true, pend := some x }; let s := st (arrC g)
     s.m.ctl.dieUp 0 = true ∧ (s.m.ctl.arr 0 0).toLoad = some (true, g, x) ∧ s.m.lineReady g.d x = true ∧ g.d.h = 128 ∧ g.d.w = 128
      ∧ g.d.sparse = 0 ∧ g.d.bskip = false ∧ g.d.loadT = false ∧ 0 < g.d.shape.l ∧ 0 < g.d.gridCols)
    ∧ (let x : Tile := ⟨pass1, [], pd.shape.l⟩; let g := { run0 with expanded := true, pend := some x }; let s := st (arrC g)
       (s.m.ctl.arr 0 0).toBeat = some (true, g) ∧ g.act = none ∧ g.ready = some x ∧ x.pass.first = true ∧ g.d.accInit = false)
    ∧ (let x : Tile := ⟨pass1, [], 0⟩; let g := { run0 with expanded := true, act := some x }; let s := st (arrC g)
       (s.m.ctl.arr 0 0).toBeat = some (true, g) ∧ (s.m.ctl.arr 0 0).run = some g ∧ g.act = some x ∧ g.d.mode ≠ .serial ∧ g.d.rowBeats = 1
        ∧ g.d.problems = 1 ∧ g.d.ta.inTb = false ∧ g.row < (s.m.ctl.arr 0 0).stopRow ∧ s.m.feederReady g x = true
        ∧ s.m.feederReady { g with d := { g.d with ta := { g.d.ta with inTb := true } } } x = false)
    ∧ (let r : Readout := ⟨0, 0, 0, false, false, false, false⟩; let g := { run0 with expanded := true, readouts := [r] }; let s := st (arrC g)
       (s.m.ctl.arr 0 0).toRead = some (true, g, r) ∧ s.m.ctl.cowWaits 0 g.queue g.seq = false ∧ s.m.readTurn 0 g r = true
        ∧ r.stale = false ∧ g.d.m ≤ r.row + 1) := by and_intros <;> decide +kernel

/-- The row that a readout of one n-tile writes. -/
def outOf (d : PassDesc) (r : Readout) : RowOut :=
  let g := { run0 with expanded := true, readouts := [r], d := d }
  (st (arrC g)).m.readRow d r [] [] false

theorem test_wit_LoadsBeatsAndReadouts_readout :
    let r : Readout := ⟨0, 0, 0, true, false, false, false⟩
    (up.rowFree pd (outOf pd r) = true ∧ up.rowStall pd (outOf pd r) = none)
    ∧ (let d := { pd with tc := { pd.tc with inTb := true, tb := 1, stride := 256 } }
       ({ up with dies := [(0, { DieSt.reset with vus := [(0, { VuSt.reset with slots := (List.range 64).map (fun i => ((1, i), { TbSlot.reset with full := true })) })] })] }
         : Ctl).rowFree d (outOf d r) = false) := by and_intros <;> decide +kernel

/-- R93: the entry clear, a term at the window's base, one past its top by one, one below it by one. -/
theorem test_wit_FixedSumsAreExact :
    (AccEntry.clear.clamped = false ∧ 0 ≤ (3 : Int) - 3 ∧ (3 : Int) - 3 ≤ pd.frameQ.h)
    ∧ { AccEntry.clear with clamped := true }.clamped = true
    ∧ (-(2 ^ 95 : Int) ≤ AccEntry.clear.fixed ∧ AccEntry.clear.fixed < 2 ^ 95 ∧ (1 : Int) * 1 ≠ 0 ∧ 0 ≤ pd.frameQ.h
        ∧ pd.frameQ.h < (pd.frameQ.h + 4) - 3 ∧ (2 : Int) - 3 < 0) := by and_intros <;> decide

/-! ## Hypotheses that are met: vector units, steering, the Lantern -/

/-- A chain of one LOAD-less stage over two rows of three FP32 elements. -/
def cd (stages : List Stage) : ChainDesc :=
  { die := 0, vu := 15, stages := stages, bEn := false, bBcast := 0, maskEn := false, maskInv := false, maskFill := 0, dstVreg := false,
    rows := 2, cols := 3, ta := { tens 0x1000 with fmt := 0x0E }, tb := Tensor.none, tmask := Tensor.none,
    td := { tens 0x2000 with fmt := 0x0E }, dstVr := 0, cvt := Cvt.reset, layer := 0, role := 0 }
def chain0 (d : ChainDesc) : ChainRun :=
  { queue := 63, seq := 0, epoch := 0, d := d, started := false, unit := 0, row := 0, grp := 0, base := 0, cur := [], held := [], caps := [], vout := [],
    stat := ⟨0, 0, 0⟩, done := false }
def vuC (r : ChainRun) : Ctl := { up with dies := [(0, { DieSt.reset with vus := [(15, { VuSt.reset with run := some r })] })] }
/-- Two stages that cost more than one step a group. -/
def dear : ChainDesc := cd [⟨0x08, 0, 0, 0, 0⟩, ⟨0x0A, 0, 0, 0, 0⟩, ⟨0x0A, 0, 0, 0, 0⟩]

theorem test_wit_ChainsStepByStep :
    (let r := chain0 (cd [⟨0x01, 0, 0, 0, 0⟩]); let s := st (vuC r)
     s.m.ctl.dieUp 0 = true ∧ (s.m.ctl.vu 0 15).run = some r ∧ r.started = false ∧ r.d.die = 0 ∧ r.d.vu = 15 ∧ s.m.chainTurn r = true)
    ∧ (let r := { chain0 (cd [⟨0x01, 0, 0, 0, 0⟩]) with started := true }; let s := st (vuC r)
       (s.m.ctl.vu 0 15).run = some r ∧ r.done = false ∧ s.m.ctl.cowWaits 0 r.queue r.seq = false ∧ r.waits s.m.ctl = false ∧ r.endsRow = true
        ∧ r.d.holds r.row = false ∧ ∀ x ∈ [r.d.ta, r.d.tb, r.d.tmask, r.d.td], x.tb < 4)
    ∧ (let r := { chain0 { cd [⟨0x01, 0, 0, 0, 0⟩] with cols := 300 } with started := true }; let s := st (vuC r)
       r.waits s.m.ctl = false ∧ r.endsRow = false)
    ∧ (let d := cd [⟨0x01, 0, 0, 0, 0⟩]
       let r := { chain0 { d with ta := { d.ta with inTb := true, tb := 3, tbVu := 15 } } with started := true }; let s := st (vuC r)
       r.waits s.m.ctl = true ∧ r.d.usesTb 3 = true ∧ r.d.usesTb 2 = false)
    ∧ (let d := cd [⟨0x01, 0, 0, 0, 0⟩]
       let r := { chain0 { d with td := { d.td with inTb := true, tb := 3, tbVu := 15 } } with started := true }; let s := st (vuC r)
       r.waits s.m.ctl = false ∧ r.d.usesTb 3 = true)
    ∧ (let d := cd [⟨0x01, 0, 0, 0, 0⟩]
       let r := { chain0 { d with td := { d.td with innerRows := true, scaled := true, bsize := 32 }, cvt := { Cvt.reset with scaleSrc := 3 } } with started := true }
       let s := st (vuC r); r.waits s.m.ctl = false ∧ r.endsRow = true ∧ r.d.holds r.row = true) := by and_intros <;> decide +kernel

/-- Two chains of one core that draw from one stream, each on a unit of its own; the one issued first has not begun. -/
def turnC : Ctl × ChainRun :=
  let d := { cd [⟨0x01, 0, 0, 0, 0⟩] with cvt := { Cvt.reset with rmode := 5 } }
  let e : Desc := { descOf ([0x20] ++ List.replicate 23 0 ++ [0x40, 1]) .running (.chain { d with vu := 14 }) with slot := ⟨0, 0, false, false, none, 0, 0, 0⟩ }
  let x : Desc := { descOf [0x20] .running (.chain d) with seq := 1, slot := ⟨0, 0, false, false, none, 0, 1, 0⟩ }
  let r := { chain0 d with seq := 1 }
  (qC 0 63 (fun y => { y with live := [e, x] })
    (fun y => { y with vus := [(14, { VuSt.reset with run := some (chain0 { d with vu := 14 }) }), (15, { VuSt.reset with run := some r })] }), r)

theorem test_wit_ChainsStepByStep_turn :
    (st turnC.1).m.ctl.dieUp 0 = true ∧ ((st turnC.1).m.ctl.vu 0 15).run = some turnC.2 ∧ (st turnC.1).m.chainTurn turnC.2 = false := by
  and_intros <;> decide +kernel

/-- Must the writes of the row that a chain ends wait for the drain? -/
def stalls (r : ChainRun) (c : Ctl) : Bool :=
  let m := (st c).m.onCtl (·.wr Fld.vu_VU_STATE_TB_WAIT 0 (vuInst 0 15))
  let rows := r.held ++ [(m.chainRow r.d r.row).outs]
  let q := m.convertRows r rows
  decide (r.d.dstVreg = false ∧ m.ctl.putBlock r.d.td (allOuts q (r.d.zeros (r.row - r.held.length) rows)) q.scales ≠ none)
/-- A control state whose pools have no room, a line still to be drained. -/
def fullPool (c : Ctl) (line : Nat) : Ctl :=
  { c.wr Fld.fl_FL_COW_GIB 0 with gen := { GenSt.reset with slots := [{ GenSlot.reset with state := 1, todo := [(0, line)] }, GenSlot.reset] } }

theorem test_wit_ChainsStepByStep_stalls :
    let r := { chain0 (cd [⟨0x01, 0, 0, 0, 0⟩]) with started := true }
    stalls r (vuC r) = false ∧ stalls r (fullPool (vuC r) (0x2000 / 64)) = true := by and_intros <;> decide +kernel

theorem test_wit_LoadsBeatsAndReadouts_stalls :
    (fullPool up (0x3000 / 64)).rowStall pd (outOf pd ⟨0, 0, 0, true, false, false, false⟩) = some (0x3000 / 64) := by decide +kernel

theorem test_wit_VectorRegisterWrites :
    ((st up).m.ctl.dieUp 0 = true ∧ 15 < 16 ∧ 31 < 32 ∧ 255 < 256 ∧ (st up).m.vregUsers 0 15 31 = [])
    ∧ (let s := st (dC [0x20, 0, 0, 0, 0, 0, 0, 0, 15, 0x80] .running .none); s.m.ctl.dieUp 0 = true ∧ s.m.vregUsers 0 15 0 ≠ [])
    ∧ (let p : HeldWrite := ⟨8191, 1, [7]⟩
       let s := st { up with dies := [(0, { DieSt.reset with vus := [(15, { VuSt.reset with held := [p] })] })] }
       (s.m.ctl.vu 0 15).held = [] ++ p :: [] ∧ (s.m.ctl.die 0).holdsWrite p = false ∧ p.word < 8192
        ∧ (((s.m.ctl.vu 0 15).held.filter (fun p => p.word == 256 * 31 + 255)).map (·.chains)).flatten ≠ [])
    ∧ (let p : HeldWrite := ⟨8191, 1, [0]⟩; (st (dC [0x20, 0, 0, 0, 0, 0, 0, 0, 15, 0x80] .running .none)).m.ctl.die 0 |>.holdsWrite p) = true
    ∧ ((st up).m.ctl.vu 0 15).held = [] := by
  and_intros <;> decide +kernel

theorem test_wit_RowStagesAndTheirEdges :
    (let d := { cd [⟨0x31, 0, 0, 0, 0⟩] with maskEn := true, tmask := tens 0x4000 }; let s := st up
     d.rowStage = some ⟨0x31, 0, 0, 0, 0⟩ ∧ ∀ c < d.cols, s.m.maskOk d 0 c = false)
    ∧ (Val.nan ∈ [Val.nan]) ∧ (Val.nan ∉ [Val.inf false] ∧ Val.inf false ∈ [Val.inf false])
    ∧ ([Val.inf true] ≠ [] ∧ ∀ v ∈ [Val.inf true], v = Val.inf true) := by and_intros <;> decide +kernel

/-- A steered group that is done, and its descriptor; its first tile flagged where `fl` is not empty, for the reason given. -/
def stG (pdx : PassDesc) (fl : List Nat) (why : List (Nat × Bool)) : GroupRun :=
  { run0 with d := pdx, expanded := true, stat := ⟨0, 0, fl, why⟩ }
def steered : PassDesc := { pd with steered := true, layer := 0, role := 1, cvt := { Cvt.reset with tgt := 0x04 } }
/-- A job whose plan is ADAPTIVE. -/
def adaptC : Ctl := { up with job := { JobSt.reset with policy := 0 :: policyDefaults.tail } }
def stC (g : GroupRun) (r : Option Recomp) (p : Plan) : Ctl :=
  let x : QueueSt := { QueueSt.reset with live := [{ descOf [0x10] .running (.pass g.d) with recomp := r }] }
  { adaptC with dies := [(0, { DieSt.reset with arrays := [(0, { ArraySt.reset with run := some g })], plan := [(0, p)], queues := [(63, x)] })] }

theorem test_wit_RecomputeFallbackAndCompare :
    (let g := stG steered [0] [(0, false)]
     up.serialRole g.d = false ∧ 1 ≤ up.policy 3 ∧ g.fails 0 = (true, false) ∧ g.d.xbase + 2 * 1 ≤ 127 ∧ up.policy 3 < 4)
    ∧ (let g := stG { steered with cvt := { Cvt.reset with scaleSrc := 1, oscale := 0x78 } } [0] [(0, true)]
       g.fails 0 = (false, true) ∧ g.d.cvt.scaleSrc = 1 ∧ g.d.cvt.oscale / 8 + 2 * 1 ≤ 30)
    ∧ (let g := stG steered [0] [(0, false)]; let s := st (stC g none Plan.reset); let x := descOf [0x10] .running (.pass steered)
       s.m.ctl.dieUp 0 = true ∧ s.m.ctl.desc 0 63 0 = some x ∧ s.m.ctl.groupOf 0 63 0 = some (0, g) ∧ g.done = true
        ∧ (x.recompOf g).tiles = 0 :: [] ∧ (x.recompOf g).granted = false
        ∧ s.m.ctl.attemptOf g 0 (x.recompOf g).attempt = .retry { steered with xbase := 2 })
    ∧ (let g := stG steered [0] [(0, false)]; let r : Recomp := ⟨[0], 1, true, false, 0, 0⟩; let s := st (stC g (some r) Plan.reset)
       let x := { descOf [0x10] .running (.pass steered) with recomp := some r }
       s.m.ctl.desc 0 63 0 = some x ∧ (x.recompOf g).granted = true ∧ s.m.ctl.attemptOf g 0 1 = .retry { steered with xbase := 2 })
    ∧ (let g := stG { steered with xbase := 127 } [0] [(0, false)]; let s := st (stC g none Plan.reset)
       s.m.ctl.attemptOf g 0 1 = .exhausted)
    ∧ (let g := stG { steered with xbase := 127 } [0] [(0, false)]
       let s := st (stC g none { Plan.reset with steered := true, ceil := [3, 3, 3] }); s.m.ctl.attemptOf g 0 1 = .fall 0x05)
    ∧ (let g := stG { steered with tb := { steered.tb with masterEn := true } } [] []; let s := st (stC g none Plan.reset)
       let x := descOf [0x10] .running (.pass g.d)
       s.m.ctl.desc 0 63 0 = some x ∧ (x.recompOf g).tiles = [] ∧ 0 ∈ s.m.ctl.toCompare g ∧ (x.recompOf g).granted = false)
    ∧ (let g := stG { steered with tb := { steered.tb with masterEn := true } } [] []; let r : Recomp := ⟨[], 1, true, false, 0, 0⟩
       let s := st (stC g (some r) Plan.reset); 0 ∈ s.m.ctl.toCompare g ∧ r.granted = true ∧ r.tiles = []) := by and_intros <;> decide +kernel

theorem test_wit_LanternMergesCommitsDiscards :
    (let c := (up.wr Fld.ln_LN_CTRL_ENABLE 1 0).wr Fld.ln_LN_LAYERS_COUNT 2 0
     (1 ≠ 0 ∧ c.on Fld.ln_LN_CTRL_ENABLE 0 = true ∧ c.rd Fld.ln_LN_LAYERS_COUNT 0 ≤ 2) ∧ 1 < c.rd Fld.ln_LN_LAYERS_COUNT 0
      ∧ (c.die 0).fence = none)
    ∧ ((st up).m.ctl.dieUp 7 = true ∧ 63 < 64)
    ∧ (let s := st { up with dies := [(7, { DieSt.reset with fence := some true })] }
       s.m.ctl.dieUp 7 = true ∧ (s.m.ctl.die 7).fence = some true ∧ (s.m.ctl.die 7).before = false ∧ (s.m.ctl.die 7).late = []) := by
  and_intros <;> decide +kernel

/-! ## Hypotheses that are met: routed work and collectives -/

/-- A group of two members, this module rank 1. -/
def grp (id kind : Nat) : GroupEnt :=
  { id := id, kind := kind, member := true, rank := 1, parent := 0, children := [], parityK := 2, routes := 0, epoch := 0, barrierSeq := 0,
    members := [(1, 8), (0, 7)] }
/-- A control state with groups. -/
def withGroups (c : Ctl) (l : List GroupEnt) : Ctl := { c with job := { c.job with roll := { RollCall.reset with groups := l } } }
/-- A queue descriptor of routed work. -/
def rtC (opc : Nat) (r : RouteRun) : Ctl := withGroups (dC [opc] .running (.route r)) [grp 1 0]
/-- Eight bytes and their CRC. -/
def block (b : List Nat) : List Nat := padTo 8 b ++ le 4 (crc32c (padTo 8 b))
/-- A Lesson whose one tensor is U8, one row of eight, at the start of near memory: the expert map that names die 0 of rank 1. -/
def mapLesson : Lesson :=
  { id := 1, size := 0, descOff := 0, descCount := 0, progOff := 0, progCount := 0, layers := 1,
    tensors := [padTo 64 (le 8 (nearBase 0) ++ [0x08, 0, 0, 0, 0, 0, 0, 0] ++ le 4 1 ++ le 4 8 ++ le 4 64)], groups := [], seminit := [] }
def combRaw : List Nat := [0x33, 0, 0, 0, 0, 0, 0, 0, 0, 0, 1, 0, 1, 0, 0, 0, 1, 0, 0, 0, 0, 0, 0, 0]
def combS (r : RouteRun) : State :=
  memSt (withGroups (qC 0 63 (fun x => { x with live := [descOf combRaw .running (.route r)] }) (fun d => { d with lesson := some mapLesson }))
    [grp 1 0]) (nearBase 0) [1]

theorem test_wit_ChoicesAdmissionAndCopies :
    ((∀ p ∈ [(0, 0), (1, 0x3F800000)], (fp32Val p.2).isNan = false) ∧ [(0, 0), (1, 0x3F800000)].Pairwise (fun a b => a.1 < b.1)) ∧ 0 < 1
    ∧ (let d := { DieSt.reset.topkOf 0 (padTo 64 [0x30]) with t := 2 }
       let r := { RouteRun.reset with op := .topk d }; let s := st (rtC 0x30 r)
       s.m.ctl.routeRun 0 63 0 0x30 = some (padTo 64 [0x30], r) ∧ r.event ≠ 7
        ∧ (∀ p ∈ d.common, p.1.inTb = false) ∧ d.logit.inTb = false ∧ s.m.ctl.topkReady d r.next = [0, 1])
    ∧ (let d := { DieSt.reset.topkOf 0 (padTo 64 [0x30]) with logit := { tens 0 with inTb := true, stride := 256 }, t := 1 }
       let r := { RouteRun.reset with op := .topk d }; let s := st (rtC 0x30 r)
       s.m.ctl.routeRun 0 63 0 0x30 = some (padTo 64 [0x30], r)
        ∧ s.m.ctl.topkReady (r.topk (s.m.ctl.die 0) 0 (padTo 64 [0x30])) r.next = [])
    ∧ (st (rtC 0x32 RouteRun.reset)).m.ctl.routeRun 0 63 0 0x32 = some (padTo 64 [0x32], RouteRun.reset) := by and_intros <;> decide +kernel

theorem test_wit_DispatchAndCombine :
    (let r := { RouteRun.reset with event := 2 }; let s := st (rtC 0x31 r); let b := padTo 64 [0x31]
     s.m.ctl.dieUp 0 = true ∧ s.m.ctl.routeRun 0 63 0 0x31 = some (b, r) ∧ (r.move (s.m.ctl.die 0) 0 b).die = 0 ∧ (1, 7) ∉ r.heard
      ∧ r.decided = false ∧ 2 ≤ r.event ∧ RouteRun.reset.event < 2 ∧ s.m.ctl.unheard 0 b r dispKinds = false ∧ (1, 7) ∉ r.owners
      ∧ blockOk [] = false ∧ s.m.ctl.rowDue (r.move (s.m.ctl.die 0) 0 b) [] r 0 4 1 7 = false)
    ∧ (let x : Span := ⟨0, 1, 7, 0, 4, 1⟩; let r := { RouteRun.reset with decided := true, spans := [x], heard := [(1, 7)], owners := [(1, 7)] }
       let b := block [0, 0, 0, 0, 4]; let s := st (rtC 0x31 r); let d := r.move (s.m.ctl.die 0) 0 (padTo 64 [0x31])
       s.m.ctl.routeRun 0 63 0 0x31 = some (padTo 64 [0x31], r) ∧ blockOk b = true
        ∧ s.m.ctl.rowDue d (s.m.ctl.owned d (s.m.experts d)) r (fieldAt b 0 2) (fieldAt b 4 4) 1 7 = true
        ∧ r.expired = false ∧ r.missing ≠ [] ∧ s.m.ctl.unheard 0 (padTo 64 [0x31]) r dispKinds = false
        ∧ (1, 7) ∈ r.heard ∧ (1, 7) ∈ r.owners)
    ∧ (let r := { RouteRun.reset with granted := true }; let s := combS r
       s.m.ctl.dieUp 0 = true ∧ s.m.ctl.routeRun 0 63 0 0x33 = some (padTo 64 combRaw, r) ∧ (r.move (s.m.ctl.die 0) 0 (padTo 64 combRaw)).die = 0
        ∧ r.event < 5 ∧ r.granted = true ∧ (let d := r.move (s.m.ctl.die 0) 0 (padTo 64 combRaw)
           (s.m.ctl.rowMoves d (s.m.experts d) (dropAbsent (s.m.experts d) (s.m.choices d))).length ≤ r.next))
    ∧ (let r := { RouteRun.reset with event := 5 }; let s := combS r; let b := block []
       r.event = 5 ∧ s.m.combTurn 0 63 0 (r.move (s.m.ctl.die 0) 0 (padTo 64 combRaw)) = true ∧ blockOk b = true ∧ r.event ≠ 7 ∧ s.m.ctl.unheard 0 (padTo 64 combRaw) r [.back] = false
        ∧ (s.m.experts (r.move (s.m.ctl.die 0) 0 (padTo 64 combRaw))).getD (fieldAt b 0 2) none = some ⟨1, 0, 0, 0⟩
        ∧ ∀ p ∈ r.returns, (p.1, p.2.1) ≠ (fieldAt b 0 2, fieldAt b 4 4)) := by and_intros <;> decide +kernel

/-- A descriptor of an all-reduce in group 1 over the dies of a mask, ring order. -/
def collD (mask opc : Nat) : CollDesc :=
  { opc := opc, group := 1, redOp := 0, algo := 2, tc := 2, wrz := false, wireFmt := 0x0E, dieMask := mask, root := 0, src := Tensor.none,
    dst := Tensor.none, timeout := 0, elems := 1, id := 9, srcE0 := 0, dstE0 := 0, cvt := Cvt.reset, layer := 0, role := 0 }
/-- It is in progress, its chunk 0 as given. -/
def collRunOf (mask opc : Nat) (started : Bool) (h : CollChunk) : CollRun :=
  ⟨1, 9, [⟨0, 63, 0, collD mask opc, []⟩], [], started, [(0, h)], [], []⟩
def collC (r : CollRun) (root : Nat) : Ctl :=
  { withGroups up [{ grp 1 2 with rank := root }] with colls := [r] }

theorem test_wit_CollectivesJoinAndStart :
    (let s := st (withGroups (dC [] .running (.coll (collD 1 0x40) [])) [grp 1 2])
     s.m.ctl.dieUp 0 = true ∧ s.m.ctl.collReady 0 63 0 0x40 = none)
    ∧ (let s := st (withGroups (dC [0x40] .running (.coll (collD 1 0x40) [])) [grp 1 2]); let x : CollDie := ⟨0, 63, 0, collD 1 0x40, []⟩
       s.m.ctl.collReady 0 63 0 0x40 = some x ∧ s.m.ctl.collLeft x = [] ∧ x.d.src.inTb = false
        ∧ (s.m.ctl.group 1).isSome = true ∧ s.m.ctl.collRun 1 9 = none)
    ∧ (let c : CollDesc := { collD 1 0x40 with src := { tens 0 with inTb := true, stride := 256 } }
       let s := st (withGroups (dC [0x40] .running (.coll c [])) [grp 1 2]); let x : CollDie := ⟨0, 63, 0, c, []⟩
       s.m.ctl.collReady 0 63 0 0x40 = some x
        ∧ s.m.ctl.readyRun 0 [] (c.src.rowsOf (s.m.ctl.collLeft x)) < (s.m.ctl.collLeft x).length)
    ∧ ((collD 1 0x40).dies = [0] ∧ ∃ o ∈ (collD 3 0x40).dies, o ≠ 0)
    ∧ (let r := collRunOf 3 0x40 false CollChunk.reset; let s := st (collC r 1)
       s.m.ctl.collRun 1 9 = some r ∧ r.head = some (collD 3 0x40) ∧ r.started = false ∧ (s.m.ctl.group 1).isSome = true)
    ∧ (let r := collRunOf 3 0x47 false CollChunk.reset; let s := st (collC r 1)
       s.m.ctl.collRun 1 9 = some r ∧ r.head = some (collD 3 0x47) ∧ (collD 3 0x47).barrier = true) := by and_intros <;> decide +kernel

theorem test_wit_ChunksLossesAndBarriers :
    (let g := grp 1 2; let s := st (collC (collRunOf 1 0x40 true CollChunk.reset) 1)
     s.m.ctl.group 1 = some g ∧ 0 < g.members.length ∧ s.m.ctl.wasExcluded 1 9 0 0 = none
      ∧ ((s.m.ctl.collFor 1 9).chunk 0).inputs.any (fun i => i.1 == 0) = false ∧ ((s.m.ctl.collFor 1 9).chunk 0).combined = false
      ∧ ((s.m.ctl.collFor 1 9).chunk 0).dist = false ∧ ((s.m.ctl.collFor 1 9).chunk 0).inputs.any (fun i => i.1 == 65535) = false)
    ∧ (let s := st (collC (collRunOf 1 0x40 true { CollChunk.reset with excluded := [0], inputs := [(1, 1, [])], dist := true }) 1)
       (s.m.ctl.wasExcluded 1 9 0 0).isSome = true ∧ ((s.m.ctl.collFor 1 9).chunk 0).inputs.any (fun i => i.1 == 1) = true
        ∧ ((s.m.ctl.collFor 1 9).chunk 0).dist = true)
    ∧ (let r := collRunOf 1 0x40 true { CollChunk.reset with own := some [] }; let s := st (collC r 0)
       let x : CollCtx := ⟨{ grp 1 2 with rank := 0 }, collD 1 0x40, 2, 0⟩
       s.m.ctl.collRun 1 9 = some r ∧ s.m.ctl.collCtx r = some x ∧ r.started = true ∧ x.d.reduces = true ∧ (r.chunk 0).own.isSome = true
        ∧ (r.chunk 0).combined = false ∧ (r.chunk 0).missing (x.expected 0) ≠ [])
    ∧ (let r := collRunOf 1 0x40 true { CollChunk.reset with combined := true }; let s := st (collC r 1)
       let x : CollCtx := ⟨grp 1 2, collD 1 0x40, 2, 1⟩
       s.m.ctl.collCtx r = some x ∧ 0 < x.total ∧ x.waits 0 = true ∧ (r.chunk 0).dist = false ∧ (r.chunk 0).combined = true
        ∧ r.held = [] ∧ (∀ l, s.m.ctl.marked l = false) ∧ 256 < s.m.ctl.freeCount ∧ s.m.ctl.host.shedFirst = none)
    ∧ (let s := st (withGroups up [grp 1 2]); s.m.ctl.group 1 = some (grp 1 2) ∧ 0 ≠ (grp 1 2).rank ∧ s.m.ctl.barriersOf 1 = [])
    ∧ (let r := collRunOf 1 0x47 true CollChunk.reset; let s := st { collC r 1 with barriers := [] }
       s.m.ctl.barriersOf 1 = [r] ∧ (grp 1 2).barrierSeq = 0
        ∧ ∀ o < (grp 1 2).members.length, o ≠ (grp 1 2).rank → o = 0 ∨ (⟨1, o, 0⟩ : BarrierTok) ∈ s.m.ctl.barriers) := by
  and_intros <;> first | decide +kernel | exact fun _ => rfl

/-! ## Hypotheses that are met: steps -/

/-- A Timetable whose first die alone takes part, with one forward slot. -/
def tt0 : Timetable :=
  { id := 1, nbuf := 1, nmb := 1, lossV := 0, stages := [⟨false, 0, 0, [1], [0]⟩], slots := [1],
    dies := ⟨1, 1, 1, 0xFFFF, 0xFFFF, 0, 1, true⟩ :: List.replicate 7 ⟨0, 0, 0, 0xFFFF, 0xFFFF, 0, 0, false⟩ }
/-- A job in its step, with a CHECK group of which this module is the root and rank 1 its child. -/
def checkGrp : GroupEnt := { grp 2 4 with rank := 0, parent := 0xFFFF, children := [1] }
def stepC (f : JobSt → JobSt) (x : StepRun) : Ctl :=
  { up.wr Fld.st_ST_STATE_STAGE 3 with job := f { JobSt.reset with inJob := true, timetable := some tt0, held := false, runLeft := 1, roll := { RollCall.reset with groups := [checkGrp] } }, dies := [(0, { DieSt.reset with step := x })] }
def run1 : StepRun := { StepRun.reset with active := true, slots := [1] }
def tok : Token := ⟨0, 0, 0, 0, 1, 0, 0, 0, 0⟩

theorem test_wit_StepsRunAndCheck :
    (let s := st (stepC id StepRun.reset)
     s.m.ctl.dieUp 0 = true ∧ s.m.ctl.job.timetable = some tt0 ∧ s.m.ctl.job.timetableNext = none
      ∧ (tt0.dies[0]?).map (·.active) = some true ∧ (s.m.ctl.die 0).step.active = false ∧ s.m.ctl.mayBegin = true)
    ∧ (let s := st (stepC (fun j => { j with held := true }) StepRun.reset); s.m.ctl.mayBegin = false ∧ s.m.ctl.job.phase ≠ .running)
    ∧ (let s := st (stepC (fun j => { j with phase := .running }) run1)
       s.m.ctl.job.phase = .running ∧ (s.m.ctl.die 0).step.slots = 1 :: [] ∧ (s.m.ctl.die 0).step.slot = none
        ∧ ∀ q ∈ (tt0.slotRuns 0 1).1, s.m.ctl.runOver 0 q = true)
    ∧ (let s := st { stepC (fun j => { j with phase := .running }) run1 with dies := [(0, { DieSt.reset with step := run1, queues := [(0, { QueueSt.reset with prog := some ⟨0, 0, 0, false⟩ })] })] }
       (tt0.slotRuns 0 1).1 ≠ [] ∧ ∀ q ∈ (tt0.slotRuns 0 1).1, s.m.ctl.runOver 0 q = false)
    ∧ (let s := st (stepC (fun j => { j with phase := .running }) { run1 with slots := [] })
       (s.m.ctl.dieRec 0).isSome = true ∧ s.m.ctl.mayCheck 0 = true ∧ (st (stepC id run1)).m.ctl.mayCheck 0 = false)
    ∧ (let s := st (stepC (fun j => { j with phase := .running }) { run1 with folded := true })
       s.m.ctl.tokenDue = true ∧ (st up).m.ctl.tokenDue = false)
    ∧ (let s := st (stepC id StepRun.reset)
       s.m.ctl.checkGroup = some checkGrp ∧ fieldAt [] 120 4 ≠ crc32c (bytesAt [] 0 120) ∧ checkGrp.children.contains 1 = true
        ∧ s.m.ctl.job.own = none ∧ tokenOf tok.bytes = some tok)
    ∧ (let s := st (stepC (fun j => { j with own := some tok }) StepRun.reset)
       s.m.ctl.job.own = some tok ∧ s.m.ctl.job.up = false ∧ (∀ o ∈ checkGrp.children, o = 1 ∨ Tab.has s.m.ctl.job.children o = true)
        ∧ checkGrp.root = true ∧ bit tok.flags 10 = false) := by and_intros <;> decide +kernel

theorem test_wit_CommitAndDiscard :
    (let s := st (stepC (fun j => { j with phase := .running, up := true, verdict := some { tok with flags := setBit 0 10 true } }) run1)
     s.m.ctl.job.phase = .running ∧ s.m.ctl.job.up = true ∧ (s.m.ctl.verdictIn []).map (fun p => p.1.pass) = some true
      ∧ s.m.ctl.activeDies ≠ [])
    ∧ (let s := st (stepC (fun j => { j with phase := .running, up := true, verdict := some { tok with flags := 1 } }) run1)
       (s.m.ctl.verdictIn []).map (fun p => (p.1.pass, bit p.1.flags 9)) = some (false, false))
    ∧ (let s := st (stepC (fun j => { j with phase := .running, up := true, verdict := some { tok with flags := 512 } }) run1)
       (s.m.ctl.verdictIn []).map (fun p => (p.1.pass, bit p.1.flags 9)) = some (false, true))
    ∧ (let c := stepC (fun j => { j with phase := .applying, verdict := some tok }) run1
       let s := st { c with dies := [(0, { DieSt.reset with step := run1, epoch := 1 })] }
       s.m.ctl.dieUp 0 = true ∧ s.m.ctl.job.verdict = some tok ∧ s.m.ctl.applyOver 0 = true
        ∧ (∀ d ∈ s.m.ctl.activeDies, d = 0 ∨ (s.m.ctl.die d).step.applied = true) ∧ bit tok.flags 7 = false ∧ s.m.ctl.gen.sealCarried = false
        ∧ (st c).m.ctl.applyOver 0 = false)
    ∧ (let two : Timetable := { tt0 with dies := List.replicate 8 ⟨1, 1, 1, 0xFFFF, 0xFFFF, 0, 1, true⟩ }
       let c := stepC (fun j => { j with phase := .applying, verdict := some tok, timetable := some two }) run1
       let s := st { c with dies := [(0, { DieSt.reset with step := run1, epoch := 1 })] }
       s.m.ctl.applyOver 0 = true ∧ ∃ d ∈ s.m.ctl.activeDies, d ≠ 0 ∧ (s.m.ctl.die d).step.applied = false)
    ∧ (let s := st (stepC (fun j => { j with phase := .running, tokenSent := true, propDue := true }) run1)
       s.m.ctl.job.phase = .running ∧ s.m.ctl.job.tokenSent = true ∧ s.m.ctl.job.propDue = true ∧ s.m.ctl.stage = 3)
    ∧ (st up).m.ctl.job.tokenSent = false
    ∧ (let s := st (stepC (fun j => { j with roll := { RollCall.reset with groups := [grp 1 1] } }) run1)
       s.m.ctl.dpGroup = some (grp 1 1) ∧ s.m.ctl.stage = 3 ∧ 0 < (grp 1 1).members.length ∧ 0 ≠ (grp 1 1).rank ∧ s.m.ctl.job.propRound = false)
    ∧ (let s := st (stepC (fun j => { j with propRound := true, heard := [1] }) run1)
       s.m.ctl.job.propRound = true ∧ s.m.ctl.job.propDue = false ∧ 1 ∈ s.m.ctl.job.heard ∧ 0 ∉ s.m.ctl.job.heard
        ∧ fieldAt [] 16 4 = crc32c (([] : List Nat).drop 32) ∧ fieldAt [1] 16 4 = crc32c (([1] : List Nat).drop 32)
        ∧ fieldAt (padTo 33 []) 16 4 ≠ crc32c ((padTo 33 []).drop 32)) := by and_intros <;> decide +kernel

/-! ## Hypotheses that are met: generations and restore -/

/-- One image of one line, at the start of near memory. -/
def img : Image := ⟨false, 0, 0, 1, 0, 0, { tens (nearBase 0) with rows := 1 }, 4096, 64, 0, false, false⟩
def slot1 : GenSlot := { GenSlot.reset with state := 1, gen := 5, images := [img], todo := [(0, nearBase 0 / 64)] }
/-- Up, in a PROTECT group of two as rank 1, with the first slot as given. -/
def genC (x : GenSlot) : Ctl :=
  let c := withGroups (up.wr Fld.fl_FL_GEN_GIB 64) [grp 3 5]
  { c with gen := { GenSt.reset with slots := [x, GenSlot.reset] } }
/-- A BULK message of a kind with no data lines: generation 5, sender's data rank `o`, key `key`. -/
def bulk (kind o key : Nat) : List Nat := (BulkHdr.mk 5 kind false o key 0 0 0).bytes
def slot2 : GenSlot := { slot1 with state := 2, todo := [] }

theorem test_wit_ParityHoldersShareTheStrips : 2 ≤ 2 ∧ 1 < 2 ∧ 0 < 2 ∧ 0 ≠ 1 := by decide

theorem test_wit_GenerationsDrainAndProtect :
    (let c := genC slot1; let s := st { c with gen := { c.gen with drain := some 0, granted := true } }
     s.m.ctl.gen.drain.isSome = true ∧ s.m.ctl.gen.granted = true ∧ s.m.ctl.gen.started = false ∧ s.m.ctl.nextLine = none)
    ∧ (st up).m.ctl.gen.granted = false
    ∧ (let c := genC slot1; let s := st { c with gen := { c.gen with drain := some 0, granted := true, started := true } }
       s.wf = true ∧ s.m.ctl.nextLine = some (0, (0, nearBase 0 / 64)) ∧ 0 < s.m.ctl.gen.slots.length ∧ (s.m.ctl.gslot 0).images[0]? = some img
        ∧ Tab.has (s.m.ctl.gslot 0).pool (nearBase 0 / 64) = false ∧ (s.m.ctl.gslot 0).todo ≠ [])
    ∧ (let c := genC { slot1 with todo := [] }; let s := st { c with gen := { c.gen with drain := some 0, granted := true, started := true } }
       s.m.ctl.gen.drain = some 0 ∧ s.m.ctl.gen.slots.length = 2 ∧ s.m.ctl.gen.started = true ∧ (s.m.ctl.gslot 0).todo = []
        ∧ (s.m.ctl.gslot 0).protect = none ∧ (s.m.ctl.gslot 0).rx.all (extentWhole (s.m.ctl.gslot 0).rx) = true)
    ∧ (let y : Image := ⟨true, 3, 0xFF, 0, 0, 0, Tensor.none, 4096, 64, 0, false, false⟩
       let x := { slot1 with todo := [], images := [y], protect := some (grp 3 5) }
       x.protect = some (grp 3 5) ∧ 2 ≤ (grp 3 5).members.length ∧ y ∈ x.images ∧ y.isSect = true ∧ 0 < y.len)
    ∧ (st up).m.ctl.bulkFor 1 0 [] = none
    ∧ (let s := st (genC slot2); let h : BulkHdr := ⟨5, 1, false, 0, 0, 0, 0, 0⟩
       s.m.ctl.bulkFor 1 0 (bulk 1 0 0) = some (0, grp 3 5, h) ∧ h.origin = 0 ∧ (grp 3 5).ward (grp 3 5).rank = 0 ∧ 0 ≠ (grp 3 5).rank
        ∧ s.m.ctl.heldFits 0 (bulkLines (bulk 1 0 0)).length 0 = true)
    ∧ (let s := st (genC slot2); let h : BulkHdr := ⟨5, 1, false, 1, 0, 0, 0, 0⟩
       s.m.ctl.bulkFor 1 0 (bulk 1 1 0) = some (0, grp 3 5, h) ∧ h.origin ≠ 0)
    ∧ (let s := st (genC slot2); let h (k : Nat) : BulkHdr := ⟨5, k, false, 0, 0, 0, 0, 0⟩
       s.m.ctl.bulkFor 2 0 (bulk 2 0 0) = some (0, grp 3 5, h 2) ∧ s.m.ctl.bulkFor 3 0 (bulk 3 0 0) = some (0, grp 3 5, h 3)
        ∧ ((grp 3 5).heldFor 0 0).isSome = true ∧ s.m.ctl.heldFits 0 0 1 = true
        ∧ (h 2).offset + 64 * (bulkLines (bulk 2 0 0)).length ≤ stripLen
        ∧ (s.m.ctl.gslot 0).rx.contains (rxOf 0 (h 2) (bulkLines (bulk 2 0 0)).length) = false
        ∧ (s.m.ctl.gslot 0).full = [] ∧ s.m.ctl.bulkFor 6 0 (bulk 6 0 0) = some (0, grp 3 5, h 6))
    ∧ (let h : BulkHdr := ⟨5, 2, false, 0, 0, 0, 0, 0⟩; let f := rxOf 0 h (bulkLines (bulk 2 0 0)).length
       let s := st (genC { slot2 with rx := [f] }); s.m.ctl.bulkFor 2 0 (bulk 2 0 0) = some (0, grp 3 5, h) ∧ (s.m.ctl.gslot 0).rx.contains f = true)
    ∧ (let e : Extent := ⟨0, 1, 1, false, 0, 0, 0, 1⟩; let s := st (genC { slot2 with extents := [e] })
       (s.m.ctl.bulkFor 5 0 (bulk 5 1 0)).map (·.1) = some 0 ∧ (s.m.ctl.gslot 0).state = 2 ∧ (s.m.ctl.gslot 0).failed = false
        ∧ s.m.holdsAll 0 = true ∧ s.m.ctl.unacked[0]? = some (0, e) ∧ e.sent < 8)
    ∧ (let e : Extent := ⟨0, 1, 1, false, 0, 0, 0, 8⟩; let s := st (genC { slot2 with extents := [e] })
       s.m.ctl.unacked[0]? = some (0, e) ∧ 8 ≤ e.sent)
    ∧ ((st up).m.ctl.durable < 2 ^ 32 - 1 ∧ 0 ≤ (st up).m.ctl.durable)
    ∧ (let c := stepC id run1; let s := st { c with gen := { c.gen with report := some (5, 4) } }
       s.m.ctl.checkGroup = some checkGrp ∧ checkGrp.root = true ∧ checkGrp.children.contains 1 = true ∧ s.m.ctl.gen.report = some (5, 4)
        ∧ ∀ o ∈ checkGrp.children, Tab.has (s.m.ctl.gen.reports.set 1 (5, 4)) o = true)
    ∧ (let c := withGroups (genC slot2) [grp 7 3]; let s := st c
       s.m.ctl.slotOfGen 5 = some 0 ∧ s.m.ctl.slotOfGen 6 = none ∧ s.m.ctl.group 7 = some (grp 7 3) ∧ (grp 7 3).member = true
        ∧ (grp 7 3).rank ≠ 0 ∧ replicaDigest (s.m.ctl.gslot 0).images 7 ≠ 0xFFFFFFFF) := by
  and_intros <;> decide +kernel

/-- A report of one child, the other child's report still out. -/
theorem test_wit_GenerationsDrainAndProtect_waits :
    let g := { checkGrp with children := [1, 2] }
    let c := stepC (fun j => { j with roll := { RollCall.reset with groups := [g] } }) run1
    let s := st { c with gen := { c.gen with report := some (5, 4) } }
    s.m.ctl.checkGroup = some g ∧ g.root = true ∧ g.children.contains 1 = true
      ∧ ∃ o ∈ g.children, Tab.has (s.m.ctl.gen.reports.set 1 (5, 4)) o = false := by and_intros <;> decide +kernel

/-- A restore of generation 5 as far as given. -/
def rr (f : RestoreRun → RestoreRun) : RestoreRun := f ⟨5, [(9, 1)], false, [], [], false, false, [], 0, none, false, []⟩
def restC (x : GenSlot) (r : Option RestoreRun) : Ctl :=
  let c := stepC id StepRun.reset
  { c with gen := { GenSt.reset with slots := [x, GenSlot.reset], restore := r } }
/-- A slot that is durable, holding the Roll Call section alone. -/
def sect3 : Image := ⟨true, 3, 0xFF, 0, 0, 0, Tensor.none, 4096, 64, 0, false, false⟩
def slot3 : GenSlot := { GenSlot.reset with state := 3, gen := 5, images := [sect3] }
def durC : Ctl := let c := (restC slot3 none).wr Fld.sg_SG_DURABLE_GEN 5; { c with gen := { c.gen with holdDue := true } }

theorem le_lt (n v : Nat) : ∀ x ∈ le n v, x < 256 := by
  induction n generalizing v with
  | zero => simp [le]
  | succ n ih =>
    intro x hx
    rcases List.mem_cons.1 hx with rfl | hx
    · exact Nat.mod_lt _ (by decide)
    · exact ih _ x hx

theorem padTo_lt {n : Nat} {l : List Nat} (h : ∀ x ∈ l, x < 256) : ∀ x ∈ padTo n l, x < 256 := by
  intro x hx
  rcases List.mem_append.1 hx with hx | hx
  · exact h x (List.mem_of_mem_drop (List.mem_of_mem_take hx))
  · rw [List.eq_of_mem_replicate hx]; decide

theorem record_lt {x : GenSlot} (h0 : ∀ v ∈ [x.state, x.flags], v < 256) (hl : x.lessonIds = []) : ∀ v ∈ x.record, v < 256 := by
  refine padTo_lt ?_
  have h1 : ∀ v ∈ (x.lessonIds.map (le 8)).flatten, v < 256 := by simp [hl]
  simp only [List.mem_append, or_imp, forall_and]
  and_intros
  all_goals first | exact le_lt _ _ | exact h0 | exact h1 | decide

/-- A slot's bytes written to far memory. -/
theorem slot_memory {x : GenSlot} (a : Nat) (h0 : ∀ v ∈ [x.state, x.flags], v < 256) (hl : x.lessonIds = []) (hd : ∀ v ∈ x.directory, v < 256)
    (hn : (x.record ++ x.directory).length = 288) : ∃ m, memRead m a 288 = x.record ++ x.directory := by
  refine ⟨Cells.write memDefault [] a (x.record ++ x.directory), ?_⟩
  have h := Cells.read_write (d := memDefault) (m := []) rfl a (x.record ++ x.directory)
  have hm : (x.record ++ x.directory).map (· % 256) = x.record ++ x.directory := by
    conv => rhs; rw [← List.map_id (x.record ++ x.directory)]
    refine List.map_congr_left (fun v hv => Nat.mod_eq_of_lt ?_)
    rcases List.mem_append.1 hv with hv | hv
    · exact record_lt h0 hl v hv
    · exact hd v hv
  rw [hm, hn] at h
  exact h

/-- That slot with its section marked `POISONED`, which its buddy holds. -/
def slot4 : GenSlot := { slot3 with images := [{ sect3 with bad := true }], protect := some (grp 3 5) }
def bad4 : Ctl := { durC with gen := { durC.gen with slots := [slot4, GenSlot.reset] } }

theorem durC_slot : durC.gslot 0 = slot3 := by decide +kernel
theorem bad4_slot : bad4.gslot 0 = slot4 := by decide +kernel

theorem test_wit_HoldRestoreAndReplay_durable : ∃ s : State, s.m.ctl.descsIn [.wait, .grant, .start, .running] = [] ∧ s.m.ctl.gen.holdDue = true
    ∧ s.m.ctl.durable ≠ 0 ∧ s.m.ctl.slotOfGen s.m.ctl.durable = some 0 ∧ s.m.recordOk 0 = true ∧ s.m.badEntries 0 = [] := by
  obtain ⟨m, hm⟩ := slot_memory (x := slot3) (durC.slotBase 0) (by decide +kernel) rfl (by decide +kernel) (by decide +kernel)
  have h0 : durC.descsIn [.wait, .grant, .start, .running] = [] ∧ durC.gen.holdDue = true ∧ durC.durable ≠ 0
      ∧ durC.slotOfGen durC.durable = some 0 ∧ durC.badSpan (durC.slotBase 0) 288 = false := by and_intros <;> decide +kernel
  refine ⟨⟨⟨durC, m⟩, []⟩, h0.1, h0.2.1, h0.2.2.1, h0.2.2.2.1, ?_, ?_⟩
  · unfold Sys2Proof.Machine.Module.recordOk
    simp only [durC_slot]
    rw [show 256 + 32 * slot3.images.length = 288 from rfl, hm, h0.2.2.2.2]
    simp [show slot3.state = 3 from rfl]
  · unfold Sys2Proof.Machine.Module.badEntries
    simp only [durC_slot, show slot3.protect = none from rfl]

theorem test_wit_HoldRestoreAndReplay_bad : ∃ s : State, s.m.ctl.descsIn [.wait, .grant, .start, .running] = [] ∧ s.m.ctl.gen.holdDue = true
    ∧ s.m.ctl.durable ≠ 0 ∧ s.m.ctl.slotOfGen s.m.ctl.durable = some 0 ∧ s.m.recordOk 0 = true ∧ s.m.badEntries 0 ≠ []
    ∧ s.m.ctl.gen.restore = none := by
  obtain ⟨m, hm⟩ := slot_memory (x := slot4) (bad4.slotBase 0) (by decide +kernel) rfl (by decide +kernel) (by decide +kernel)
  have h0 : bad4.descsIn [.wait, .grant, .start, .running] = [] ∧ bad4.gen.holdDue = true ∧ bad4.durable ≠ 0
      ∧ bad4.slotOfGen bad4.durable = some 0 ∧ bad4.badSpan (bad4.slotBase 0) 288 = false ∧ bad4.gen.restore = none
      ∧ (bad4.sourceOf (grp 3 5) [] slot4.images { sect3 with bad := true }).isEmpty = false := by and_intros <;> decide +kernel
  refine ⟨⟨⟨bad4, m⟩, []⟩, h0.1, h0.2.1, h0.2.2.1, h0.2.2.2.1, ?_, ?_, h0.2.2.2.2.2.1⟩
  · unfold Sys2Proof.Machine.Module.recordOk
    simp only [bad4_slot]
    rw [show 256 + 32 * slot4.images.length = 288 from rfl, hm, h0.2.2.2.2.1]
    simp [show slot4.state = 3 from rfl]
  · unfold Sys2Proof.Machine.Module.badEntries Sys2Proof.Machine.Module.entryBad
    simp only [bad4_slot, show slot4.protect = some (grp 3 5) from rfl]
    rw [show slot4.images.filter _ = _ from List.filter_cons_of_pos (by simp [h0.2.2.2.2.2.2])]
    simp

theorem test_wit_HoldRestoreAndReplay :
    (let c := restC slot3 none
     let s := st { c with gen := { c.gen with holdDue := true }, dies := [(0, { DieSt.reset with queues := [(0, { QueueSt.reset with live := [descOf [1] .running .over] })] })] }
     s.m.ctl.gen.holdDue = true ∧ s.m.ctl.descsIn [.wait, .grant, .start, .running] ≠ [])
    ∧ (let c := restC GenSlot.reset none; let s := st { c with gen := { c.gen with holdDue := true } }
       s.m.ctl.descsIn [.wait, .grant, .start, .running] = [] ∧ s.m.ctl.durable = 0 ∧ (∀ k < 2, (s.m.ctl.gslot k).state = 0)
        ∧ 256 < s.m.ctl.freeCount ∧ s.m.ctl.host.shedFirst = none)
    ∧ (let r := rr fun r => { r with asked := true }; let s := st (restC slot3 (some r))
       s.m.ctl.gen.holdDue = false ∧ s.m.ctl.gen.restore = some r ∧ r.isLocal = false ∧ r.replacement = false ∧ r.asked = true
        ∧ [0, 1].find? (fun k => (s.m.ctl.gslot k).gen == r.gen) = some 0 ∧ r.answer = none ∧ r.replayed = false)
    ∧ (let r := rr fun r => { r with replacement := true, asked := true }; let s := st (restC slot3 (some r))
       r.replacement = true ∧ r.asked = true ∧ r.want = [] ∧ s.m.holdsAll 0 = true ∧ 0 < s.m.ctl.gen.slots.length)
    ∧ (let r := rr fun r => { r with replacement := true, asked := true, want := [⟨0, false, 1, false, 0, 0, 0⟩] }
       r.replacement = true ∧ r.asked = true ∧ r.want ≠ [])
    ∧ (let r := rr fun r => { r with replacement := true }; let s := st (withGroups (restC slot3 (some r)) [grp 3 5])
       s.m.ctl.gen.holdDue = false ∧ s.m.ctl.gen.restore = some r ∧ r.replacement = true ∧ r.asked = false ∧ s.m.ctl.protectGroup ≠ none
        ∧ s.m.ctl.gen.slots.length = 2)
    ∧ ((st up).m.ctl.checkGroup = none ∨ (st up).m.ctl.gen.restore = none)
    ∧ (let r := rr fun r => { r with isLocal := true }; let s := st (restC slot3 (some r))
       s.m.ctl.slotOfGen r.gen = some 0 ∧ r.isLocal = true ∧ (s.m.ctl.gslot 0).images.find? (fun x => x.isSect && x.key == 3) = some sect3)
    ∧ (let r := rr fun r => { r with isLocal := true, replayed := true, answer := some true }; r.replayed = true ∧ r.answer = some true)
    ∧ ((∃ p ∈ (grp 1 4).members, ∃ r ∈ [(9, 1)], r.2 = p.1) ∧ ∀ p ∈ (grp 1 4).members, ∀ r ∈ [(9, 2)], r.2 ≠ p.1)
    ∧ (let s := st (restC slot3 (some (rr id)))
       s.m.ctl.checkGroup = some checkGrp ∧ checkGrp.children.contains 1 = true ∧ (rr id).replayed = false)
    ∧ (checkGrp.root = true ∧ checkGrp.children = [1] ∧ (rr fun r => { r with replayed := true }).replayed = true)
    ∧ ((grp 1 4).children.contains 0 = false ∧ (grp 1 4).root = false ∧ (grp 1 4).parent = 0)
    ∧ (Memory.wf (st up).m.mem = true ∧ namesMemory (nearBase 0 / 64 * 64) = true ∧ namesMemory (2 ^ 63 / 64 * 64) = false) := by
  and_intros <;> decide +kernel

/-- What one image of one line waits for, from rank 0, of this module's own data. -/
theorem test_wit_HoldRestoreAndReplay_data :
    let h : BulkHdr := ⟨5, 4, false, 1, 0, 0, 0, 0⟩
    let w : Want := ⟨0, false, 1, false, 0, 0, 0⟩
    let r := rr fun r => { r with want := [w] }
    let x := { slot3 with images := [img] }
    let s := st (withGroups (restC x (some r)) [grp 3 5])
    let f := rxOf 0 h (bulkLines (bulk 4 1 0)).length
    (s.wf = true ∧ s.m.ctl.bulkFor 4 0 (bulk 4 1 0) = some (0, grp 3 5, h) ∧ s.m.ctl.gen.restore = some r
      ∧ (s.m.ctl.gslot 0).rx.contains f = false ∧ r.wanted 0 h = some w ∧ w.strip = false
      ∧ (s.m.ctl.gslot 0).images.find? (fun x => x.isSect == h.isSect && x.key == h.key && x.die == h.kdie) = some img
      ∧ (rr id).wanted 0 h = none)
    ∧ (img.isSect = false ∧ img.kind = 1 ∧ img.len % 64 = 0 ∧ 0 < img.len)
    ∧ (let s := st (withGroups (restC { x with rx := [f] } (some r)) [grp 3 5]); (s.m.ctl.gslot 0).rx.contains f = true) := by
  and_intros <;> decide +kernel

/-- A PARITY image of one line in a block of two, whose strip rank 0 holds. -/
theorem test_wit_HoldRestoreAndReplay_strips :
    let img := { img with kind := 3 }
    let h : BulkHdr := ⟨5, 4, false, 1, 0, 0, 0, 0⟩
    let w : Want := ⟨0, true, 1, false, 0, 0, 0⟩
    let r := rr fun r => { r with want := [w], rebuild := [(0, 0)] }
    let x := { slot3 with images := [img] }
    let s := st (withGroups (restC x (some r)) [grp 3 5])
    let b := bulk 4 1 0 ++ List.replicate 64 7
    (s.wf = true ∧ s.m.ctl.bulkFor 4 0 b = some (0, grp 3 5, h) ∧ s.m.ctl.gen.restore = some r ∧ (s.m.ctl.gslot 0).rx = []
      ∧ r.wanted 0 h = some w ∧ w.strip = true ∧ bulkLines b = [(List.replicate 64 7, false)]
      ∧ streamAt (parityOf (s.m.ctl.gslot 0).images) ((grp 3 5).ownStrip 0 h.origin h.key * 65536 + h.offset / 64) = some (img, 0)
      ∧ r.rebuild.contains (img.die, img.key) = true)
    ∧ (img.isSect = false ∧ img.kind ≠ 1 ∧ img.len % 64 = 0 ∧ 0 < img.len / 64
      ∧ ∀ w ∈ ((stripsOf (s.m.ctl.gslot 0).images img).map (grp 3 5).wantStrip).flatten, w ∉ (rr id).want) := by
  and_intros <;> decide +kernel

/-- Every line that has not come is 64 bytes long. -/
theorem test_wit_HoldRestoreAndReplay_lines :
    ∀ key : Option Nat × Nat, (Tab.get (List.replicate 64 0, false) (rr id).heap key).1.length = 64 := by intro key; rfl

theorem test_wit_SourcesEmitByClass : 4 ≠ 0 ∧ bit (up.rd Fld.tr_TR_SRC_CLASS_EN) 4 = false ∧ bit (up.rd Fld.tr_TR_SRC_CLASS_EN) 3 = true
    ∧ (up.fifo 0).lossDue = false ∧ (up.fifo 0).waiting = [] ∧ (up.fifo 0).recs.length < 256
    ∧ (let q : TraceFifo := { TraceFifo.reset with waiting := [(0xFF, 9, []), (0xFF, 8, [])] }
       q.waiting = (0xFF, 9, []) :: [(0xFF, 8, [])] ∧ q.lossDue = false ∧ q.recs.length < 256) := by decide

theorem test_wit_NoGrantBeyondTheFreeUnits :
    (let r : HpReq := ⟨.drain, 7, 5, 1⟩
     let s := st { up.wr Fld.pm_PM_UNITS_BUDGET 5 with hp := { HpSt.reset with fifo := [r] } }
     s.m.ctl.pow.on = true ∧ s.m.ctl.hp.head = some r ∧ r.units ≤ s.m.ctl.freeUnits
      ∧ (match exec .hallPassGrant s with | .next t => decide (s.m.ctl.hp.held.length < t.m.ctl.hp.held.length) | _ => false) = true)
    ∧ (let s := st { up.wr Fld.pm_PM_UNITS_BUDGET 4 with hp := { HpSt.reset with fifo := [⟨.drain, 7, 5, 1⟩], held := [(.protect, 5)] } }
       s.m.ctl.budget < s.m.ctl.hp.heldUnits ∧ s.m.ctl.freeUnits < 5) := by and_intros <;> decide +kernel

/-! ## The spec's worked examples -/

/-- A conversion of a finite FP32 word. -/
def cvtW (f : Fmt) (md : RMode) (ovf : Bool) (intsat slice w : Nat) : CvtOut :=
  match fp32Val w with
  | .fin n q => roundFinite f md ovf intsat slice n q
  | v => specialCode f ovf v

/-- The vectors of Tensor number formats and block scales. -/
theorem test_convert_vectors :
    cvtW .f8a .rn false 0 0 0x3F880000 = ⟨0x38, []⟩ ∧ cvtW .f8a .rn false 0 0 0x43E10000 = ⟨0x7E, [.sat]⟩
    ∧ cvtW .f8a .rn true 0 0 0x43E10000 = ⟨0x7F, [.ovf]⟩ ∧ cvtW .f8b .rn false 0 0 0x47800000 = ⟨0x7B, [.sat]⟩
    ∧ cvtW .f8b .rn true 0 0 0x47800000 = ⟨0x7C, [.ovf]⟩ ∧ cvtW .f8a .rn false 0 0 0x3A800000 = ⟨0, [.unf]⟩
    ∧ cvtW .f4 .rn false 0 0 0x3F400000 = ⟨2, []⟩ := by decide +kernel

/-- One value under the three INTSAT codes. -/
theorem test_convert_intsat :
    (cvtW .i8 .rn false 0 0 0x43200000).code = 0x7F ∧ (cvtW .i8 .rn false 1 0 0x43200000).code = 0xA0
    ∧ cvtW .i8 .rn false 2 0 0x43200000 = ⟨0x7F, [.sat]⟩ := by decide +kernel

/-- Table 3-3 and the example after it. -/
theorem test_convert_stochastic :
    (cvtW .f4 (.sr 4) false 0 0x4A31 0x3FB00000).code = 3 ∧ (cvtW .f4 (.sr 8) false 0 0x4A31 0x3FB00000).code = 3
    ∧ (cvtW .f4 (.sr 16) false 0 0x4A31 0x3FB00000).code = 3 ∧ (cvtW .f4 (.sr 4) false 0 0x2F00 0x3FB00000).code = 2
    ∧ (cvtW .f8a (.sr 4) false 0 0xFFFF 0x3F808000).code = 0x38 ∧ (cvtW .f8a (.sr 8) false 0 0xFFFF 0x3F808000).code = 0x39 := by
  decide +kernel

/-- The log-domain example after R109. -/
theorem test_log_combination : lAdd logCorrections (.val false 0x180) (.val false 0x100) = (.val false 0x239, []) := by decide +kernel

/-- Table 7-8: a masked base-2 softmax row, the masked position left out. -/
theorem test_softmax_row :
    smxRow true ([0x40A00000, 0x40800000, 0x40400000, 0xFF800000, 0x40400000].map fp32Val)
      = ([0x3F000000, 0x3E800000, 0x3E000000, 0, 0x3E000000], none) := by decide +kernel

/-- The example of infinite ties under Table 7-8. -/
theorem test_softmax_infinite :
    (smxRow false ([0x7F800000, 0x40E00000, 0x7F800000, 0x7F800000].map fp32Val)).1 = [0x3EAAAAAB, 0, 0x3EAAAAAB, 0x3EAAAAAB] := by
  decide +kernel

/-- The near-memory address example of Memory. -/
theorem test_near_die :
    stackOf 0x6734567A40 = some 3 ∧ dramDie 3 0x6734567A40 = 0x10 + 6 * 3 + 2 := by decide

/-- Table 13-5: the interval of one module, without and with 200 precursors. -/
theorem test_interval :
    stepsBetween 2000000 (meanTime 72000 20 0) 4200000 1 = 127 ∧ stepsBetween 2000000 (meanTime 72000 20 200) 4200000 1 = 116 := by
  decide +kernel

/-- The parity example: four members, the strips that member 3 holds at stripe 0. -/
theorem test_parity_holder : holderOf 0 2 4 = (3, 0) ∧ holderOf 1 1 4 = (3, 0) ∧ holderOf 2 0 4 = (3, 0)
    ∧ Nat.xor (Nat.xor 0x5A 0x3C) 0xC3 = 0xA5 := by decide

/-- Table 5-11: a readout row of one side block with five outliers gives the record and the codes the table gives. -/
theorem test_outlier_record :
    let q (n : Bool) (a b : Nat) : COut := { COut.of (overflowCode .f4 false n) none with q := some (n, ⟨a, b⟩) }
    let e (k : Nat) : CElem := ⟨0, k, .val Val.zero, true, false, 0, 0⟩
    let d : PassDesc := { pd with cvt := Cvt.ofWord 4, n := 32 }
    let l := [(e 3, q false 9 1), (e 7, q true 20 1), (e 12, q false 7 1), (e 20, q false 112 1), (e 30, q true 13 2)]
    let r := (st up).m.outliers d 0 false [] { outs := l, scales := [], seen := Seen.none }
    r.res.outs.map (fun p => p.2.code) = [0, 0, 0, 0, 0xF]
      ∧ r.side.map (·.code) = [0x0C, 0xE3, 0x30, 0x0A, 0x51, 0xDA, 0x4E, 0x6E] := by
  decide +kernel

theorem test_wit_StepKeepsMemoryCanonical : (st up).wf ∧ (match step (st up) with | .next _ => true | _ => false) = true := by
  constructor <;> decide

end Sys2Proof.Tests
end

section
/-! The rules of a trace source: what each operation of its FIFO does to the FIFO, to its next `SRC_SEQ` and to the class-0
records that wait, and the statement that a source emits a record by its class (O59). -/

namespace Sys2Proof.Machine

/-! ## A die's FIFO: a read after each operation of the control state -/

@[simp] theorem Ctl.fifo_setFifo (c : Ctl) (d : Nat) (q : TraceFifo) : (c.setFifo d q).fifo d = q := Tab.get_set_same _ _ _ _

@[simp] theorem Ctl.fifo_stamp (c : Ctl) (d d' : Nat) : (c.stamp d').2.fifo d = c.fifo d := rfl

/-- Counting a shed record changes a register alone. -/
@[simp] theorem Ctl.fifo_shedCount (c : Ctl) (k : Option Nat) (d : Nat) : (c.shedCount k).fifo d = c.fifo d := by
  cases k with
  | none => rfl
  | some k => rfl

/-! ## A record that enters (R477) -/

theorem TraceFifo.room_classZero (q : TraceFifo) (size : Nat) : q.room size 0 = decide (q.recs.length < size) := rfl

/-- A record that enters, is shed or replaces one leaves the waiting ones as they were. -/
@[simp] theorem TraceFifo.take_waiting (q : TraceFifo) (size : Nat) (r : TraceRec) : (q.take size r).1.waiting = q.waiting := by
  unfold TraceFifo.take
  split
  · rfl
  · split
    · rfl
    · split
      · rfl
      · rfl

/-- A record uses up its `SRC_SEQ`, whether it is shed or not. -/
@[simp] theorem Ctl.enterFifo_seq (c : Ctl) (d t u ty cl : Nat) (pl : List Nat) :
    ((c.enterFifo d t u ty cl pl).fifo d).seq = (c.fifo d).seq + 1 := by simp [Ctl.enterFifo]

@[simp] theorem Ctl.enterFifo_waiting (c : Ctl) (d t u ty cl : Nat) (pl : List Nat) :
    ((c.enterFifo d t u ty cl pl).fifo d).waiting = (c.fifo d).waiting := by simp [Ctl.enterFifo]

/-! ## The loss summary that is due (R478) -/

theorem Ctl.summarise_of_not_lossDue {c : Ctl} {d : Nat} (h : (c.fifo d).lossDue = false) (t : Nat) : c.summarise d t = c := by
  simp [Ctl.summarise, h]

/-- A summary may use up a `SRC_SEQ`; none is given back. -/
theorem Ctl.le_summarise_seq (c : Ctl) (d t : Nat) : (c.fifo d).seq ≤ ((c.summarise d t).fifo d).seq := by
  unfold Ctl.summarise
  dsimp only
  split
  · simp
  · exact Nat.le_refl _

@[simp] theorem Ctl.summarise_waiting (c : Ctl) (d t : Nat) : ((c.summarise d t).fifo d).waiting = (c.fifo d).waiting := by
  unfold Ctl.summarise
  dsimp only
  split
  · simp [TraceFifo.summed]
  · rfl

/-! ## A record enters or waits (log entry 188) -/

/-- A record is emitted at once, or it is of class 0 and waits behind those that wait. -/
theorem Ctl.enqueue_cases (c : Ctl) (d t u ty cl : Nat) (pl : List Nat) :
    (c.fifo d).seq < ((c.enqueue d t u ty cl pl).fifo d).seq
    ∨ (cl = 0 ∧ ((c.enqueue d t u ty cl pl).fifo d).waiting = (c.fifo d).waiting ++ [(u, ty, pl)]) := by
  have hle := Ctl.le_summarise_seq c d t
  unfold Ctl.enqueue
  dsimp only
  split
  next hwait => exact .inr ⟨hwait.1, by simp⟩
  next => exact .inl (by simpa using Nat.lt_succ_of_le hle)

/-- With no summary due, none waiting and an entry free, a record of class 0 enters. -/
theorem Ctl.enqueue_classZero_of_room {c : Ctl} {d : Nat} (hdue : (c.fifo d).lossDue = false) (hnone : (c.fifo d).waiting = [])
    (hroom : (c.fifo d).recs.length < 256) (t u ty : Nat) (pl : List Nat) :
    c.enqueue d t u ty 0 pl = c.enterFifo d t u ty 0 pl := by
  simp [Ctl.enqueue, Ctl.summarise_of_not_lossDue hdue, hdue, hnone, TraceFifo.room_classZero, hroom]

/-- With no summary due and an entry free, the oldest record that waits enters, under a stamp taken now. -/
theorem Ctl.unwait_of_room {c : Ctl} {d : Nat} {w : Nat × Nat × List Nat} {l : List (Nat × Nat × List Nat)}
    (hwait : (c.fifo d).waiting = w :: l) (hdue : (c.fifo d).lossDue = false) (hroom : (c.fifo d).recs.length < 256) :
    c.unwait d = ((c.stamp d).2.setFifo d { c.fifo d with waiting := l }).enterFifo d (c.stamp d).1 w.1 w.2.1 0 w.2.2 := by
  have hsame : (c.stamp d).2.summarise d (c.stamp d).1 = (c.stamp d).2 :=
    Ctl.summarise_of_not_lossDue (c := (c.stamp d).2) hdue _
  simp [Ctl.unwait, hsame, hwait, hdue, TraceFifo.room_classZero, hroom]

/-! ## Emission by class (R471) -/

theorem Ctl.emit_of_disabled {c : Ctl} {cl : Nat} (hcl : cl ≠ 0) (h : bit (c.rd Fld.tr_TR_SRC_CLASS_EN) cl = false)
    (d u ty : Nat) (pl : List Nat) : c.emit d u ty cl pl = c := by simp [Ctl.emit, hcl, h]

theorem Ctl.emit_of_enabled {c : Ctl} {cl : Nat} (h : cl = 0 ∨ bit (c.rd Fld.tr_TR_SRC_CLASS_EN) cl = true)
    (d u ty : Nat) (pl : List Nat) : c.emit d u ty cl pl = (c.stamp d).2.enqueue d (c.stamp d).1 u ty cl pl := if_pos h

/-- What an enabled class comes to: the record is emitted, or it is of class 0 and waits. -/
theorem Ctl.emit_cases {c : Ctl} {cl : Nat} (h : cl = 0 ∨ bit (c.rd Fld.tr_TR_SRC_CLASS_EN) cl = true)
    (d u ty : Nat) (pl : List Nat) :
    (c.fifo d).seq < ((c.emit d u ty cl pl).fifo d).seq
    ∨ (cl = 0 ∧ ((c.emit d u ty cl pl).fifo d).waiting = (c.fifo d).waiting ++ [(u, ty, pl)]) := by
  rw [Ctl.emit_of_enabled h]
  exact Ctl.enqueue_cases (c.stamp d).2 d (c.stamp d).1 u ty cl pl

theorem Ctl.emit_seq_lt_of_enabled {c : Ctl} {cl : Nat} (hcl : cl ≠ 0) (h : bit (c.rd Fld.tr_TR_SRC_CLASS_EN) cl = true)
    (d u ty : Nat) (pl : List Nat) : (c.fifo d).seq < ((c.emit d u ty cl pl).fifo d).seq :=
  (Ctl.emit_cases (.inr h) d u ty pl).resolve_right fun hwaits => hcl hwaits.1

theorem Ctl.emit_classZero_seq_lt_of_room {c : Ctl} {d : Nat} (hdue : (c.fifo d).lossDue = false)
    (hnone : (c.fifo d).waiting = []) (hroom : (c.fifo d).recs.length < 256) (u ty : Nat) (pl : List Nat) :
    (c.fifo d).seq < ((c.emit d u ty 0 pl).fifo d).seq := by
  have henters : (c.stamp d).2.enqueue d (c.stamp d).1 u ty 0 pl = (c.stamp d).2.enterFifo d (c.stamp d).1 u ty 0 pl :=
    Ctl.enqueue_classZero_of_room (c := (c.stamp d).2) hdue hnone hroom _ u ty pl
  rw [Ctl.emit_of_enabled (.inl rfl), henters]
  simp

theorem Ctl.emit_classZero_cases (c : Ctl) (d u ty : Nat) (pl : List Nat) :
    (c.fifo d).seq < ((c.emit d u ty 0 pl).fifo d).seq
    ∨ ((c.emit d u ty 0 pl).fifo d).waiting = (c.fifo d).waiting ++ [(u, ty, pl)] :=
  (Ctl.emit_cases (.inl rfl) d u ty pl).imp_right And.right

/-- The oldest record that waits is emitted as an entry becomes free. -/
theorem Ctl.unwait_emits_oldest {c : Ctl} {d : Nat} {w : Nat × Nat × List Nat} {l : List (Nat × Nat × List Nat)}
    (hwait : (c.fifo d).waiting = w :: l) (hdue : (c.fifo d).lossDue = false) (hroom : (c.fifo d).recs.length < 256) :
    (c.fifo d).seq < ((c.unwait d).fifo d).seq ∧ ((c.unwait d).fifo d).waiting = l := by
  rw [Ctl.unwait_of_room hwait hdue hroom]
  simp

/-! ## The reset value of `CLASS_EN` -/

theorem bit_eq_testBit (v k : Nat) : bit v k = v.testBit k := by
  rw [bit, Nat.testBit_eq_decide_div_mod_eq, Bool.beq_eq_decide_eq]

theorem State.reset_classEn : State.reset.m.ctl.rd Fld.tr_TR_SRC_CLASS_EN = 2 ^ 4 - 1 := by decide

theorem State.reset_classEn_bit (k : Nat) : bit (State.reset.m.ctl.rd Fld.tr_TR_SRC_CLASS_EN) k = true ↔ k < 4 := by
  rw [State.reset_classEn, bit_eq_testBit, Nat.testBit_two_pow_sub_one, decide_eq_true_eq]

/-- Settles O59. R471: a class other than 0 by its bit of `CLASS_EN`. R477 and log entry 188: a record of class 0 is emitted as its FIFO
has an entry, and else waits in order. -/
theorem sourcesEmitByClass : Obligations.SourcesEmitByClass :=
  ⟨fun c die unit type _ pl =>
    ⟨fun hcl hoff => Ctl.emit_of_disabled hcl hoff die unit type pl,
      fun hcl hon => Ctl.emit_seq_lt_of_enabled hcl hon die unit type pl,
      fun hdue hnone hroom => Ctl.emit_classZero_seq_lt_of_room hdue hnone hroom unit type pl,
      Ctl.emit_classZero_cases c die unit type pl⟩,
    fun _ _ _ _ hwait hdue hroom => Ctl.unwait_emits_oldest hwait hdue hroom,
    State.reset_classEn_bit⟩

end Sys2Proof.Machine
end

section
/-! The rules of the Hall Pass arbiter: what a new budget and a grant do to the units held, what sending and starting leave of the
arbiter, and the statement that nothing is granted beyond the free units (O60). -/

namespace Sys2Proof.Machine

/-- A fold keeps what each of its steps keeps. -/
theorem foldl_keeps {σ α β : Type} (view : σ → β) {f : σ → α → σ} (h : ∀ s x, view (f s x) = view s) (l : List α) (s : σ) :
    view (l.foldl f s) = view s :=
  List.foldlRecOn l f (motive := fun s' => view s' = view s) rfl fun s' hs x _ => (h s' x).trans hs

theorem Ctl.each_keeps {α β : Type} (view : Ctl → β) {f : Ctl → α → Ctl} (h : ∀ c x, view (f c x) = view c) (l : List α) (c : Ctl) :
    view (c.each l f) = view c := foldl_keeps view h l c

/-! ## What an event and a trace record leave of the arbiter and the dies -/

@[simp] theorem Ctl.post_hp (c : Ctl) (code cls d u : Nat) (pl : List Nat) : (c.post code cls d u pl).hp = c.hp :=
  (Ctl.post_quiet c code cls d u pl).hp

@[simp] theorem Ctl.post_dies (c : Ctl) (code cls d u : Nat) (pl : List Nat) : (c.post code cls d u pl).dies = c.dies :=
  (Ctl.post_quiet c code cls d u pl).dies

@[simp] theorem Ctl.emit_hp (c : Ctl) (d u ty cl : Nat) (pl : List Nat) : (c.emit d u ty cl pl).hp = c.hp :=
  (Ctl.emit_quiet c d u ty cl pl).hp

@[simp] theorem Ctl.stamp_hp (c : Ctl) (d : Nat) : (c.stamp d).2.hp = c.hp := rfl

@[simp] theorem Ctl.onDesc_hp (c : Ctl) (d q n : Nat) (f : Desc → Desc) : (c.onDesc d q n f).hp = c.hp := rfl

@[simp] theorem Ctl.arrive_hp (c : Ctl) (d q n : Nat) : (c.arrive d q n).hp = c.hp := rfl

/-! ## A change of the arbiter -/

@[simp] theorem Ctl.showHp_hp (c : Ctl) : c.showHp.hp = c.hp := by
  refine (Ctl.each_keeps Ctl.hp (fun _ _ => ?_) _ _).trans ?_
  · rfl
  · rfl

@[simp] theorem Ctl.showHp_dies (c : Ctl) : c.showHp.dies = c.dies := by
  refine (Ctl.each_keeps Ctl.dies (fun _ _ => ?_) _ _).trans ?_
  · rfl
  · rfl

@[simp] theorem Ctl.setHp_hp (c : Ctl) (h : HpSt) : (c.setHp h).hp = h := Ctl.showHp_hp _

@[simp] theorem Ctl.setHp_dies (c : Ctl) (h : HpSt) : (c.setHp h).dies = c.dies := Ctl.showHp_dies _

/-! ## A new budget (R261, R495) -/

@[simp] theorem Ctl.raiseOversize_dies (c : Ctl) (r : HpReq) : (c.raiseOversize r).dies = c.dies := by
  unfold Ctl.raiseOversize
  split
  · simp
  · simp

/-- R261 moves requests between the queue and those too large; what is held is not asked. -/
@[simp] theorem Ctl.rebudget_held (c : Ctl) : c.rebudget.hp.held = c.hp.held := by simp [Ctl.rebudget]

@[simp] theorem Ctl.rebudget_dies (c : Ctl) : c.rebudget.dies = c.dies := by
  have hraised : ∀ l : List HpReq, (c.each l Ctl.raiseOversize).dies = c.dies :=
    fun l => Ctl.each_keeps Ctl.dies Ctl.raiseOversize_dies l c
  simp [Ctl.rebudget, hraised]

theorem Ctl.recompute_held (c : Ctl) (g tj tjDie : Nat) : (c.recompute g tj tjDie).hp.held = c.hp.held := by simp [Ctl.recompute]

theorem Ctl.recompute_dies (c : Ctl) (g tj tjDie : Nat) : (c.recompute g tj tjDie).dies = c.dies := by simp [Ctl.recompute]

theorem exec_budgetRecompute (g tj tjDie : Nat) (s : State) :
    exec (.budgetRecompute g tj tjDie) s = execBudgetRecompute g tj tjDie s := rfl

theorem exec_budgetRecompute_of_on {s : State} (hon : s.m.ctl.pow.on = true) (g tj tjDie : Nat) :
    exec (.budgetRecompute g tj tjDie) s = .next (s.onM (·.onCtl (·.recompute g tj tjDie))) := by
  rw [exec_budgetRecompute, execBudgetRecompute, if_pos hon]

/-- R496: a new budget leaves the units held, every descriptor of every die, and memory. -/
theorem budgetRecompute_keeps_held {s : State} (hon : s.m.ctl.pow.on = true) (g tj tjDie : Nat) :
    Completes (.budgetRecompute g tj tjDie) s (fun t =>
      t.m.ctl.hp.held = s.m.ctl.hp.held ∧ t.m.ctl.dies = s.m.ctl.dies ∧ s.sameMem t) := by
  refine ⟨_, exec_budgetRecompute_of_on hon g tj tjDie, ?_, ?_, fun a => ?_⟩
  · exact Ctl.recompute_held s.m.ctl g tj tjDie
  · exact Ctl.recompute_dies s.m.ctl g tj tjDie
  · simp

theorem Ctl.freeUnits_of_budget_lt_held {c : Ctl} (h : c.budget < c.hp.heldUnits) : c.freeUnits = 0 :=
  Nat.sub_eq_zero_of_le h.le

/-! ## The head of the queue (R260) -/

/-- No request that waits has a priority above the highest. -/
theorem prio_le_topPrio {l : List HpReq} {o : HpReq} (ho : o ∈ l) : o.prio ≤ topPrio l := by
  have hfold : topPrio l = (l.map HpReq.prio).foldr max ⊥ := by
    rw [← List.foldl_eq_foldr, List.foldl_map]
    rfl
  rw [hfold]
  exact List.le_max_of_le (List.mem_map_of_mem ho) le_rfl

theorem HpSt.head_mem {h : HpSt} {r : HpReq} (hr : h.head = some r) : r ∈ h.fifo := List.mem_of_find?_eq_some hr

theorem HpSt.head_prio {h : HpSt} {r : HpReq} (hr : h.head = some r) : r.prio = topPrio h.fifo := by
  simpa using List.find?_some hr

theorem HpSt.prio_le_head {h : HpSt} {r o : HpReq} (hr : h.head = some r) (ho : o ∈ h.fifo) : o.prio ≤ r.prio :=
  (prio_le_topPrio ho).trans_eq (HpSt.head_prio hr).symm

/-! ## A grant (R260): the arbiter's part -/

/-- The arbiter once it has granted a request: it waits no more, and its units are held. -/
def HpSt.grant (h : HpSt) (r : HpReq) : HpSt := { h with fifo := h.fifo.erase r, held := h.held ++ [(r.who, r.units)] }

theorem HpSt.mem_grant_held (h : HpSt) (r : HpReq) : (r.who, r.units) ∈ (h.grant r).held := by simp [HpSt.grant]

theorem Ctl.hpGrant_of_no_head {c : Ctl} (h : c.hp.head = none) : c.hpGrant = none := by simp [Ctl.hpGrant, h]

theorem Ctl.hpGrant_of_short {c : Ctl} {r : HpReq} (hr : c.hp.head = some r) (h : c.freeUnits < r.units) : c.hpGrant = none := by
  simp [Ctl.hpGrant, hr, h]

theorem Ctl.hpGrant_of_covered {c : Ctl} {r : HpReq} (hr : c.hp.head = some r) (h : r.units ≤ c.freeUnits) :
    c.hpGrant = some (r, c.setHp (c.hp.grant r)) := by
  simp [Ctl.hpGrant, hr, Nat.not_lt.mpr h, HpSt.grant]

/-- Units that the free units cover lie, with those held, within the budget, or the grant adds none. -/
theorem Ctl.units_add_held_le {c : Ctl} {n : Nat} (h : n ≤ c.freeUnits) : n + c.hp.heldUnits ≤ max c.budget c.hp.heldUnits := by
  have hfree : c.freeUnits = c.budget - c.hp.heldUnits := rfl
  omega

/-! ## Sending a frame leaves the arbiter as it was -/

theorem Ctl.sendOn_hp (c : Ctl) (x : Nat) (f : Frame) (n : Nat) (dim : Option Bool) : (c.sendOn x f n dim).hp = c.hp := by
  unfold Ctl.sendOn
  split
  · rfl
  · rfl

theorem Ctl.noLink_hp (c : Ctl) (f : Frame) (dim : Option Bool) : (c.noLink f dim).hp = c.hp := by
  unfold Ctl.noLink
  split
  · simp
  · simp

theorem Ctl.tryRoute_hp {c c' : Ctl} {f : Frame} {dim : Option Bool} (h : c.tryRoute f dim = some c') : c'.hp = c.hp := by
  unfold Ctl.tryRoute at h
  split at h
  · cases h
    exact Ctl.sendOn_hp _ _ _ _ _
  · cases h

theorem Ctl.tryDetour_hp {c c' : Ctl} {f : Frame} (h : c.tryDetour f = some c') : c'.hp = c.hp := by
  obtain ⟨x, -, rfl⟩ := Option.map_eq_some_iff.mp h
  rfl

theorem Ctl.route_hp (c : Ctl) (f : Frame) (dim : Option Bool) : (c.route f dim).hp = c.hp := by
  unfold Ctl.route
  split
  next h => exact Ctl.tryRoute_hp h
  next =>
    split
    · exact Ctl.noLink_hp _ _ _
    · split
      · dsimp only
        split
        next h => exact Ctl.tryRoute_hp h
        next => exact Ctl.noLink_hp _ _ _
      · split
        · dsimp only
          split
          next h => exact Ctl.tryDetour_hp h
          next => exact Ctl.noLink_hp _ _ _
        · exact Ctl.noLink_hp _ _ _

theorem Ctl.sendFrame_hp (c : Ctl) (tc ty psel dst group : Nat) (pl : List Nat) : (c.sendFrame tc ty psel dst group pl).hp = c.hp := by
  unfold Ctl.sendFrame
  dsimp only
  split
  · rfl
  · exact Ctl.route_hp _ _ _

/-! ## The protection traffic that a grant lets go out (R375) -/

theorem Ctl.sendLines_hp (c : Ctl) (g : GroupEnt) (rank : Nat) (h : BulkHdr) (l : List (List Nat × Bool)) :
    (c.sendLines g rank h l).hp = c.hp := Ctl.sendFrame_hp _ _ _ _ _ _ _

theorem Ctl.sendParts_hp (c : Ctl) (g : GroupEnt) (rank : Nat) (h : BulkHdr) (n : Nat) (l : List (List Nat × Bool)) (o : Nat) :
    (c.sendParts g rank h n l o).hp = c.hp := by
  induction n generalizing c l o with
  | zero => rfl
  | succ n ih =>
    unfold Ctl.sendParts
    dsimp only
    split
    · exact Ctl.sendLines_hp _ _ _ _ _
    · exact (ih _ _ _).trans (Ctl.sendLines_hp _ _ _ _ _)

theorem Module.sendOwed_hp (m : Module) (k : Nat) (e : Extent) : (m.sendOwed k e).ctl.hp = m.ctl.hp := by
  unfold Module.sendOwed
  split
  · rfl
  · exact Ctl.sendParts_hp _ _ _ _ _ _ _

theorem Module.sendPending_hp (m : Module) (k : Nat) : (m.sendPending k).ctl.hp = m.ctl.hp :=
  foldl_keeps (fun m : Module => m.ctl.hp) (fun m e => m.sendOwed_hp k e) _ m

theorem Module.protGranted_hp (m : Module) : m.protGranted.ctl.hp = m.ctl.hp :=
  (Module.sendPending_hp _ 1).trans (Module.sendPending_hp _ 0)

/-! ## A grant reaches its holder -/

theorem Ctl.grantDesc_hp (c : Ctl) (d q n : Nat) (r : HpReq) : (c.grantDesc d q n r).hp = c.hp := by
  unfold Ctl.grantDesc
  split
  · rfl
  · dsimp only
    split
    · simp [Ctl.grantTrace]
    · simp [Ctl.grantTrace]

theorem Ctl.grantTo_hp (c : Ctl) (r : HpReq) : (c.grantTo r).hp = c.hp := by
  unfold Ctl.grantTo
  cases r.who with
  | desc d q n => exact Ctl.grantDesc_hp c d q n r
  | attempt d q n => simp [Ctl.grantTrace]
  | drain => rfl
  | protect => rfl

theorem exec_hallPassGrant (s : State) : exec .hallPassGrant s = execHallPassGrant s := rfl

theorem exec_hallPassGrant_of_none {s : State} (h : s.m.ctl.hpGrant = none) : exec .hallPassGrant s = .next s := by
  simp [exec_hallPassGrant, execHallPassGrant, h]

/-- A grant reaches its holder, and the arbiter stays as the grant left it. -/
theorem hallPassGrant_of_some {s : State} {r : HpReq} {c : Ctl} (h : s.m.ctl.hpGrant = some (r, c)) :
    Completes .hallPassGrant s (fun t => t.m.ctl.hp = c.hp) := by
  refine ⟨_, by rw [exec_hallPassGrant, execHallPassGrant, h], ?_⟩
  dsimp only [State.onM_m]
  split
  · exact (Module.protGranted_hp _).trans (Ctl.grantTo_hp c r)
  · exact Ctl.grantTo_hp c r

/-! ## HP_GRANT, by the head and the free units -/

/-- R260, R496: nothing is granted while the free units do not cover the head. -/
theorem exec_hallPassGrant_of_short {s : State} {r : HpReq} (hr : s.m.ctl.hp.head = some r) (h : s.m.ctl.freeUnits < r.units) :
    exec .hallPassGrant s = .next s := exec_hallPassGrant_of_none (Ctl.hpGrant_of_short hr h)

/-- Once they cover it, the head is granted. -/
theorem hallPassGrant_of_covered {s : State} {r : HpReq} (hr : s.m.ctl.hp.head = some r) (h : r.units ≤ s.m.ctl.freeUnits) :
    Completes .hallPassGrant s (fun t => t.m.ctl.hp = s.m.ctl.hp.grant r) := by
  obtain ⟨t, hnext, hhp⟩ := hallPassGrant_of_some (Ctl.hpGrant_of_covered hr h)
  exact ⟨t, hnext, hhp.trans (Ctl.setHp_hp _ _)⟩

/-- Where HP_GRANT ends in another arbiter, it has granted a head that the free units covered. -/
theorem hallPassGrant_covered_of_hp_ne {s t : State} (hnext : exec .hallPassGrant s = .next t) (hne : t.m.ctl.hp ≠ s.m.ctl.hp) :
    ∃ r, s.m.ctl.hp.head = some r ∧ r.units ≤ s.m.ctl.freeUnits := by
  have hgrant : s.m.ctl.hpGrant ≠ none := by
    intro hnone
    cases (exec_hallPassGrant_of_none hnone).symm.trans hnext
    exact hne rfl
  cases hr : s.m.ctl.hp.head with
  | none => exact absurd (Ctl.hpGrant_of_no_head hr) hgrant
  | some r => exact ⟨r, rfl, Nat.le_of_not_lt fun hshort => hgrant (Ctl.hpGrant_of_short hr hshort)⟩

/-- R496: whatever comes to be held was the head of the queue, within the free units. -/
theorem hallPassGrant_within_free {s t : State} (hnext : exec .hallPassGrant s = .next t)
    (hmore : s.m.ctl.hp.held.length < t.m.ctl.hp.held.length) :
    ∃ r, s.m.ctl.hp.head = some r ∧ r.units + s.m.ctl.hp.heldUnits ≤ max s.m.ctl.budget s.m.ctl.hp.heldUnits
      ∧ r ∈ s.m.ctl.hp.fifo ∧ ∀ o ∈ s.m.ctl.hp.fifo, o.prio ≤ r.prio := by
  have hne : t.m.ctl.hp ≠ s.m.ctl.hp := fun hsame => absurd hmore (by simp [hsame])
  obtain ⟨r, hr, hunits⟩ := hallPassGrant_covered_of_hp_ne hnext hne
  exact ⟨r, hr, Ctl.units_add_held_le hunits, HpSt.head_mem hr, fun _ ho => HpSt.prio_le_head hr ho⟩

/-- Settles O60. R496: a budget below the units held stops nothing that runs and leaves no unit free; R260: the arbiter grants the head,
the first request of the highest priority, exactly when the free units cover it. -/
theorem noGrantBeyondTheFreeUnits : Obligations.NoGrantBeyondTheFreeUnits := by
  refine ⟨fun g tj tjDie s hon => budgetRecompute_keeps_held hon g tj tjDie, fun _ => Ctl.freeUnits_of_budget_lt_held,
    fun _ _ => hallPassGrant_within_free, fun _ _ => exec_hallPassGrant_of_short, fun r s hr hunits => ?_⟩
  obtain ⟨t, hnext, hhp⟩ := hallPassGrant_of_covered hr hunits
  refine ⟨t, hnext, ?_⟩
  simpa only [hhp] using HpSt.mem_grant_held s.m.ctl.hp r

end Sys2Proof.Machine
end
